-- ==== Sys2Proof/Word.lean ====
section
/-! DEFINITION. The word types of the Novhar and nothing else (spec R15, R93). -/

namespace Sys2Proof

/-- One byte. -/
abbrev Byte := BitVec 8
/-- One 32-bit word: a register, a vector-register word, a descriptor word. -/
abbrev Word := BitVec 32
/-- A physical site's index, 0 to 2,111 (R54); 0xFFF is never a site index. -/
abbrev Site := Nat

end Sys2Proof
end

