-- ==== Sys2Proof/Syntax.lean ====
section
/-! DEFINITION. The commands: one constructor per row of spec/opcode_table.json, in the table's order.

A slot command carries the bits of its slot below the opcode (R159, R166, R167): 26 bits of a control slot,
43 bits of a matrix or vector slot. A NOP carries its whole slot, opcode included: it is also the command of a slot whose opcode is
not assigned. A vector command also carries the 26 bits of the bundle's VEXT control
slot, where the bundle holds one (R167, R204). An event names the unit it happens in; what comes from outside
the module (a host's data, a message's words, a sensor's reading) is an operand. -/

namespace Sys2Proof

/-- The three slots of a bundle (R159). -/
inductive SlotKind where
  | control | matrix | vector
  deriving DecidableEq, Repr

/-- The sides of a router, in the order of R251. -/
inductive Side where
  | north | east | south | west | loc
  deriving DecidableEq, Repr

/-- Who sends a Keeper command (R426): the mailbox of the non-secure host, the secure host, a manager over VC 11. -/
inductive KSource where
  | mailbox | secure | vc11 (manager : Nat)
  deriving DecidableEq, Repr

/-- The world of a register access (R419, R458): the host through BAR0, or a secure actor. -/
inductive Actor where
  | host | secureActor
  deriving DecidableEq, Repr

/-- An access to BAR0 (R406, R458): a 4 B write, a write of another number of bytes, or a read of a number of bytes. The table names no row
for a read, which REGISTER_WRITE therefore carries (log entry 134). -/
inductive Bar0Access where
  | word (w : Word)
  | bytes (n : Nat)
  | read (n : Nat)
  deriving DecidableEq, Repr

/-- A host access to GDDR7 (R403, R406). -/
inductive GAccess where
  | read (addr : Nat) (len : Nat)
  | write (addr : Nat) (data : List Byte)
  deriving DecidableEq, Repr

/-- A loan: entry `n` of the lending schedule, or the on-demand LOAN that request `req` of a tile's queue made. -/
inductive LoanKey where
  | sched (n : Nat)
  | demand (site : Site) (q : Nat) (req : Nat)
  deriving DecidableEq, Repr

/-- Whose host line completes (R295, R298): a tile request's, a page-in's, or a loan's re-read of a host replica. -/
inductive HostOwner where
  | tile (site : Site) (q : Nat) (req : Nat)
  | loan (key : LoanKey)
  | replica (key : LoanKey)
  deriving DecidableEq, Repr

/-- A forwarded ledger unit on its way out, or one that arrives from another worker (R311). -/
inductive Forward where
  | send
  | receive (worker : Nat) (secure : Bool) (addr : Nat) (group : Nat) (data : List Byte)
  deriving DecidableEq, Repr

/-- The fields of an image header, and the body, of the boot flash or of a RECOVERY message (R431). -/
structure Image where
  magic : Word
  itype : Word
  svn : Nat
  ecdsaSlot : Nat
  lmsSlot : Nat
  digest : BitVec 384
  ecdsaKey : List Byte
  lmsKey : List Byte
  ecdsaSig : List Byte
  lmsSig : List Byte
  body : List Byte
  deriving DecidableEq, Repr

/-- A configuration request to the function (R405, R415, R417). -/
inductive CfgRequest where
  | read
  | bar (n : Nat)
  | memorySpace (on : Bool)
  | cacheEnable (on : Bool)
  | memEnable (on : Bool)
  deriving DecidableEq, Repr

/-- One sample of the sensors and of the input power (R446): the hottest logic and the hottest SRAM sensor of each quadrant, the
GDDR7 packages, the conversion stages, in degrees Celsius; the power in W. -/
structure Readings where
  logic : List Nat
  sram : List Nat
  gddr : List Nat
  conv : List Nat
  power : Nat
  deriving DecidableEq, Repr

/-- Bay-map states (R351). -/
inductive MapState where
  | empty | active (worker : Nat) | spare | failed
  deriving DecidableEq, Repr

/-- A bay-map entry: state, and grade and stepping read from GLB_CONFIG and VER (R351, R363, R467). -/
structure MapEnt where
  st : MapState
  grade : Nat
  b0 : Bool
  deriving DecidableEq, Repr

/-- What a job relay hands to one worker (R353, R362): the job's number and lead manager, its workers, the hop counts of the worker's
routes to them (R350), the worker's images, region entries, circulation entry, and its LNK_BUDDY, LNK_LOCAL, LNK_HELD and LNK_SHARD
(R370). For the manager: where in the manager store the host has staged the images, the places of workers in other bays
(128 × manager number + position), and what the host has written in the bay map (R351). -/
structure Relay where
  worker : Nat
  job : Nat
  lead : Nat
  workers : List Nat
  hops : List (Nat × Nat)
  images : List (Nat × List Byte)
  regions : List (List Word)
  entry : Nat
  words : List Word
  ckpt : List Word
  store : Nat
  places : List (Nat × Nat)
  map : List (Nat × MapEnt)
  deriving DecidableEq, Repr

/-- Why a device is told to fault (R392, R393): another device has faulted, a worker is lost, or a message found no route in transit. -/
inductive FaultCause where
  | remote
  | deviceLost (worker : Nat)
  | noRoute
  deriving DecidableEq, Repr

/-- The parts of an alignment exchange on VC 10 (R368): the aligned device's request leaves; the upstream device answers it; the reply
arrives, with the upstream device's stamps. -/
inductive TimeStep where
  | ask (upstream : Nat)
  | serve (dest : Nat)
  | reply (t2 t3 : Int)
  deriving DecidableEq, Repr

/-- A link message as the device meets it (R346, R347). `port` is the port whose receive buffer its flits hold (R341): none for a message of
this device's own. -/
structure LinkMsg where
  dest : Nat
  src : Nat
  vc : Nat
  what : String
  words : List Nat
  port : Option Nat := none
  deriving DecidableEq, Repr

/-- The commands, one per row of the table. -/
inductive Instr where
  -- control slot
  | nop (site : Site) (slot : SlotKind) (w : BitVec 48)
  | halt (site : Site) (w : BitVec 26)
  | haltComplete (site : Site)
  | br (site : Site) (w : BitVec 26)
  | loop (site : Site) (w : BitVec 26)
  | loopBackEdge (site : Site)
  | salu (site : Site) (w : BitVec 26)
  | salui (site : Site) (w : BitVec 26)
  | sli (site : Site) (w : BitVec 26)
  | aop (site : Site) (w : BitVec 26)
  | sld (site : Site) (w : BitVec 26)
  | sst (site : Site) (w : BitVec 26)
  | qreq (site : Site) (w : BitVec 26)
  | qreqRetire (site : Site)
  | qwait (site : Site) (w : BitVec 26)
  | qwaitRetire (site : Site)
  | bell (site : Site) (w : BitVec 26)
  | xsend (site : Site) (w : BitVec 26)
  | xrecv (site : Site) (w : BitVec 26)
  | wopen (site : Site) (w : BitVec 26)
  | slip (site : Site) (w : BitVec 26)
  | cens (site : Site) (w : BitVec 26)
  -- matrix slot
  | mma (site : Site) (w : BitVec 43)
  | mconv (site : Site) (w : BitVec 43)
  | mdist (site : Site) (w : BitVec 43)
  | sliceAccumulate (site : Site)
  | replayDecision (site : Site)
  | mdrain (site : Site) (w : BitVec 43)
  | drainRowWrite (site : Site)
  | mscale (site : Site) (w : BitVec 43)
  -- vector slot
  | vadd (site : Site) (w : BitVec 43) (vext : Option (BitVec 26))
  | vsub (site : Site) (w : BitVec 43) (vext : Option (BitVec 26))
  | vmul (site : Site) (w : BitVec 43) (vext : Option (BitVec 26))
  | vfma (site : Site) (w : BitVec 43) (vext : Option (BitVec 26))
  | vmin (site : Site) (w : BitVec 43) (vext : Option (BitVec 26))
  | vmax (site : Site) (w : BitVec 43) (vext : Option (BitVec 26))
  | vcmp (site : Site) (w : BitVec 43) (vext : Option (BitVec 26))
  | vsel (site : Site) (w : BitVec 43) (vext : Option (BitVec 26))
  | vcvtPlain (site : Site) (w : BitVec 43) (vext : Option (BitVec 26))
  | vcvtSlice (site : Site) (w : BitVec 43) (vext : Option (BitVec 26))
  | vcvtRecombine7 (site : Site) (w : BitVec 43) (vext : Option (BitVec 26))
  | vcvtRecombine6 (site : Site) (w : BitVec 43) (vext : Option (BitVec 26))
  | vred (site : Site) (w : BitVec 43) (vext : Option (BitVec 26))
  | vdiv (site : Site) (w : BitVec 43) (vext : Option (BitVec 26))
  | vsqrt (site : Site) (w : BitVec 43) (vext : Option (BitVec 26))
  | vrcp (site : Site) (w : BitVec 43) (vext : Option (BitVec 26))
  | vrsqrt (site : Site) (w : BitVec 43) (vext : Option (BitVec 26))
  | vexp (site : Site) (w : BitVec 43) (vext : Option (BitVec 26))
  | vlog (site : Site) (w : BitVec 43) (vext : Option (BitVec 26))
  | vtanh (site : Site) (w : BitVec 43) (vext : Option (BitVec 26))
  | vld (site : Site) (w : BitVec 43) (vext : Option (BitVec 26))
  | vst (site : Site) (w : BitVec 43) (vext : Option (BitVec 26))
  | vupd (site : Site) (w : BitVec 43) (vext : Option (BitVec 26))
  | vectorBeatWrite (site : Site)
  -- queue traffic of a tile
  | landingWrite (site : Site)
  | sendingRead (site : Site)
  | requestLapsed (site : Site) (q : Nat) (req : Nat)
  | poisonPosted (site : Site) (q : Nat) (req : Nat)
  -- bell and supersteps
  | bellArrive (site : Site)
  | bellRelease
  | exchangePhaseEnd (site : Site)
  | bellTimeout
  | superstepOverrun
  | evalOverrun
  | jobLate
  | censusFold
  -- mesh and tile power
  | routerGrant (node : Nat) (plane : Nat) (out : Side)
  | exchangeArrival (site : Site)
  | addfRead (site : Site)
  | addfWrite (site : Site)
  | fence (site : Site)
  | groupUngate (group : Nat)
  -- memory tiers
  | gddr7Access (mc : Nat) (unit : Nat) (ce : List Nat) (ue : List Nat)
  | controllerUnitArrival (mc : Nat)
  | ledgerAdd (mc : Nat) (ce : List Nat) (ue : List Nat)
  | ledgerForward (f : Forward)
  | roomBankAccess (room : Nat) (bank : Nat)
  | bankWakeDone (room : Nat) (bank : Nat)
  | bankGate (room : Nat) (bank : Nat)
  | gateTimeout (room : Nat) (bank : Nat)
  | loanAdmit
  | cardFetchDone (key : LoanKey) (ue : Bool)
  | pageInDone (key : LoanKey)
  | loanRetire (key : LoanKey)
  | loanLapse (key : LoanKey)
  | replicaReread (key : LoanKey) (unit : Nat)
  | loanPoison (key : LoanKey)
  | hostLineComplete (owner : HostOwner) (line : Nat) (ok : Bool) (data : List Byte)
  | streamReady (stream : Nat) (tile : Nat) (must : Bool)
  | streamAck (stream : Nat)
  -- jobs
  | rgsSubmit (entry : BitVec 8)
  | submit (entry : BitVec 8)
  | retry
  | discard
  | accessionStart
  | accessionDone
  | accessionResume
  | quadrantPllLock
  | armedComplete (host : List (List Byte))
  | ready (worker : Nat)
  | go
  | drainStart
  | drainComplete
  | jobFault
  | fault (sender : Nat) (job : Option Nat) (cause : FaultCause)
  | arrive (worker : Nat) (len : Nat)
  | release (len : Nat)
  -- boot, reset and power
  | bootEntry (mgrSel : Bool)
  | bootComplete
  | recovery (img : Image)
  | powerOnReset (railLost : Bool)
  | moduleReset
  | softwareReset
  | thermalTrip
  | watchdogReset
  | perstN
  | functionLevelReset
  | hostLinkDown
  | hostLinkUp (mode : Nat) (width : Nat)
  | thermalTick (r : Readings)
  | dSleepEntry
  | wakeTrigger
  | selfRefreshExitDone
  -- register pages
  | ctrlEnClear (actor : Actor) (page : Nat)
  | ctrlDrainSet (actor : Actor) (page : Nat)
  | ctrlAbort (actor : Actor) (page : Nat)
  | ctrlEnSet (actor : Actor) (page : Nat)
  | ctrlDrainClear (actor : Actor) (page : Nat)
  | blockDrainComplete (page : Nat)
  | istatW1c (actor : Actor) (page : Nat) (w : Word)
  | ienWrite (actor : Actor) (page : Nat) (w : Word)
  | iforce (actor : Actor) (page : Nat) (w : Word)
  | glbXlog0Read (actor : Actor)
  | timSecRead (actor : Actor)
  | step (actor : Actor)
  | registerWrite (actor : Actor) (off : Nat) (a : Bar0Access)
  -- host data paths
  | bar2Access (a : GAccess)
  | hdmAccess (a : GAccess)
  | dmaTail (tail : BitVec 12)
  | dmaDescriptorDone (words : List Word) (data : List Byte) (poisoned : List Nat)
  | pagein (card : BitVec 19)
  | pageout (card : BitVec 19)
  | lndCmdDone (data : List Byte) (badLines : List Nat) (ce : List Nat) (ue : List Nat)
  -- Keeper
  | regionSet (src : KSource) (args : List Word)
  | regionClear (src : KSource) (args : List Word)
  | regionRead (src : KSource) (args : List Word)
  | adopt (src : KSource) (args : List Word)
  | adoptComplete
  | scrubComplete
  | setDigest (src : KSource) (args : List Word)
  | secWrite (src : KSource) (args : List Word)
  | pageWorld (src : KSource) (args : List Word)
  | mgrTrust (src : KSource) (args : List Word)
  | commitSvn (src : KSource) (args : List Word)
  | revoke (src : KSource) (args : List Word)
  -- SPDM and DOE
  | getVersion
  | getCapabilities
  | negotiateAlgorithms
  | getDigests
  | getCertificate (slot : Nat) (offset : Nat) (len : Nat)
  | challenge (slot : Nat) (nonce : BitVec 256)
  | getMeasurements (index : Nat) (signed : Bool)
  | keyExchange (exchange : List Byte)
  | finish (session : Nat) (verify : List Byte)
  | spdmHeartbeat (session : Nat)
  | sessionHeartbeatTimeout (session : Nat)
  | keyUpdate (session : Nat)
  | endSession (session : Nat)
  | vendorDefinedRequest (session : Nat) (code : BitVec 8) (args : List Word)
  | cxlTableAccess
  | discovery (doe : Nat)
  | doeAbort (doe : Nat)
  -- links and managers
  | linkTrainDone (port : Nat) (gen : Nat) (peer : BitVec 15) (peerPort : BitVec 4)
  | linkTrainRetry (port : Nat)
  | linkFlitGrant (port : Nat)
  | flitResend (port : Nat) (failed : Bool)
  | linkDown (port : Nat)
  | linkMessageRoute (m : LinkMsg)
  | noroute (worker : Nat)
  | heartbeat
  | heartbeatMiss (worker : Nat)
  | mgrLost
  | lpiNotice (port : Nat) (own : Bool)
  | portWake (port : Nat)
  | loss (worker : Nat) (reporter : Nat) (port : Nat)
  | probeTimeout (worker : Nat)
  | probeAnswer (worker : Nat)
  | fatal (worker : Nat)
  | takeoverCopyDone (worker : Nat) (copy : Nat) (ok : Bool)
  | wingSpareRequest (bay : Nat) (worker : Nat) (grade : Nat) (fprint : Nat)
  | jobRelay (r : Relay)
  | routeWrite (index : BitVec 15) (entry : BitVec 32)
  | mirrorWrite (worker : Nat) (secure : Bool) (addr : Nat) (data : List Byte)
  | sealed (worker : Nat) (epoch : BitVec 32)
  | commit (epoch : BitVec 32)
  | censusRead (worker : Nat) (words : List Word)
  | timeAlign (t : TimeStep)
  | ppsEdge (interval : Nat)
  | ppsLost
  | alignmentTimeout
  | keeperCommandVc11 (manager : Nat) (code : BitVec 8) (args : List Word)
  | acknowledgementReturn (site : Site) (q : Nat) (req : Nat)
  | electricalIdleLoss (port : Nat)
  | vectorUnmask (vector : Nat)
  | configurationRequest (r : CfgRequest)
  | hdmDecoderCommit
  | functionReady
  deriving DecidableEq, Repr

end Sys2Proof
end

