-- ==== Sys2Proof/Decode.lean ====
section
/-! DEFINITION. The bundle decoder: 128 bits into the commands of its slots (R159 to R161, R166, R167). The opcode table itself gives no
row a word. -/

namespace Sys2Proof

/-- Bits of a bit vector as a number. -/
def bitsOf {n : Nat} (w : BitVec n) (lo len : Nat) : Nat := w.toNat / 2 ^ lo % 2 ^ len

/-- The command of a control slot that holds no VEXT (R166). An opcode that R166 does not assign makes the slot's NOP command, which
faults (R161, R185). -/
def decodeControl (x : Site) (w : BitVec 32) : Instr :=
  let b := BitVec.ofNat 26 (bitsOf w 0 26)
  match bitsOf w 26 6 with
  | 0x01 => .halt x b | 0x02 => .br x b | 0x03 => .loop x b | 0x08 => .salu x b | 0x09 => .salui x b | 0x0A => .sli x b
  | 0x0B => .aop x b | 0x0C => .sld x b | 0x0D => .sst x b | 0x10 => .qreq x b | 0x11 => .qwait x b | 0x14 => .bell x b
  | 0x15 => .xsend x b | 0x16 => .xrecv x b | 0x18 => .wopen x b | 0x19 => .slip x b | 0x1C => .cens x b
  | _ => .nop x .control (w.zeroExtend 48)

/-- The command of a matrix slot (R167). -/
def decodeMatrix (x : Site) (w : BitVec 48) : Instr :=
  let b := BitVec.ofNat 43 (bitsOf w 0 43)
  match bitsOf w 43 5 with
  | 0x01 => .mma x b | 0x02 => .mconv x b | 0x03 => .mdist x b | 0x04 => .mdrain x b | 0x05 => .mscale x b
  | _ => .nop x .matrix w

/-- The command of a vector slot, with the VEXT slot of its bundle, whose FORM tells the forms of VCVT apart (R167, R204, R205); none
where the slot holds no instruction. -/
def decodeVector (x : Site) (w : BitVec 48) (e : Option (BitVec 26)) : Option Instr :=
  let b := BitVec.ofNat 43 (bitsOf w 0 43)
  match bitsOf w 43 5 with
  | 0x01 => some (.vadd x b e) | 0x02 => some (.vsub x b e) | 0x03 => some (.vmul x b e) | 0x04 => some (.vfma x b e)
  | 0x05 => some (.vmin x b e) | 0x06 => some (.vmax x b e) | 0x07 => some (.vcmp x b e) | 0x08 => some (.vsel x b e)
  | 0x09 => some (match bitsOf (e.getD 0) 15 2 with
      | 0 => .vcvtPlain x b e | 1 => .vcvtSlice x b e | 2 => .vcvtRecombine7 x b e | _ => .vcvtRecombine6 x b e)
  | 0x0A => some (.vred x b e)
  | 0x10 => some (.vdiv x b e) | 0x11 => some (.vsqrt x b e) | 0x12 => some (.vrcp x b e) | 0x13 => some (.vrsqrt x b e)
  | 0x14 => some (.vexp x b e) | 0x15 => some (.vlog x b e) | 0x16 => some (.vtanh x b e)
  | 0x18 => some (.vld x b e) | 0x19 => some (.vst x b e) | 0x1C => some (.vupd x b e)
  | _ => none

/-- The commands of a bundle, in the order in which they are given: matrix slot, vector slot, control slot (R159). Bits [31:0] are the
control slot, [79:32] the matrix slot, [127:80] the vector slot. A vector instruction takes a VEXT control slot with it. -/
def decodeBundle (x : Site) (w : BitVec 128) : List Instr :=
  let c := BitVec.ofNat 32 (bitsOf w 0 32)
  let v := BitVec.ofNat 48 (bitsOf w 80 48)
  let e := if bitsOf c 26 6 = 0x3F then some (BitVec.ofNat 26 (bitsOf c 0 26)) else none
  let m := decodeMatrix x (BitVec.ofNat 48 (bitsOf w 32 48))
  match decodeVector x v e with
  | some i => if e.isSome then [m, i] else [m, i, decodeControl x c]
  | none => [m, .nop x .vector v, decodeControl x c]

/-- The command a table word spells: the table gives no row any bits, so no word spells a command. -/
def decodeTableWord (_nbits _w : Nat) : Option Instr := none

end Sys2Proof
end

