-- ==== Sys2Proof/Config.lean ====
section
/-! DEFINITION. What the spec leaves open: free values (no body, so no proof sees one) and the constants of an
implementation. Each is named in a row of notes/assumptions. -/

namespace Sys2Proof.Config

/-- Free value: 64 bits that nothing constrains, for the model's own counter `free` (R11, R104). Log entry 7. -/
opaque freeBits : Nat → BitVec 64

/-- Free value: a byte that a bank clash gives, by the access's draw, the cycle and the address (R221). Log entry 10. -/
opaque clashByte : (draw : Nat) → (cycle : Nat) → (addr : Nat) → BitVec 8

/-- Free value: which of the results that R150's bound admits an SFU gives, by operation, format and operand. Log entry 8. -/
opaque sfuChoice : (op : Nat) → (fmt : Nat) → (operand : BitVec 64) → Nat

/-- ECDSA P-384 verification of a header under a key (R432): outside the spec, uninterpreted. Log entry 14. -/
opaque ecdsaVerify : (header key sig : List Byte) → Bool

/-- LMS verification of a header under a key (R432): outside the spec, uninterpreted. Log entry 14. -/
opaque lmsVerify : (header key sig : List Byte) → Bool

/-- Whether the verify data of a FINISH is right for a session (R435): outside the spec, uninterpreted. Log entry 15. -/
opaque finishVerify : (session : Nat) → (verify : List Byte) → Bool

/-- Measurement 1, the digest of the ROM (R436). Log entry 15. -/
opaque romDigest : BitVec 384

/-- The digest of a measurement whose encoding the spec does not give, by its index and what it covers (R436). Log entry 15. -/
opaque measure : (index : Nat) → (content : List Nat) → BitVec 384

/-- The bytes of a DOE answer that the spec does not give (certificates, signatures, nonces, CDAT coding), by the
request's name and its parameters (R414, R435, R436). Log entry 15. -/
opaque doeBytes : (request : String) → (params : List Nat) → List Byte

/-- The public key of the P-384 key pair derived from a secret (R434): outside the spec, uninterpreted. Log entry 15. -/
opaque publicKey : (secret : BitVec 384) → List Byte

/-- What the private key of that pair signs a message with (R434, R435). Log entry 15. -/
opaque sign : (secret : BitVec 384) → (msg : List Byte) → List Byte

/-- The coding of a certificate's signed part, by its name and what it carries (R434). Log entry 15. -/
opaque certificate : (name : String) → (key : List Byte) → (carried : List Nat) → List Byte

/-- The manager number of this device's bay (R344, R352): the installation's, in no register of a worker. Log entry 92. -/
opaque bayManager : BitVec 8

/-- The number of bays in a wing (R344), and of wings in the archive: the installation's. Log entry 92. -/
opaque baysIn : (wing : Nat) → Nat

/-- The number of wings (R4, R344). Log entry 92. -/
opaque wings : Nat

/-- Whether a wing holds a spare shelf (R345): the installation's. Log entry 92. -/
opaque spareShelf : (wing : Nat) → Bool

/-- This device's position in its shelf, 0 to 3 (R344): the installation's. Log entry 92. -/
opaque shelfPosition : Nat

/-- Whether this device stands on a wing spare shelf (R345): the installation's. Log entry 92. -/
opaque onSpareShelf : Bool

/-- Whether the partner of a port is fitted (R345): the installation's. Log entry 92. -/
opaque partnerFitted : (port : Nat) → Bool

/-- How many of a port's outstanding credits of a VC have returned by a flit time: the partner's (R341). Log entry 108. -/
opaque creditsBack : (draw : Nat) → (vc : Nat) → Nat

end Sys2Proof.Config
end

