-- ==== Sys2Proof/Machine/State.lean ====
section
/-! DEFINITION. The state of one Novhar module as plain data, the reasons to stop, and the state after reset.

Sparse data (memories, register words, tiles, routers) are lists of (key, value) pairs in one canonical form: keys
strictly rising and no entry equal to what an unlisted key reads as (Machine/SMap.lean). -/

namespace Sys2Proof.Machine

/-- A sparse map from a number to a value; `Machine/SMap.lean` reads and writes it. -/
abbrev SMap (α : Type) := List (Nat × α)
/-- A sparse memory: (address, byte) pairs. -/
abbrev Memory := List Host.Cell

/-! ### The tile -/

/-- Tile power states (R50). -/
inductive Power where
  | off | retain | active | fenced
  deriving DecidableEq, Repr

/-- Where a delayed register write goes (R163). -/
inductive RegDest where
  | s (r : Nat) | a (r : Nat)
  deriving DecidableEq, Repr

/-- A register write on its way: readable from cycle `at` (R163, R169, R176, R216); `inc` marks the INC of VLD and VST, and `load` is
the address and the free draw of an SLD that has yet to read its word, three cycles before (R169, R218). -/
structure RegWrite where
  at_ : Nat
  dest : RegDest
  value : Word
  inc : Bool
  load : Option (Nat × Nat)
  deriving DecidableEq, Repr

/-- A store on its way: written in cycle `at` (R169, R226), its place in the order of issue (R218), and its free draw (R221). -/
structure MemWrite where
  at_ : Nat
  rank : Nat
  draw : Nat
  addr : Nat
  data : List Byte
  deriving DecidableEq, Repr

/-- The use of bank ports by one access (R220, R221): its cycle, whether it writes, its place in the order of issue (R218), its bytes. -/
structure PortUse where
  cycle : Nat
  write : Bool
  rank : Nat
  addr : Nat
  len : Nat
  deriving DecidableEq, Repr

/-- A window (R232): byte addresses `base` up to, but not including, `bound`. -/
structure Window where
  isOpen : Bool
  base : Nat
  bound : Nat
  deriving DecidableEq, Repr

/-- A window change that takes effect in cycle `at` (R182). -/
structure WinWrite where
  at_ : Nat
  win : Nat
  value : Window
  deriving DecidableEq, Repr

/-- A call-slip counter (R236..R238): requested allotment, allotment A, granules in flight F, binding. -/
structure Slip where
  want : Nat
  allot : Nat
  flight : Nat
  bind : Nat
  deriving DecidableEq, Repr

/-- A SLIP that takes effect in cycle `at` (R182, R237). -/
structure SlipWrite where
  at_ : Nat
  ctr : Nat
  mode : Nat
  value : Word
  deriving DecidableEq, Repr

/-- An MSCALE that takes effect in cycle `at` (R199). -/
structure ScaleWrite where
  at_ : Nat
  acc : Nat
  osc : BitVec 8
  ofmt : BitVec 4
  scaled : Bool
  deriving DecidableEq, Repr

/-- An active loop (R171): addresses of its body's first and last bundle, and its count. -/
structure LoopRec where
  first : Nat
  last : Nat
  count : Nat
  deriving DecidableEq, Repr

/-- What the tile is doing (R19..R22, R32): exchange phases also have an end cycle, `Tile.exEnd`. -/
inductive Phase where
  | compute | exchange | waiting | halting
  deriving DecidableEq, Repr

/-- What holds the control slot: a QREQ or QWAIT that has not retired (R29, R176), or, within one command, a branch
that has already set where and when the next bundle issues (R170). -/
inductive Stall where
  | none
  | jump
  | qreq (q : Nat) (rec : Nat)
  | qwait (q : Nat) (sd : Nat)
  deriving DecidableEq, Repr

/-- Request kinds (R175). -/
inductive ReqKind where
  | gread | gwrite | rread | rwrite | hread | hwrite | accum | loan | loanwait | ssend | srecv
  deriving DecidableEq, Repr

/-- Outcomes of a request (R29, R176). -/
inductive ReqOutcome where
  | done | lapsed | poison
  deriving DecidableEq, Repr

/-- A request in a queue slot (R174): its record, its start, the cycle from which its source
granules may be read (R222), its progress by granules, its outcome and the cycle P it was posted in. -/
structure Request where
  id : Nat
  kind : ReqKind
  rg : Nat
  nolapse : Bool
  stream : Nat
  tag : Nat
  laddr : Nat
  len : Nat
  deadline : Nat
  target : Nat
  worker : Nat
  start : Nat
  ready : Nat
  pc : Nat
  landed : Nat
  sent : Nat
  acked : Nat
  poisoned : Bool
  posted : Option (ReqOutcome × Nat)
  deriving DecidableEq, Repr

/-- Whose data a landing granule is. -/
inductive Owner where
  | req (q : Nat) (id : Nat)
  | loan (n : Nat)
  | stream (n : Nat) (q : Nat) (id : Nat)
  deriving DecidableEq, Repr

/-- A granule on its way into tile memory (R45, R229, R233): landing address, bytes, owner, call slip, and the
window and offset it names when it is a loan's remote write. -/
structure Landing where
  addr : Nat
  data : List Byte
  owner : Owner
  slip : Nat
  win : Nat
  off : Nat
  deriving DecidableEq, Repr

/-- A source granule in the send buffer (R222). -/
structure SendGran where
  q : Nat
  id : Nat
  idx : Nat
  data : List Byte
  deriving DecidableEq, Repr

/-- Output-tile kinds (R116). -/
inductive AccKind where
  | none | window | integer | slice | extremumF | extremumI
  deriving DecidableEq, Repr

/-- One accumulator element (R118, R126, R133). `fresh`: no slice since its reset; `long`: its LONGSUM event is counted
(R123); `ovr`: overflowed for the current or last round (R133, R135); `x`: an EXTREMUM element, FP32 bits or an INT64. -/
structure Elem where
  v : Int
  a : Int
  c : Nat
  z : Bool
  pinf : Bool
  ninf : Bool
  fresh : Bool
  long : Bool
  ovr : Bool
  x : BitVec 64
  deriving DecidableEq, Repr

/-- An output tile: kind, 1,024 elements by 32i + j, scale state (R116, R131). -/
structure AccTile where
  kind : AccKind
  elems : SMap Elem
  osc : BitVec 8
  ofmt : BitVec 4
  scaled : Bool
  deriving DecidableEq, Repr

/-- The three feeding instructions. -/
inductive FeedOp where
  | mma | mconv | mdist
  deriving DecidableEq, Repr

/-- A read period of a feeding instruction (R224): its pass (R66), its first slice, its slices, its first cycle counted
from the start of the round, and its feed cycles C. -/
structure Period where
  p : Nat
  q : Nat
  n0 : Nat
  k : Nat
  start : Nat
  cost : Nat
  deriving DecidableEq, Repr

/-- The operands of one slice as the generators read them: the cycle in which block (0, 0) accumulates it, the last read of its period, its
pass, and per used lane
of A and B the lane word and its block scale (R70, R71, R73). -/
structure SliceWords where
  at_ : Nat
  rdy : Nat
  p : Nat
  q : Nat
  a : List (Nat × Nat)
  b : List (Nat × Nat)
  deriving DecidableEq, Repr

/-- A feeding instruction in progress (R189): its fields, the kind it feeds (R116), the descriptor granules read so far
(R67), its first notional feed cycle t0 (R74, R81), the periods of a round and S′ once the descriptors are read (R224,
R225); the round, period and read cycle its generators have come to, with the granules they hold and the block scales in
force (R71); the slices read but not yet accumulated, the granules that debug mode has yet to check (R231), and whether a read has met
another in its bank (R221); the round and slice that accumulate next, whether the round's overflow test found an element and awaits its
decision, and whether no further slice accumulates while the operands of rounds that are not needed are still read (R134). -/
structure Feed where
  op : FeedOp
  acc : Nat
  add : Bool
  kind : AccKind
  fa : Nat
  fb : Nat
  da : Nat
  db : Nat
  rb : Nat
  mode : Nat
  issue : Nat
  parts : Nat
  descA : List Byte
  descB : List Byte
  t0 : Nat
  periods : List Period
  span : Nat
  draw : Nat
  rnd : Nat
  per : Nat
  off : Nat
  held : List (Nat × List Byte)
  scaleA : List Nat
  scaleB : List Nat
  words : List SliceWords
  reads : List Nat
  upset : Bool
  round : Nat
  slice : Nat
  ovr : Bool
  awaiting : Bool
  closed : Bool
  deriving DecidableEq, Repr

/-- A drain in progress (R84, R192, R196): the tile as it stood, the sampled scale state, the first of its free draws and
the next row; `early` marks one that R75 calls unpredictable. -/
structure Drain where
  src : AccTile
  toReg : Bool
  ofmt : Nat
  rm : Nat
  sat : Bool
  scm : Bool
  part : Bool
  base : Nat
  sbase : Nat
  pitch : Nat
  vr : Nat
  ofs : Nat
  issue : Nat
  draw : Nat
  row : Nat
  early : Bool
  deriving DecidableEq, Repr

/-- Vector operations (R203..R214). -/
inductive VKind where
  | add | sub | mul | fma | vmin | vmax | cmp | sel | cvtPlain | cvtSlice | rec7 | rec6 | red
  | div | sqrt | rcp | rsqrt | exp | log | tanh | ld | st | upd
  deriving DecidableEq, Repr

/-- One element write of a beat: register, first bit in it, width, value. -/
structure VWrite where
  reg : Nat
  bit : Nat
  width : Nat
  value : Nat
  deriving DecidableEq, Repr

/-- What one beat writes: register elements, tile-memory bytes, census events by counter index. -/
structure BeatResult where
  writes : List VWrite
  stores : List (Nat × List Byte)
  events : List Nat
  deriving DecidableEq, Repr

/-- A vector instruction in flight (R145): its fields, scalar operands as read at issue, timing, and the results
of the beats that have been read but not yet written; `off` and `held` are how far the beat in progress has come in tile
memory (R226), `reads` the granules that debug mode has yet to check (R231), `upset` whether a read has met another in its bank (R221);
`draw` is the first of its free draws (R104), `seen` holds the source elements of VRED and of VCVT's first pass. -/
structure VOp where
  kind : VKind
  fmt : Nat
  n : Nat
  w : BitVec 43
  vext : BitVec 26
  scalar : Word
  params : List Word
  base : Nat
  gen : Bool
  issue : Nat
  beats : Nat
  lat : Nat
  parts : Nat
  desc : List Byte
  draw : Nat
  latched : Nat
  off : Nat
  held : List (Nat × List Byte)
  reads : List Nat
  upset : Bool
  next : Nat
  seen : List Nat
  results : List BeatResult
  deriving DecidableEq, Repr

/-- A flit of an exchange packet (R247, R249, R256): route, merge tag, granules, the cycle it is ready in. -/
structure Flit where
  src : Site
  dst : Site
  win : Nat
  off : Nat
  plane : Nat
  vc : Nat
  pri : Nat
  addf : Nat
  rg : Nat
  data : List (List Byte)
  ready : Nat
  deriving DecidableEq, Repr

/-- A flit in the destination port's arrival buffer (R254, R258): entry cycle; once checked at entry, for each granule whether it passed,
with its target address or the address that TIL_WFAULT records (R234, R243), and whether its violations have been recorded; and for an
ADDF flit the cycle of its read, the sums and their census events. -/
structure Arrival where
  flit : Flit
  entry : Nat
  targets : Option (List (Bool × Nat))
  noted : Bool
  sums : Option (Nat × List (List Byte) × List Nat)
  deriving DecidableEq, Repr

/-- An XSEND that is still reading (R180). -/
structure XSend where
  issue : Nat
  src : Nat
  len : Nat
  flit : Flit
  draw : Nat
  latched : Nat
  reads : List Nat
  upset : Bool
  out : List Flit
  deriving DecidableEq, Repr

/-- Debug-mode granule states (R231). -/
inductive Gran where
  | free | pending | sending | stale
  deriving DecidableEq, Repr

/-- A census snapshot buffer (R331): first superstep covered, supersteps covered, counters. -/
structure Snap where
  first : Nat
  span : Nat
  counts : SMap Nat
  deriving DecidableEq, Repr

/-- What a bundle that does not issue gives back (R164, R185): the kinds of the output tiles, and the last MDRAINs, before it. -/
structure Undo where
  kind0 : AccKind
  kind1 : AccKind
  drainAt : Option Nat
  drain0At : Option Nat
  drain1At : Option Nat
  deriving DecidableEq, Repr

/-- The bundle that is issuing: its matrix and vector commands so far, the lowest fault code they have met, and what they would give
back (R41, R185; log entry 3). -/
structure Bundle where
  matrix : Option Instr
  vector : Option Instr
  fault : Option Nat
  undo : Option Undo
  deriving DecidableEq, Repr

/-- A bundle of which no slot has come yet. -/
def Bundle.empty : Bundle := { matrix := none, vector := none, fault := none, undo := none }

/-- One tile (R40). `ports` the bank ports in use from the latest writes on, `found` the hazards that
debug mode has found and not yet reported, `upset` whether accesses have met in a bank and the job may fault for it (R11, R221); `events`
the census events that may still be after a reader. -/
structure Tile where
  pwr : Power
  halted : Bool
  longsum : Bool
  ovf : Bool
  debug : Bool
  ifault : Word
  wfault : Word
  wdrop : Word
  bundle : Bundle
  now : Nat
  pc : Nat
  sregs : SMap Word
  aregs : SMap Word
  regWrites : List RegWrite
  memWrites : List MemWrite
  winWrites : List WinWrite
  slipWrites : List SlipWrite
  scaleWrites : List ScaleWrite
  mem : Memory
  ports : List PortUse
  found : List (Nat × Nat)
  upset : Bool
  loops : List LoopRec
  loopBuf : Option LoopRec
  fell : Bool
  phase : Phase
  exEnd : Nat
  bellL : Nat
  bellAt : Nat
  ackAt : Nat
  arrived : Option Nat
  arrTime : Nat
  stall : Stall
  queues : SMap (List Request)
  nextReq : Nat
  windows : SMap Window
  slips : SMap Slip
  transit : List Landing
  landing : List Landing
  sendBuf : List SendGran
  acc0 : AccTile
  acc1 : AccTile
  feeds : List Feed
  tLast : Option Nat
  tAcc0 : Option Nat
  tAcc1 : Option Nat
  drains : List Drain
  drainAt : Option Nat
  drain0At : Option Nat
  drain1At : Option Nat
  vregs : SMap Word
  vops : List VOp
  census : SMap Nat
  events : List (Nat × Nat)
  snaps : List Snap
  outcomes : SMap (Nat × ReqOutcome)
  xsends : List XSend
  xFree : Nat
  arrivals : List Arrival
  gran : SMap Gran
  granArrived : SMap Bool
  deriving DecidableEq, Repr

/-! ### The mesh -/

/-- A flit held at a router input (R250). -/
structure Held where
  input : Side
  flit : Flit
  deriving DecidableEq, Repr

/-- One router (R245, R250, R251): flits of both planes, round-robin pointers and last grant cycles by output. -/
structure Router where
  held : List Held
  rrVc : SMap Nat
  rrPri : SMap Nat
  last : SMap Nat
  deriving DecidableEq, Repr

/-! ### Memory tiers -/

/-- Error state of a granule (R271, R300). -/
inductive Ecc where
  | good | correctable | uncorrectable
  deriving DecidableEq, Repr

/-- A region-table entry (R274): base and last in 16 MiB units, kind 0 to 4, world. -/
structure Region where
  base : Nat
  last : Nat
  kind : Nat
  secure : Bool
  deriving DecidableEq, Repr

/-- Whose 256 B unit it is; `copy` is a loan's re-read of its n-th copy (R298). -/
inductive UnitOwner where
  | tile (site : Site) (q : Nat) (id : Nat)
  | loan (key : LoanKey)
  | copy (key : LoanKey) (n : Nat)
  | remote (worker : Nat)
  deriving DecidableEq, Repr

/-- The part of a request in one 256 B unit (R270, R276): unit number, first granule in it, number of granules, the
first granule's number in the request, and for a write the granules' bytes. -/
structure UnitMsg where
  owner : UnitOwner
  kind : ReqKind
  secure : Bool
  rg : Nat
  unit : Nat
  first : Nat
  count : Nat
  idx : Nat
  data : List (List Byte)
  deriving DecidableEq, Repr

/-- A ledger unit in a controller's cache (R314): its 256 bytes, or for BF16 its 128 held FP32 values; most recently used first in the list.
-/
structure LUnit where
  unit : Nat
  wide : Bool
  bytes : List Byte
  held : List Word
  dirty : Bool
  deriving DecidableEq, Repr

/-- One memory controller (R269, R276, R297, R312, R314). `inited` lists the units of INIT regions that the job has added to or read with
RCLR (R310). -/
structure Ctl where
  arrivals : List UnitMsg
  reads : List UnitMsg
  groups : SMap (List UnitMsg)
  rr : Nat
  cache : List LUnit
  inited : List Nat
  deriving DecidableEq, Repr

/-- Power state of a room bank (R279, R280); `waking` and `gating` hold their start cycle, and `gating` the cycle in which the count of
its writes in flight last reached 0. -/
inductive BankState where
  | gated | waking (start : Nat) | powered | gating (start : Nat) (zero : Option Nat) | stuck
  deriving DecidableEq, Repr

/-- An access to a room (R278): whose, read or write, granule number in the room, granule number in the request, bytes; a write of a
poisoned granule brings its poison alone (R297). -/
structure RoomAcc where
  owner : UnitOwner
  write : Bool
  gran : Nat
  idx : Nat
  data : List Byte
  poison : Bool
  deriving DecidableEq, Repr

/-- A room bank: state, accesses accepted in order of arrival, writes that a gating bank does not accept, and a GATE that
waits for the end of a wake (R278, R280, R306). -/
structure Bank where
  st : BankState
  accs : List RoomAcc
  held : List RoomAcc
  gateAfter : Bool
  deriving DecidableEq, Repr

/-- A reading room (R278): its bytes, the poisoned granules (R297), its 16 banks. `world` is the world of the job that last used it;
`offered` the accesses that the room refuses and whoever offers them holds (R396, R462). -/
structure Room where
  mem : Memory
  poison : SMap Bool
  banks : SMap Bank
  world : Bool
  offered : List RoomAcc
  deriving DecidableEq, Repr

/-- How far a chunk of a loan has come (R290); one that lapsed or was poisoned, in which cycle (R306). -/
inductive ChunkState where
  | open | landed | lapsed (at_ : Nat) | poisoned (at_ : Nat)
  deriving DecidableEq, Repr

/-- One chunk of a loan at one destination (R287): tile, granules, granules delivered, state. -/
structure Chunk where
  site : Site
  srcGran : Nat
  len : Nat
  landed : Nat
  st : ChunkState
  deriving DecidableEq, Repr

/-- Stages of a loan (R290). -/
inductive LoanStage where
  | waiting | held | card | pageIn | move | ovr
  deriving DecidableEq, Repr

/-- A loan (R287..R294): entry of the schedule or on-demand LOAN, start cycle, deadline in cycles, card index and the card's
words once fetched; destination 0 home, 1 room, 2 tiles; source room; window and offset; NOLAPSE; stage; its chunks (for a
room, one chunk at no site); the object's granules that no read has given clean yet, with the copies tried for each and whether a
re-read is on its way; `got` what re-reads have brought so far, by 32 B slot of a copy (R298), none where it is poisoned; whether its card
could not be read; whether it has met its poison. -/
structure Loan where
  key : LoanKey
  start : Nat
  deadline : Option Nat
  card : Nat
  words : List Word
  dest : Nat
  fromRoom : Bool
  win : Nat
  off : Nat
  nolapse : Bool
  stage : LoanStage
  chunks : List Chunk
  bad : SMap (Nat × Bool)
  got : SMap (Option (List Byte))
  lost : Bool
  poisoned : Bool
  deriving DecidableEq, Repr

/-- The lending engine (R285, R286, R289): card cache, loans started but not admitted, loans in flight, and LND_CMD with the world it was
written from. -/
structure Lend where
  cards : List (Nat × List Word)
  started : List Loan
  loans : List Loan
  cmd : Option (Nat × Nat × Bool)
  deriving DecidableEq, Repr

/-! ### Jobs -/

/-- Device states (R375, R452). -/
inductive DevState where
  | sleep | accession | hold | armed | run | drain | faulted | boot
  deriving DecidableEq, Repr

/-- A raised job fault (R393), the superstep and the cycle it arose in. -/
structure FaultRec where
  reason : Nat
  detail : Nat
  site : Nat
  k : Nat
  at_ : Nat
  deriving DecidableEq, Repr

/-- The current job as accession read it (R373, R380, R385). -/
structure Job where
  entry : Nat
  secure : Bool
  folio : Nat
  size : Nat
  debug : Bool
  debugStop : Bool
  span : Bool
  seam : Bool
  groups : Nat
  base : Nat
  bellTo : Nat
  hf : Nat
  seed : Word
  deadline : Nat
  pages : Word
  nextLoan : Nat
  deriving DecidableEq, Repr

/-- A retained residency (R240, R241): key, world, range in 32 B units, card, and by group (folio group, device group). -/
structure Resid where
  key : Nat
  secure : Bool
  base : Nat
  bound : Nat
  groups : List (Nat × Nat)
  deriving DecidableEq, Repr

/-- The stage of ARMED preparation (R377). -/
inductive ArmStage where
  | idle | pll | ungate | done
  deriving DecidableEq, Repr

/-- A relayed entry (R353): the job's lead manager and number, its workers, the hops of the routes to them. -/
structure Relayed where
  lead : Nat
  job : Nat
  workers : List Nat
  hops : List (Nat × Nat)
  deriving DecidableEq, Repr

/-- The Registrar (R373..R399). `lmax` is the longest exchange phase that other devices have asked for at the bell (R37), `readyFrom` the
devices of the coming job that are ready (R378), `ref` the current job's lead manager and number. `sk` is Sk of the superstep in progress
and `prev` the one before it, while its exchange
phases last: number, Sk, end (R37); `haltedAt` the cycle in which a tile last set HALTED. `past` lists the workers of the spanning job whose
part ended last on this device, until the next job is prepared: their messages may still come. `flagged` lists the supersteps found over
their bound in this job.
`evalDone` is the last evaluation segment that has ended: map entry, first cycle, end; `evalSeen` lists those recorded (R334). -/
structure Rgs where
  queue : List Nat
  cur : Option Nat
  held : Bool
  seamWait : Bool
  job : Option Job
  arm : ArmStage
  armAt : Nat
  fault : Option FaultRec
  sk : Nat
  prev : Option (Nat × Nat × Nat)
  flagged : List Nat
  runAt : Nat
  runTime : Nat
  evalStart : Nat
  evalDone : Option (Nat × Nat × Nat)
  evalSeen : List Nat
  endedAt : Option Nat
  fenceArm : Option Nat
  workers : List Nat
  readyFrom : List Nat
  arrivedFrom : List Nat
  arriveSent : Bool
  lmax : Nat
  haltedAt : Nat
  past : List Nat
  resid : List Resid
  declared : List Resid
  secureDigest : BitVec 384
  relayed : SMap Relayed
  ref : Option (Nat × Nat)
  hops : List (Nat × Nat)
  deriving DecidableEq, Repr

/-- What a census entry that waits for its fold covers (R331, R332): first superstep and supersteps covered, RGS_MICROSTEP
during the first (all ones outside TRAIN), chronicle at the last bell, EVAL, and the ledger counters. -/
structure CenSnap where
  first : Nat
  span : Nat
  micro : Word
  sec : Nat
  ns : Nat
  eval : Bool
  ledger : SMap Nat
  deriving DecidableEq, Repr

/-- The fold engine and the ledger counters of the controllers (R330, R331). -/
structure Cen where
  ledger : SMap Nat
  snaps : List CenSnap
  deriving DecidableEq, Repr

/-! ### Host, Keeper, power, links -/

/-- The DMA engine (R410, R411): the tail written last, whether it has stopped, whether a descriptor is in progress, the STATUS it wrote last
to a descriptor in host memory, and whether descriptors wait that were outstanding when RUN began. -/
structure Dma where
  tail : Nat
  stopped : Bool
  busy : Bool
  status : Nat
  held : Bool := false
  deriving DecidableEq, Repr

/-- The host interface (R400..R417). `lines` are the CXL.cache lines not yet complete, as ranges (owner, first line, lines) in
order of arrival (R295), `offered` those that a disabled interface refuses and whoever asks holds (R396, R462), `wlines` the bytes of HWRITE
lines on their way; `waiting` the BAR2 and HDM accesses that wait for GDDR7 (R396, R445); `kfwAt` the time at which KFW starts to serve, none
before BOOT (R452, R453); `data` is what the last command gave the host, `poison` its poison mark. -/
structure HostIf where
  mode : Nat
  width : Nat
  cacheEn : Bool
  memEn : Bool
  hdm : Bool
  mse : Bool
  ready : Bool
  kfwAt : Option Nat
  mask : SMap Bool
  pba : SMap Bool
  cond : SMap Bool
  sent : List Nat
  dma : Dma
  lines : List (HostOwner × Nat × Nat)
  offered : List (HostOwner × Nat × Nat)
  wlines : List (HostOwner × Nat × List Byte)
  waiting : List GAccess := []
  cfgRetry : Bool
  data : List Byte
  poison : Bool
  deriving DecidableEq, Repr

/-- A Keeper command: source, code, argument block, and whether DOE0 holds it as a request (R426, R483). -/
structure KCmd where
  src : KSource
  code : Nat
  args : List Word
  viaDoe : Bool := false
  deriving DecidableEq, Repr

/-- One entry of a cross-world log (R425, R437), its log key (source, region entry or page) and when its event was. -/
structure XEnt where
  source : Nat
  write : Bool
  adopt : Bool
  entry : Nat
  lost : Nat
  addr : Nat
  sec : Nat
  ns : Nat
  key : Nat
  time : Nat
  deriving DecidableEq, Repr

/-- What the ROM has derived (R434): the DeviceID public key, and once a KFW image was accepted CDI_KFW, the Alias public key and the
Alias certificate. -/
structure Identity where
  deviceId : List Byte
  cdi : Option (BitVec 384)
  aliasKey : List Byte
  aliasCert : List Byte
  deriving DecidableEq, Repr

/-- The Keeper (R419..R438). `identity` is none in LIFECYCLE RMA and before the ROM has run; `udsLocked` tells that the ROM has locked UDS.
`flash` holds slots A and B of KFW at 0 and 1 and of DFW at 2 and 3 (R431); `keys` and `secKeys` hold, by log key, when the key's interval
opened. -/
structure Keeper where
  running : Option KCmd
  waiting : List KCmd
  scrub : List (Nat × Nat)
  adopting : Option Nat
  secStatus : Nat
  secResult : List Word
  trusted : Option Nat
  digests : SMap (BitVec 384)
  xlog : List XEnt
  keys : SMap Nat
  seclog : SMap XEnt
  secHead : Nat
  secWrapped : Bool
  secKeys : SMap Nat
  meas : SMap (BitVec 384)
  flash : SMap Image
  kfwSlot : Nat
  dfwSlot : Nat
  recovering : Bool
  identity : Option Identity
  udsLocked : Bool
  deriving DecidableEq, Repr

/-- An SPDM session (R435): its number, whether FINISH has completed its handshake, and how often KEY_UPDATE has renewed its keys. -/
structure Session where
  id : Nat
  established : Bool
  keys : Nat
  deriving DecidableEq, Repr

/-- The SPDM responder and the DOE instances (R414, R435): what is negotiated, the open sessions, the instances that hold a response, DOE0's
response with its bytes, and DOE1's; `flight` tells that DOE0 holds a request that the Keeper still works on (R426). -/
structure Spdm where
  version : Bool
  caps : Bool
  algs : Bool
  sessions : List Session
  nextId : Nat
  doeBusy : SMap Bool
  resp : String
  data : List Byte
  resp1 : String := ""
  data1 : List Byte := []
  flight : Bool := false
  deriving DecidableEq, Repr

/-- Clock and power state beside CPW's registers (R445 to R447, R449): ticks below resume, trip hold, quadrants whose PLL is starting, the
last tick; the slow-clock edge at which the ceilings of the last tick take effect, and what they were before it; and the time at which a
condition of D-SLEEP last failed. -/
structure Pow where
  wBelow : Nat
  eBelow : Nat
  tripped : Bool
  starting : Nat
  lastTick : Nat
  edge : Nat := 0
  wWas : Nat := 0
  eWas : Nat := 0
  busyAt : Nat := 0
  deriving DecidableEq, Repr

/-- A link port beside its registers (R340, R341, R343): messages waiting by order, frame slot, round robin, failed resends in a row, the
flit in the replay buffer; by VC the flits already sent of its first message, and the credits of the partner's 32 in use. -/
structure Port where
  training : Bool
  out : List LinkMsg
  slot : Nat
  rr : Nat
  fails : Nat
  replay : List LinkMsg
  gone : SMap Nat
  used : SMap Nat
  deriving DecidableEq, Repr

/-- A takeover in progress (R362, R363, R364): the lost worker and the position it held, the spare's position (none while the wing lead
is asked for one), the copies still running, whether copy (c) waits for the ward's own takeover, and its chronicle stamp (R369). `home` is the
manager in whose bay the worker stood, where this manager only leads its job; `lost` and `spare` then are 128 × manager number + position. -/
structure Takeover where
  worker : Nat
  lost : Nat
  spare : Option Nat
  copies : List Nat
  waits : Bool
  sec : Nat
  ns : Nat
  home : Option Nat := none
  deriving DecidableEq, Repr

/-- A worker's part of a job that this manager has relayed (R353): the relay, and its images in the manager store: store address, address at
the worker, length. -/
structure Part where
  relay : Relay
  images : List (Nat × Nat × Nat)
  deriving DecidableEq, Repr

/-- The manager's state (R351..R364). Positions 0 to 63 are the bay's, 64 to 67 the wing spare shelf's; `away` holds the workers that stand
there for this bay. `probes` holds the worker probed, with the position and port of the partner that reported it; `missed` counts
heartbeats by worker; `seals` the epochs sealed by worker; `commits` the commit epoch by a job's lowest worker; `failed` lists the
workers whose jobs have faulted since their relay; `out` the links out of use: position and port (R360); `bay` the census entries read, by
index of the bay table and worker (R333). `leads` holds, by worker, the managers of other bays that lead its jobs (R349); `asks` the lead
that waits, by worker, for the wing lead's answer; `resting` the workers that a shelf partner has seen enter low-power idle (R372). -/
structure Mgr where
  map : SMap MapEnt
  away : SMap Nat
  probes : List (Nat × Nat × Nat)
  missed : SMap Nat
  takeovers : List Takeover
  parts : List Part
  seals : SMap (List Nat)
  commits : SMap Nat
  failed : List Nat
  out : List (Nat × Nat)
  bay : SMap (SMap (List Word))
  leads : SMap (List Nat)
  asks : SMap Nat
  resting : List Nat
  deriving DecidableEq, Repr

/-- The chronicle beside TIM's registers (R366..R368); `sub` is in 84ths of a nanosecond, `trim` in parts per billion, `rem` the
remainder of the trim, in 10^-9 of an 84th; `slewEnd` the time at which a slew of one second ends, `asked` t1 of a request on its way. -/
structure Chron where
  sec : Nat
  ns : Nat
  sub : Nat
  trim : Int
  rem : Int
  slewEnd : Option Nat
  asked : Option Int
  latched : Nat
  lastEdge : Option Nat
  ignored : Nat
  deriving DecidableEq, Repr

/-- Mirrored checkpoint writes (R356, R358): sealed epoch by slot of the local range, mirrored units waiting for COMMIT, and units
sent to the buddy and not yet acknowledged. -/
structure Ckpt where
  sealedAt : SMap Nat
  heldUnits : List UnitMsg
  mirrored : List UnitMsg
  deriving DecidableEq, Repr

/-- Fuses of the part (R6, R9, R55, R59, R266, R430). `colSkip` is by half × 32 + column, `bypass` by site. -/
structure Fuse where
  grade : Nat
  b0 : Bool
  colSkip : SMap Nat
  bypass : SMap Nat
  asyncSeam : Bool
  revoke : BitVec 8
  svnKfw : Nat
  svnDfw : Nat
  lifecycle : Nat
  uds : BitVec 384
  ecdsaKeyH : List (BitVec 384)
  lmsKeyH : List (BitVec 384)
  deriving DecidableEq, Repr

/-- The signals of J1 and J6 (R477, R480). -/
structure Pins where
  mrstN : Bool
  mgrSel : Bool
  ppsIn : Bool
  pwrgd : Bool
  faultN : Bool
  perstN : Bool
  deriving DecidableEq, Repr

/-- One end of a stage-stream transfer (R327): an SSEND or SRECV by tile, queue and request, with its TAG and LEN. An SSEND of another
device, known by its data alone, has no site. `seen` counts the granules of another device's SSEND that the receiver has written or
discarded (R328). -/
structure StreamEnd where
  site : Site
  q : Nat
  id : Nat
  tag : Nat
  len : Nat
  seen : Nat
  deriving DecidableEq, Repr

/-- A stage stream of the running job (R326..R328): the sites the folio declares as its ends (none where another worker
holds the end), its SSENDs and SRECVs on this device since job start, in order, the readies that have arrived and the
transfers acknowledged; `asks` holds, for another device's SRECVs, the source tile that each ready message names and whether the SRECV
must have a partner (R329). Key n is a stream of this worker's folio, key 256 × (w + 1) + n stream n of worker w. -/
structure Stream where
  sendSite : Option Site
  recvSite : Option Site
  sends : List StreamEnd
  recvs : List StreamEnd
  readies : Nat
  asks : List (Nat × Bool)
  acks : Nat
  deriving DecidableEq, Repr

/-- The module. `cycle` counts the core cycles of the model and `time` ticks of 1/84 ns; `phase` is how much of the current core cycle has
passed (R443). `forward` holds the ledger units on their way to their home workers, `forwarded` those sent and not yet acknowledged
(R311). `linkOut` holds the messages handed to the links and not yet routed. -/
structure State where
  pending : List Instr
  cycle : Nat
  time : Nat
  phase : Nat
  clockStart : Nat
  clockOn : Bool
  free : Nat
  dev : DevState
  inReset : Bool
  devHold : Bool
  fuse : Fuse
  pins : Pins
  mgrRole : Bool
  tiles : SMap Tile
  routers : SMap Router
  regs : SMap Word
  gddr : Memory
  ecc : SMap Ecc
  regions : SMap Region
  ctls : SMap Ctl
  forward : List UnitMsg
  forwarded : List UnitMsg
  rooms : SMap Room
  lend : Lend
  streams : SMap Stream
  rgs : Rgs
  cen : Cen
  host : HostIf
  keeper : Keeper
  spdm : Spdm
  pow : Pow
  ports : SMap Port
  route : SMap Word
  linkOut : List LinkMsg
  ckpt : Ckpt
  mgr : Mgr
  chron : Chron
  deriving DecidableEq, Repr

/-- Reasons the model itself stops: there are none. Every command has a next state; what the spec calls unpredictable leaves free values
(R11 to R13, log entry 12). -/
inductive Fault where
  deriving DecidableEq, Repr

/-- Reasons to refuse a command. -/
inductive Refusal where
  /-- Raised by an arm of `exec` that has no meaning yet. Safe: nothing is claimed of the command. -/
  | notModelled (mnemonic : String)
  deriving DecidableEq, Repr

/-! ### Reset -/

/-- An output tile before any job (R116, R131; OFMT is the model's choice, log entry 18). -/
def AccTile.reset : AccTile :=
  { kind := .none, elems := [], osc := 127, ofmt := 0, scaled := false }

/-- A tile in OFF, as a site holds it after reset (R50, R451). -/
def Tile.off : Tile :=
  { pwr := .off, halted := false, longsum := false, ovf := false, debug := false, ifault := 0, wfault := 0, wdrop := 0,
    bundle := Bundle.empty, now := 0, pc := 0, sregs := [], aregs := [], regWrites := [], memWrites := [], winWrites := [],
    slipWrites := [], scaleWrites := [], mem := [], ports := [], found := [], upset := false, loops := [], loopBuf := none, fell := false, phase := .compute, exEnd := 0,
    bellL := 0, bellAt := 0, ackAt := 0, arrived := none, arrTime := 0, stall := .none, queues := [], nextReq := 0, windows := [],
    slips := [], transit := [], landing := [], sendBuf := [], acc0 := AccTile.reset, acc1 := AccTile.reset, feeds := [],
    tLast := none, tAcc0 := none, tAcc1 := none, drains := [], drainAt := none, drain0At := none,
    drain1At := none, vregs := [], vops := [], census := [],
    events := [], snaps := [], outcomes := [], xsends := [], xFree := 0, arrivals := [], gran := [], granArrived := [] }

/-- The Registrar with nothing submitted. -/
def Rgs.idle : Rgs :=
  { queue := [], cur := none, held := false, seamWait := false, job := none, arm := .idle, armAt := 0, fault := none, sk := 0,
    prev := none, flagged := [], runAt := 0, runTime := 0, evalStart := 0, evalDone := none, evalSeen := [], endedAt := none,
    fenceArm := none, workers := [], readyFrom := [], arrivedFrom := [], arriveSent := false, lmax := 0, haltedAt := 0, past := [], resid := [],
    declared := [], secureDigest := 0, relayed := [], ref := none, hops := [] }

/-- The host interface after reset: link down, every vector masked (R400, R412; log entry 19). -/
def HostIf.reset : HostIf :=
  { mode := 0, width := 0, cacheEn := false, memEn := false, hdm := false, mse := false, ready := true, kfwAt := none,
    mask := [], pba := [], cond := [], sent := [], dma := { tail := 0, stopped := false, busy := false, status := 0 }, lines := [], offered := [], wlines := [], cfgRetry := false,
    data := [], poison := false }

/-- The Keeper after reset (R422, R427, R428). -/
def Keeper.reset : Keeper :=
  { running := none, waiting := [], scrub := [], adopting := none, secStatus := 0, secResult := [], trusted := none,
    digests := [], xlog := [], keys := [], seclog := [], secHead := 0, secWrapped := false, secKeys := [], meas := [],
    flash := [], kfwSlot := 0, dfwSlot := 0, recovering := false, identity := none, udsLocked := false }

/-- The SPDM responder after reset (R435). -/
def Spdm.reset : Spdm :=
  { version := false, caps := false, algs := false, sessions := [], nextId := 1, doeBusy := [], resp := "", data := [] }

/-- The manager's state after reset (R351): an empty bay map. -/
def Mgr.reset : Mgr :=
  { map := [], away := [], probes := [], missed := [], takeovers := [], parts := [], seals := [], commits := [], failed := [], out := [],
    bay := [], leads := [], asks := [], resting := [] }

/-- The fuses the model's reset state names: an NVH-2048 of stepping B0 without repair (log entry 5). -/
def Fuse.part : Fuse :=
  { grade := 0, b0 := true, colSkip := [], bypass := [], asyncSeam := false, revoke := 0, svnKfw := 0, svnDfw := 0,
    lifecycle := 1, uds := 0, ecdsaKeyH := [0, 0, 0, 0], lmsKeyH := [0, 0, 0, 0] }

/-- The machine right after a power-on reset, held before its entry into BOOT (R451, R452): every tile OFF, every bank
gated, the region table NONE, every register at its reset value. -/
def State.reset : State :=
  { pending := [], cycle := 0, time := 0, phase := 0, clockStart := 0, clockOn := false, free := 0, dev := .boot, inReset := true,
    devHold := false, fuse := Fuse.part,
    pins := { mrstN := true, mgrSel := false, ppsIn := false, pwrgd := true, faultN := true, perstN := true },
    mgrRole := false, tiles := [], routers := [], regs := [], gddr := [], ecc := [], regions := [], ctls := [], forward := [], forwarded := [], rooms := [],
    lend := { cards := [], started := [], loans := [], cmd := none }, streams := [], rgs := Rgs.idle,
    cen := { ledger := [], snaps := [] }, host := HostIf.reset, keeper := Keeper.reset,
    spdm := Spdm.reset, pow := { wBelow := 0, eBelow := 0, tripped := false, starting := 0, lastTick := 0 }, ports := [],
    route := [], linkOut := [], ckpt := { sealedAt := [], heldUnits := [], mirrored := [] }, mgr := Mgr.reset,
    chron := { sec := 0, ns := 0, sub := 0, trim := 0, rem := 0, slewEnd := none, asked := none, latched := 0, lastEdge := none, ignored := 0 } }

end Sys2Proof.Machine
end

