-- ==== Sys2Proof/Machine/SMap.lean ====
section
/-! DEFINITION. Sparse maps in canonical form: keys strictly rising, and no entry equal to what an unlisted key reads
as. Every memory, register file and table of the model is read and written by these operations. -/

namespace Sys2Proof.Machine

variable {α : Type}

/-- The entry at a key, if one is listed. -/
def SMap.find : SMap α → Nat → Option α
  | [], _ => none
  | (k', v) :: m, k => if k' = k then some v else SMap.find m k

/-- What a key reads as: its entry, or the default. -/
def SMap.get (d : α) (m : SMap α) (k : Nat) : α := (SMap.find m k).getD d

/-- The map with an entry put in its place, whatever the value. -/
def SMap.put : SMap α → Nat → α → SMap α
  | [], k, v => [(k, v)]
  | (k', v') :: m, k, v =>
    if k < k' then (k, v) :: (k', v') :: m
    else if k = k' then (k, v) :: m
    else (k', v') :: SMap.put m k v

/-- The map without a key. -/
def SMap.del (m : SMap α) (k : Nat) : SMap α := m.filter fun p => !decide (p.1 = k)

/-- Write a key: writing what an unlisted key reads as removes the entry. -/
def SMap.set [DecidableEq α] (d : α) (m : SMap α) (k : Nat) (v : α) : SMap α :=
  if v = d then SMap.del m k else SMap.put m k v

/-- Every key of the map lies above `lo`, keys rise strictly, no entry equals the default. -/
def SMap.wfFrom [DecidableEq α] (d : α) : Option Nat → SMap α → Bool
  | _, [] => true
  | lo, (k, v) :: m =>
    (match lo with | none => true | some l => decide (l < k)) && !decide (v = d) && SMap.wfFrom d (some k) m

/-- The canonical form. -/
def SMap.wf [DecidableEq α] (d : α) (m : SMap α) : Bool := SMap.wfFrom d none m

/-- The canonical form of a memory whose unlisted bytes read 0. -/
def Memory.wf (m : Memory) : Bool := SMap.wf (0 : Byte) m

/-- One byte of a memory (R227, R279, R452: unlisted bytes are 0). -/
def Memory.byte (m : Memory) (a : Nat) : Byte := SMap.get 0 m a

/-- Write one byte. -/
def Memory.setByte (m : Memory) (a : Nat) (b : Byte) : Memory := SMap.set 0 m a b

/-- `n` bytes from an address up. -/
def Memory.read (m : Memory) (a n : Nat) : List Byte := (List.range n).map fun i => Memory.byte m (a + i)

/-- Write bytes from an address up. -/
def Memory.write (m : Memory) (a : Nat) : List Byte → Memory
  | [] => m
  | b :: bs => Memory.write (Memory.setByte m a b) (a + 1) bs

/-- The entries of an address range removed: the range reads 0. -/
def Memory.clear (m : Memory) (lo hi : Nat) : Memory := m.filter fun p => !(decide (lo ≤ p.1) && decide (p.1 < hi))

end Sys2Proof.Machine
end

