-- ==== Sys2Proof/Machine/Bits.lean ====
section
/-! DEFINITION. Bit fields, sign extension and byte order (R15, R93, R159). -/

namespace Sys2Proof.Machine

/-- Bits [lo + len - 1 : lo] of a bit vector, as a number. -/
def fld {n : Nat} (w : BitVec n) (lo len : Nat) : Nat := (w.toNat / 2 ^ lo) % 2 ^ len

/-- One bit. -/
def bit {n : Nat} (w : BitVec n) (lo : Nat) : Bool := fld w lo 1 == 1

/-- A number of `len` bits read as signed. -/
def signed (len x : Nat) : Int := if x % 2 ^ len < 2 ^ (len - 1) then Int.ofNat (x % 2 ^ len) else Int.ofNat (x % 2 ^ len) - Int.ofNat (2 ^ len)

/-- A signed field. -/
def sfld {n : Nat} (w : BitVec n) (lo len : Nat) : Int := signed len (fld w lo len)

/-- An integer reduced to `len` bits. -/
def wrap (len : Nat) (x : Int) : Nat := (x % Int.ofNat (2 ^ len)).toNat

/-- A word with the field [lo + len - 1 : lo] replaced. -/
def putFld (w : Word) (lo len v : Nat) : Word :=
  BitVec.ofNat 32 (w.toNat - fld w lo len * 2 ^ lo + (v % 2 ^ len) * 2 ^ lo)

/-- The 21-bit address space of a tile (R70, R169). -/
def addr21 (x : Int) : Nat := wrap 21 x

/-- Bytes as a little-endian number (R93). -/
def leNat : List Byte → Nat
  | [] => 0
  | b :: bs => b.toNat + 256 * leNat bs

/-- A number as `n` little-endian bytes. -/
def natLe : Nat → Nat → List Byte
  | 0, _ => []
  | n + 1, x => BitVec.ofNat 8 x :: natLe n (x / 256)

/-- Bytes as little-endian 32-bit words. -/
def leWords (n : Nat) (bs : List Byte) : List Word :=
  (List.range n).map fun i => BitVec.ofNat 32 (leNat ((bs.drop (4 * i)).take 4))

/-- Words as little-endian bytes. -/
def wordsLe (ws : List Word) : List Byte := ws.flatMap fun w => natLe 4 w.toNat

/-- Word `i` of a list, 0 beyond its end. -/
def wordAt (ws : List Word) (i : Nat) : Word := ws.getD i 0

/-- floor(log2 x) for x > 0, 0 for 0. -/
def log2 (x : Nat) : Nat := Nat.log2 x

/-- Least of a non-empty list of numbers, else the default. -/
def minOf (d : Nat) : List Nat → Nat
  | [] => d
  | x :: xs => xs.foldl Nat.min x

/-- ceil(a / b). -/
def ceilDiv (a b : Nat) : Nat := (a + b - 1) / b

end Sys2Proof.Machine
end

