-- ==== Sys2Proof/Machine/RegMap.lean ====
section
/-! DEFINITION. Where the registers stand in BAR0 (R456, R459, R466) and the reset values that are not 0. -/

namespace Sys2Proof.Machine

/-- Blocks by their ID.TYPE codes (R459). -/
inductive Block where
  | glb | til | mct | lnd | rdr | xnw | lnk | hif | rgs | cpw | tim | sec | cen
  deriving DecidableEq, Repr

/-- ID.TYPE (R459). -/
def Block.type (b : Block) : Nat :=
  match b with
  | .glb => 1 | .til => 2 | .mct => 3 | .lnd => 4 | .rdr => 5 | .xnw => 6 | .lnk => 7 | .hif => 8 | .rgs => 9
  | .cpw => 10 | .tim => 11 | .sec => 12 | .cen => 13

/-- Which block and instance a page is (R456); none in a hole (R457). -/
def pageBlock (p : Nat) : Option (Block × Nat) :=
  if p = 0 then some (.glb, 0)
  else if 0x100 ≤ p ∧ p < 0x940 then some (.til, p - 0x100)
  else if 0x1000 ≤ p ∧ p ≤ 0x1090 ∧ p % 0x10 = 0 then some (.mct, (p - 0x1000) / 0x10)
  else if p = 0x2000 then some (.lnd, 0)
  else if 0x2100 ≤ p ∧ p < 0x2140 then some (.rdr, p - 0x2100)
  else if p = 0x2200 then some (.xnw, 0)
  else if p = 0x2300 then some (.cen, 0)
  else if 0x3000 ≤ p ∧ p ≤ 0x30F0 ∧ p % 0x10 = 0 then some (.lnk, (p - 0x3000) / 0x10)
  else if p = 0x4000 then some (.hif, 0)
  else if p = 0x4100 then some (.rgs, 0)
  else if p = 0x4200 then some (.cpw, 0)
  else if p = 0x4300 then some (.tim, 0)
  else if p = 0x5000 then some (.sec, 0)
  else none

/-- The page of an instance (R456). -/
def Block.page (b : Block) (n : Nat) : Nat :=
  match b with
  | .glb => 0 | .til => 0x100 + n | .mct => 0x1000 + 0x10 * n | .lnd => 0x2000 | .rdr => 0x2100 + n | .xnw => 0x2200
  | .cen => 0x2300 | .lnk => 0x3000 + 0x10 * n | .hif => 0x4000 | .rgs => 0x4100 | .cpw => 0x4200 | .tim => 0x4300
  | .sec => 0x5000

/-- BAR0 offset of a register of a block's instance. -/
def Block.reg (b : Block) (n off : Nat) : Nat := b.page n * 0x1000 + off

/-- Header registers (R459). -/
def oWORLD : Nat := 0x008
/-- STAT. -/
def oSTAT : Nat := 0x00C
/-- ISTAT. -/
def oISTAT : Nat := 0x010
/-- IEN. -/
def oIEN : Nat := 0x014
/-- CTRL. -/
def oCTRL : Nat := 0x01C
/-- SEAL. -/
def oSEAL : Nat := 0x020

/-- GLB (R437). -/
def rGLB_KCMD : Nat := 0x080
/-- GLB_KARG0. -/
def rGLB_KARG0 : Nat := 0x084
/-- GLB_KSTAT. -/
def rGLB_KSTAT : Nat := 0x0A4
/-- GLB_BOOT. -/
def rGLB_BOOT : Nat := 0x0D0

/-- MCT registers of controller n (R305, R335). -/
def rMCT_ECC (n : Nat) : Nat := Block.mct.reg n 0x040
/-- MCT_RFAULT. -/
def rMCT_RFAULT (n : Nat) : Nat := Block.mct.reg n 0x044
/-- MCT_RFADDR. -/
def rMCT_RFADDR (n : Nat) : Nat := Block.mct.reg n 0x048
/-- MCT_LEDGER_NAN0 and NAN1. -/
def rMCT_LEDGER_NAN (n k : Nat) : Nat := Block.mct.reg n (0x050 + 4 * k)
/-- MCT_LEDGER_FMT0 to 63. -/
def rMCT_LEDGER_FMT (n k : Nat) : Nat := Block.mct.reg n (0x100 + 4 * k)

/-- LND (R303). -/
def rLND_CATALOG : Nat := Block.lnd.reg 0 0x040
/-- LND_LOANS. -/
def rLND_LOANS : Nat := Block.lnd.reg 0 0x044
/-- LND_ERR. -/
def rLND_ERR : Nat := Block.lnd.reg 0 0x048
/-- LND_CMD. -/
def rLND_CMD : Nat := Block.lnd.reg 0 0x04C
/-- LND_DCLASS0 to 15. -/
def rLND_DCLASS (k : Nat) : Nat := Block.lnd.reg 0 (0x050 + 4 * k)

/-- RDR (R304). -/
def rRDR_BANKPWR (n : Nat) : Nat := Block.rdr.reg n 0x040
/-- RDR_LATE. -/
def rRDR_LATE (n : Nat) : Nat := Block.rdr.reg n 0x044

/-- XNW (R266). -/
def rXNW_SEAM : Nat := Block.xnw.reg 0 0x040
/-- XNW_FDROP. -/
def rXNW_FDROP : Nat := Block.xnw.reg 0 0x044
/-- XNW_FFIRST. -/
def rXNW_FFIRST : Nat := Block.xnw.reg 0 0x048
/-- XNW_MERGE. -/
def rXNW_MERGE : Nat := Block.xnw.reg 0 0x04C

/-- CEN (R336). -/
def rCEN_TABLE : Nat := Block.cen.reg 0 0x040
/-- CEN_LAST. -/
def rCEN_LAST : Nat := Block.cen.reg 0 0x044
/-- CEN_STAT. -/
def rCEN_STAT : Nat := Block.cen.reg 0 0x048

/-- LNK (R370). -/
def rLNK_STAT (n : Nat) : Nat := Block.lnk.reg n oSTAT
/-- LNK_ERR. -/
def rLNK_ERR (n : Nat) : Nat := Block.lnk.reg n 0x040
/-- LNK_PEER. -/
def rLNK_PEER (n : Nat) : Nat := Block.lnk.reg n 0x044
/-- LNK_WID. -/
def rLNK_WID : Nat := Block.lnk.reg 0 0x100
/-- LNK_RT_ADDR. -/
def rLNK_RT_ADDR : Nat := Block.lnk.reg 0 0x104
/-- LNK_RT_DATA. -/
def rLNK_RT_DATA : Nat := Block.lnk.reg 0 0x108
/-- LNK_BUDDY. -/
def rLNK_BUDDY : Nat := Block.lnk.reg 0 0x10C
/-- LNK_LOCAL. -/
def rLNK_LOCAL : Nat := Block.lnk.reg 0 0x110
/-- LNK_HELD. -/
def rLNK_HELD : Nat := Block.lnk.reg 0 0x114
/-- LNK_SHARD. -/
def rLNK_SHARD : Nat := Block.lnk.reg 0 0x118
/-- LNK_CKPT. -/
def rLNK_CKPT : Nat := Block.lnk.reg 0 0x11C
/-- LNK_TKO. -/
def rLNK_TKO : Nat := Block.lnk.reg 0 0x120

/-- HIF (R417). -/
def rHIF_LINK : Nat := Block.hif.reg 0 0x040
/-- HIF_HAPn, word w (0 BASE_LO, 1 BASE_HI, 2 SIZE). -/
def rHIF_HAP (n w : Nat) : Nat := Block.hif.reg 0 (0x080 + 16 * n + 4 * w)
/-- HIF_DMA_CFG. -/
def rHIF_DMA_CFG : Nat := Block.hif.reg 0 0x108
/-- HIF_DMA_HEAD. -/
def rHIF_DMA_HEAD : Nat := Block.hif.reg 0 0x10C
/-- HIF_ERR. -/
def rHIF_ERR : Nat := Block.hif.reg 0 0x120
/-- HIF_HOSTUE. -/
def rHIF_HOSTUE : Nat := Block.hif.reg 0 0x124

/-- RGS (R398). -/
def rRGS_CIRC : Nat := Block.rgs.reg 0 0x040
/-- RGS_SUBMIT. -/
def rRGS_SUBMIT : Nat := Block.rgs.reg 0 0x044
/-- RGS_STATE. -/
def rRGS_STATE : Nat := Block.rgs.reg 0 0x048
/-- RGS_SUPERSTEP. -/
def rRGS_SUPERSTEP : Nat := Block.rgs.reg 0 0x04C
/-- RGS_HOLD. -/
def rRGS_HOLD : Nat := Block.rgs.reg 0 0x050
/-- RGS_HOLDACT. -/
def rRGS_HOLDACT : Nat := Block.rgs.reg 0 0x054
/-- RGS_FAULT. -/
def rRGS_FAULT : Nat := Block.rgs.reg 0 0x058
/-- RGS_FAULTK. -/
def rRGS_FAULTK : Nat := Block.rgs.reg 0 0x05C
/-- RGS_OVERRUN. -/
def rRGS_OVERRUN : Nat := Block.rgs.reg 0 0x060
/-- RGS_OVK. -/
def rRGS_OVK : Nat := Block.rgs.reg 0 0x064
/-- RGS_HAZARD. -/
def rRGS_HAZARD : Nat := Block.rgs.reg 0 0x068
/-- RGS_HAZADDR. -/
def rRGS_HAZADDR : Nat := Block.rgs.reg 0 0x06C
/-- RGS_HAZK. -/
def rRGS_HAZK : Nat := Block.rgs.reg 0 0x070
/-- RGS_MICROSTEP (R337). -/
def rRGS_MICROSTEP : Nat := Block.rgs.reg 0 0x0C0
/-- RGS_THIN0 and RGS_THIN1 (R337). -/
def rRGS_THIN (k : Nat) : Nat := Block.rgs.reg 0 (0x0C4 + 4 * k)
/-- RGS_EVAL (R337). -/
def rRGS_EVAL : Nat := Block.rgs.reg 0 0x0CC

/-- CPW (R454). -/
def rCPW_DSTATE : Nat := Block.cpw.reg 0 0x040
/-- CPW_FREQ. -/
def rCPW_FREQ : Nat := Block.cpw.reg 0 0x044
/-- CPW_IDLE. -/
def rCPW_IDLE : Nat := Block.cpw.reg 0 0x048
/-- CPW_PCAP. -/
def rCPW_PCAP : Nat := Block.cpw.reg 0 0x04C
/-- CPW_TEMPQ. -/
def rCPW_TEMPQ : Nat := Block.cpw.reg 0 0x050
/-- CPW_TEMPM. -/
def rCPW_TEMPM : Nat := Block.cpw.reg 0 0x054
/-- CPW_RSTCAUSE. -/
def rCPW_RSTCAUSE : Nat := Block.cpw.reg 0 0x058

/-- TIM (R371). -/
def rTIM_STAT : Nat := Block.tim.reg 0 oSTAT
/-- TIM_STEP_SEC. -/
def rTIM_STEP_SEC : Nat := Block.tim.reg 0 0x048
/-- TIM_STEP_NS. -/
def rTIM_STEP_NS : Nat := Block.tim.reg 0 0x04C
/-- TIM_OFFSET. -/
def rTIM_OFFSET : Nat := Block.tim.reg 0 0x050

/-- SEC_LOGIDX (R469). -/
def rSEC_LOGIDX : Nat := Block.sec.reg 0 0x044

/-- Reset values (R335, R370, R417, R420, R454, R459): what a register reads as before anything is written to it. -/
def regReset (off : Nat) : Word :=
  let o := off % 0x1000
  match pageBlock (off / 0x1000) with
  | none => 0
  | some (b, n) =>
    if o = oCTRL then 1
    else if o = oWORLD then (if b = .sec then 3 else 0)
    else match b with
      | .mct => if 0x100 ≤ o ∧ o < 0x200 then 0x7F0 else 0
      | .lnk => if n = 0 ∧ o = 0x11C then 0xFFFFFFFF else 0
      | .hif => if o = 0x108 then 4 else 0
      | .cpw => if o = 0x040 then 1 else if o = 0x048 then 10 else if o = 0x04C then 2500 else if o = 0x058 then 1 else 0
      | _ => 0

end Sys2Proof.Machine
end

