-- ==== Sys2Proof/Machine/Ops.lean ====
section
/-! DEFINITION. The named operations on the state that several commands share: register words, interrupts, the clock
and the chronicle, free values, the cross-world logs, GDDR7 and its region table, job faults and hazards. -/

namespace Sys2Proof.Machine

/-! ### Register words -/

/-- The stored word of a register. -/
def regRaw (s : State) (off : Nat) : Word := SMap.get (regReset off) s.regs off

/-- Store a register word. -/
def setReg (s : State) (off : Nat) (w : Word) : State := { s with regs := SMap.set (regReset off) s.regs off w }

/-- A field of a stored register word. -/
def regFld (s : State) (off lo len : Nat) : Nat := fld (regRaw s off) lo len

/-- Store a field of a register word. -/
def setFld (s : State) (off lo len v : Nat) : State := setReg s off (putFld (regRaw s off) lo len v)

/-- Add to a counter field, which saturates (R305, R398, R417). -/
def satAdd (s : State) (off lo len n : Nat) : State :=
  setFld s off lo len (Nat.min (regFld s off lo len + n) (2 ^ len - 1))

/-! ### Interrupts (R412, R413, R470) -/

/-- The sources of a vector: pages and the ISTAT bits they give it (R412). -/
def vectorSources (v : Nat) : List (Nat × Nat) :=
  match v with
  | 0 => [(Block.rgs.page 0, 0x1)] | 1 => [(Block.rgs.page 0, 0x2)] | 2 => [(Block.rgs.page 0, 0x4)]
  | 3 => [(Block.rgs.page 0, 0x8)] | 4 => [(Block.rgs.page 0, 0x10)] | 5 => [(Block.hif.page 0, 0x1)]
  | 6 => [(Block.hif.page 0, 0xE)] | 7 => [(Block.lnk.page 0, 0x300)]
  | 8 => (List.range 16).map fun n => (Block.lnk.page n, 0xF)
  | 9 => (List.range 10).map fun n => (Block.mct.page n, 0xF)
  | 10 => [(Block.lnd.page 0, 0x7)]
  | 11 => (List.range 64).map fun n => (Block.rdr.page n, 0xFFFFFFFF)
  | 12 => [(Block.xnw.page 0, 0x1)] | 13 => [(Block.cen.page 0, 0x3)] | 14 => [(Block.tim.page 0, 0x7)]
  | 15 => [(Block.cpw.page 0, 0xF)] | 16 => [(Block.glb.page 0, 0x3)]
  | _ => []

/-- The condition of a vector (R412). -/
def vectorCond (s : State) (v : Nat) : Bool :=
  (vectorSources v).any fun (p, m) =>
    (regRaw s (p * 0x1000 + oISTAT) &&& regRaw s (p * 0x1000 + oIEN) &&& BitVec.ofNat 32 m) != 0

/-- The vectors that a page feeds (R412). -/
def pageVectors (p : Nat) : List Nat :=
  (List.range 17).filter fun v => (vectorSources v).any fun (q, _) => q == p

/-- Send a vector's message, or set its PBA bit while it is masked (R413); nothing is sent while the host link is down (R416). -/
def sendVector (s : State) (v : Nat) : State :=
  if SMap.get true s.host.mask v then { s with host := { s.host with pba := SMap.set false s.host.pba v true } }
  else if s.host.mode = 0 then s
  else { s with host := { s.host with sent := s.host.sent ++ [v] } }

/-- The PBA bit of a vector whose condition is false is 0: a masked vector that has nothing left to say sends nothing when it is unmasked
(R413, by the PCIe rules for MSI-X). -/
def quietVector (s : State) (v : Nat) : State := { s with host := { s.host with pba := SMap.set false s.host.pba v false } }

/-- Follow the conditions of the vectors a page feeds: a message when a condition becomes true, and another after a
write to a source ISTAT or IEN that leaves it true (R413). -/
def followVectors (written : Bool) (s : State) : List Nat → State
  | [] => s
  | v :: vs =>
    let c := vectorCond s v
    let s' := if !c then quietVector s v else if written || !SMap.get false s.host.cond v then sendVector s v else s
    followVectors written { s' with host := { s'.host with cond := SMap.set false s'.host.cond v c } } vs

/-- An event sets ISTAT bits (R460). -/
def setIstat (s : State) (page mask : Nat) : State :=
  let off := page * 0x1000 + oISTAT
  followVectors false (setReg s off (regRaw s off ||| BitVec.ofNat 32 mask)) (pageVectors page)

/-- Whether a block accepts new work (R396). -/
def accepts (s : State) (page : Nat) : Bool := regFld s (page * 0x1000 + oCTRL) 0 2 == 1

/-- Whether a place has a port (R344, R345): port 15 is the shelf head's alone, and the spare shelf has ports 0 to 2 and its wing ring. -/
def shelfPort (pos : Nat) (spare : Bool) (port : Nat) : Bool :=
  if spare then decide (port ≤ 2) || port == 11 || port == 12 else decide (port < 15) || pos == 0

/-- Whether a port trains (R340, R344, R345, R462): it accepts work, this place has it (on a manager it is a shelf's), and its partner is
fitted; every other port holds electrical idle. -/
def portTrains (s : State) (port : Nat) : Bool :=
  accepts s (Block.lnk.page port) && Config.partnerFitted port
    && (s.mgrRole || shelfPort Config.shelfPosition Config.onSpareShelf port)

/-! ### Free values (R11) -/

/-- A fresh free value: 64 bits that nothing constrains (log entry 7). -/
def freeWord (s : State) : BitVec 64 := Config.freeBits s.free

/-- The state after `n` free values have been drawn. -/
def drew (s : State) (n : Nat) : State := { s with free := s.free + n }

/-! ### Clock and chronicle (R366, R443) -/

/-- Length of a core cycle in 84ths of a nanosecond, by frequency step (R443). -/
def stepTicks (n : Nat) : Nat :=
  match n with
  | 0 => 105 | 1 => 120 | 2 => 140 | 3 => 168 | _ => 210

/-- Ticks of a slow-clock cycle: 40 ns, the edge after the tick in the example of R449, and a whole number of core cycles at every step. -/
def slowTicks : Nat := 3360

/-- The first slow-clock edge that is no earlier (R442). -/
def slowEdge (t : Nat) : Nat := ceilDiv t slowTicks * slowTicks

/-- The step of the running job's clock under the halves' ceilings: its own, or a higher ceiling of a half it uses (R447). -/
def stepUnder (s : State) (w e : Nat) : Nat :=
  match s.rgs.job with
  | none => 0
  | some j =>
    let own := if j.debug then 2 else 0
    let n := if s.fuse.grade = 0 then 32 else if s.fuse.grade = 1 then 31 else 30
    let west := decide (2 * j.base < n)
    let east := decide (n < 2 * (j.base + j.groups))
    Nat.max own (Nat.max (if west then w else 0) (if east then e else 0))

/-- The step before the last change of the ceilings. -/
def stepBefore (s : State) : Nat := stepUnder s s.pow.wWas s.pow.eWas

/-- The step the running job's clock stands at: a change of a ceiling takes effect at the slow-clock edge after its tick (R443, R447). -/
def jobStep (s : State) : Nat :=
  if s.time < s.pow.edge then stepBefore s else stepUnder s (regFld s rCPW_FREQ 3 3) (regFld s rCPW_FREQ 9 3)

/-- The chronicle after `dt` ticks of 1/84 ns at its trimmed rate; what the trim leaves over is kept (R366). -/
def Chron.add (c : Chron) (dt : Nat) : Chron :=
  let t := Int.ofNat dt * c.trim + c.rem
  let d := (Int.ofNat dt + t / 1000000000).toNat
  let ns := c.ns + (c.sub + d) / 84
  { c with rem := t % 1000000000, sub := (c.sub + d) % 84, ns := ns % 1000000000, sec := (c.sec + ns / 1000000000) % 2 ^ 32 }

/-- The chronicle carried from time `now` over `dt` ticks: a slew ends after its second, and the crystal's own rate follows (R367). -/
def Chron.carry (c : Chron) (now dt : Nat) : Chron :=
  match c.slewEnd with
  | some e =>
    if e ≤ now + dt then Chron.add { c.add (e - now) with trim := 0, slewEnd := none } (dt - (e - now)) else c.add dt
  | none => c.add dt

/-- Carry the clock over a span of time within one step: the core cycle goes on where it stood (R443). -/
def span (s : State) (dt : Nat) : State :=
  let n := s.phase + dt
  let st := stepTicks (jobStep s)
  { s with time := s.time + dt, chron := s.chron.carry s.time dt, cycle := s.cycle + (if s.clockOn then n / st else 0),
           phase := if s.clockOn then n % st else 0 }

/-- Carry the clock to the edge at which the ceilings take effect, where it lies before a time (R443, R447). -/
def toEdge (s : State) (t : Nat) : State := if s.time < s.pow.edge ∧ s.pow.edge < t then span s (s.pow.edge - s.time) else s

/-- The ticks from now to the start of a later core cycle, at the step that stands. -/
def ticksTo (s : State) (c : Nat) : Nat := (c - s.cycle) * stepTicks (jobStep s) - s.phase

/-- Carry the clock forward to a core cycle (log entry 2). -/
def toCycle (s : State) (c : Nat) : State :=
  if c ≤ s.cycle then s
  else
    let s1 := toEdge s (s.time + ticksTo s c)
    let dt := ticksTo s1 c
    { s1 with cycle := c, phase := 0, time := s1.time + dt, chron := s1.chron.carry s1.time dt }

/-- Carry the clock forward to a time (log entry 2). -/
def toTime (s : State) (t : Nat) : State :=
  if t ≤ s.time then s
  else
    let s1 := toEdge s t
    span s1 (t - s1.time)

/-- The time at which a core cycle starts, or started. -/
def cycleTime (s : State) (c : Nat) : Nat :=
  if s.cycle < c then (toCycle s c).time
  else
    let st := stepTicks (jobStep s)
    let now := s.time - s.phase
    let n := s.cycle - c
    let since := (now - s.pow.edge) / st
    if s.pow.edge ≤ s.time ∧ since < n then s.pow.edge - (n - since) * stepTicks (stepBefore s) else now - n * st

/-- Ticks of a microsecond. -/
def usTicks : Nat := 84000
/-- Ticks of a millisecond. -/
def msTicks : Nat := 84000000

/-- The idle delay of D-SLEEP starts again (R445, R455). -/
def stir (s : State) : State := { s with pow := { s.pow with busyAt := s.time } }

/-! ### Cross-world logs (R425, R437, R469) -/

/-- Count one more repeat in the entry that a key's interval belongs to. -/
def XEnt.bump (e : XEnt) : XEnt := { e with lost := Nat.min (e.lost + 1) 255 }

/-- Whether a key's interval of 1 µs is open. -/
def keyOpen (now : Nat) (keys : SMap Nat) (key : Nat) : Bool :=
  match SMap.find keys key with
  | some t => decide (now < t + usTicks)
  | none => false

/-- The non-secure log after an event: a repeat counts in its entry, a full FIFO in its newest (R425). -/
def Keeper.logNs (k : Keeper) (now : Nat) (e : XEnt) : Keeper :=
  if keyOpen now k.keys e.key then
    let t := SMap.get 0 k.keys e.key
    { k with xlog := k.xlog.map fun x => if x.key == e.key && x.time == t then x.bump else x }
  else if k.xlog.length < 16 then { k with xlog := k.xlog ++ [e], keys := SMap.put k.keys e.key now }
  else { k with xlog := k.xlog.zipIdx.map fun (x, i) => if i + 1 == k.xlog.length then x.bump else x }

/-- The secure log after an event: a ring of 256 (R425, R469). -/
def Keeper.logSec (k : Keeper) (now : Nat) (e : XEnt) : Keeper :=
  if keyOpen now k.secKeys e.key then
    let t := SMap.get 0 k.secKeys e.key
    { k with seclog := k.seclog.map fun (i, x) => (i, if x.key == e.key && x.time == t then x.bump else x) }
  else
    { k with seclog := SMap.put k.seclog k.secHead e, secHead := (k.secHead + 1) % 256,
             secWrapped := k.secWrapped || (SMap.find k.seclog k.secHead).isSome,
             secKeys := SMap.put k.secKeys e.key now }

/-- Sources of a log entry (R437). -/
inductive XSource where
  | bar0 | bar2 | dma | tile | lend | link | keeper
  deriving DecidableEq, Repr

/-- SOURCE code (R437). -/
def XSource.code (x : XSource) : Nat :=
  match x with
  | .bar0 => 0 | .bar2 => 1 | .dma => 2 | .tile => 3 | .lend => 4 | .link => 5 | .keeper => 6

/-- Log one cross-world event in both logs, under a log key (R425). ADOPT marks an event on the entry that an ADOPT
is adopting (R429). GLB_ISTAT.XLOG is set while the FIFO holds an entry (R470). -/
def xlogEvent (s : State) (src : XSource) (write adopt : Bool) (entry addr key : Nat) : State :=
  let e : XEnt :=
    { source := src.code, write := write, adopt := adopt, entry := entry, lost := 0, addr := addr,
      sec := s.chron.sec, ns := s.chron.ns, key := key, time := s.time }
  let s1 : State := { s with keeper := (s.keeper.logNs s.time e).logSec s.time e }
  if s1.keeper.xlog.isEmpty then s1 else setIstat s1 (Block.glb.page 0) 1

/-- A cross-world access to a region entry: its key is the source with the entry (R425). -/
def xlogRegion (s : State) (src : XSource) (write : Bool) (entry addr : Nat) : State :=
  xlogEvent s src write (s.keeper.adopting == some entry) entry addr (src.code + 8 * entry)

/-- A cross-world access to a page: it logs entry 0x3F, and its key is the source with the page base (R425). -/
def xlogPage (s : State) (src : XSource) (write : Bool) (base : Nat) : State :=
  xlogEvent s src write false 0x3F base (src.code + 8 * (64 + base))

/-! ### GDDR7 (R269, R270, R274) -/

/-- First address beyond GDDR7: 1,600 GB. -/
def gddrEnd : Nat := 1600000000000
/-- Unit of the region table: 16 MiB. -/
def regionUnit : Nat := 0x1000000

/-- Region kinds (R274). -/
inductive Kind where
  | none | shelved | annex | ledger | system
  deriving DecidableEq, Repr

/-- Kind codes (R274). -/
def kindOf (n : Nat) : Kind :=
  match n with
  | 1 => .shelved | 2 => .ledger | 3 => .annex | 4 => .system | _ => .none

/-- Whether an entry covers an address. -/
def Region.covers (r : Region) (a : Nat) : Bool :=
  r.kind != 0 && decide (r.base * regionUnit ≤ a) && decide (a < (r.last + 1) * regionUnit)

/-- The region-table entry that covers an address. -/
def regionAt (s : State) (a : Nat) : Option (Nat × Region) := s.regions.find? fun p => p.2.covers a

/-- Granules are 32 B; a write of a whole granule gives it fresh check symbols (R271, R300). -/
def gddrWrite (s : State) (a : Nat) (data : List Byte) : State :=
  let full := (List.range ((data.length + 31) / 32 + 1)).filterMap fun i =>
    let g := a / 32 + i
    if a ≤ 32 * g ∧ 32 * g + 32 ≤ a + data.length then some g else none
  { s with gddr := s.gddr.write a data, ecc := full.foldl (fun e g => SMap.set Ecc.good e g .good) s.ecc }

/-- The error state of the granule that holds an address. -/
def eccAt (s : State) (a : Nat) : Ecc := SMap.get Ecc.good s.ecc (a / 32)

/-- A 32-bit little-endian word of GDDR7. -/
def gddrWord (s : State) (a : Nat) : Word := BitVec.ofNat 32 (leNat (s.gddr.read a 4))

/-! ### The circulation table (R373) -/

/-- Address of a circulation entry. -/
def circAddr (s : State) (i : Nat) : Nat := regFld s rRGS_CIRC 0 27 * 0x4000 + 64 * i

/-- Final statuses (R374). -/
def finalStatus (st : Nat) : Bool := decide (7 ≤ st ∧ st ≤ 10)

/-- Write word 0 of an entry; a final status raises the DONE event and clears the digest held for it (R373, R417, R427). -/
def setStatus (s : State) (i st reason detail : Nat) : State :=
  let w := st + (reason % 256) * 2 ^ 8 + (detail % 2 ^ 16) * 2 ^ 16
  let s1 := gddrWrite s (circAddr s i) (natLe 4 w)
  if finalStatus st then
    setIstat { s1 with keeper := { s1.keeper with digests := SMap.del s1.keeper.digests i } } (Block.rgs.page 0) 1
  else s1

/-- Write a chronicle stamp into two words of an entry (R373: RUN_AT at word 8, END_AT at word 10). -/
def stampEntry (s : State) (i word : Nat) : State :=
  gddrWrite s (circAddr s i + 4 * word) (natLe 4 s.chron.sec ++ natLe 4 s.chron.ns)

/-! ### Job faults and hazards (R391..R394) -/

/-- The number of the superstep in progress (R23). -/
def superstep (s : State) : Nat := (regRaw s rRGS_SUPERSTEP).toNat

/-- A job fault is due: the device leaves for FAULTED; of several in one cycle the lowest reason, and of one reason the
lowest site, is the one recorded (R393). Without a job in ARMED, RUN or DRAIN there is none to fault. -/
def raiseFault (s : State) (reason detail site : Nat) : State :=
  let f : FaultRec := { reason := reason, detail := detail, site := site, k := superstep s, at_ := s.cycle }
  match s.dev, s.rgs.fault with
  | .faulted, some g =>
    if g.at_ = s.cycle ∧ (reason < g.reason ∨ (reason = g.reason ∧ site < g.site)) then
      { s with rgs := { s.rgs with fault := some f } }
    else s
  | .armed, _ => { s with dev := .faulted, rgs := { s.rgs with fault := some f } }
  | .run, _ => { s with dev := .faulted, rgs := { s.rgs with fault := some f } }
  | .drain, _ => { s with dev := .faulted, rgs := { s.rgs with fault := some f } }
  | _, _ => s

/-- No site (R54). -/
def noSite : Nat := 0xFFF

/-- What the spec calls unpredictable may fault the job (R11): a free value says whether, and with what (log entry 12). -/
def mayFault (s : State) : State :=
  let w := (freeWord s).toNat
  let s1 := drew s 1
  if w % 2 = 0 then s1 else raiseFault s1 (1 + w / 2 % 26) (w / 64 % 2 ^ 16) noSite

/-- A job is in RUN or DRAIN. -/
def jobRuns (s : State) : Bool := s.dev == .run || s.dev == .drain

/-- A job has faulted in the cycle in progress: events of that cycle are still recorded (R306, R393). -/
def faultedNow (s : State) : Bool :=
  s.dev == .faulted && (match s.rgs.fault with | some f => f.at_ == s.cycle | none => false)

/-- A job runs in debug mode (R394). -/
def debugJob (s : State) : Bool := match s.rgs.job with | some j => j.debug | none => false

/-- A hazard of debug mode (R394): counted; the first is recorded and signalled, and with DEBUG_STOP faults the job. -/
def hazard (s : State) (kind site addr : Nat) : State :=
  if !debugJob s then s
  else
    let s1 := satAdd s rRGS_HAZARD 0 16 1
    if regFld s rRGS_HAZARD 31 1 = 1 then s1
    else
      let w := fld (regRaw s1 rRGS_HAZARD) 0 16 + kind * 2 ^ 16 + site * 2 ^ 19 + 2 ^ 31
      let s2 := setIstat (setReg (setReg (setReg s1 rRGS_HAZARD (BitVec.ofNat 32 w)) rRGS_HAZADDR (BitVec.ofNat 32 (addr % 2 ^ 21)))
        rRGS_HAZK (BitVec.ofNat 32 (superstep s))) (Block.rgs.page 0) 0x10
      match s.rgs.job with
      | some j => if j.debugStop then raiseFault s2 0x1A kind site else s2
      | none => s2

/-! ### Tiles -/

/-- The tile of a site. -/
def State.tile (s : State) (x : Site) : Tile := SMap.get Tile.off s.tiles x

/-- Put a tile back. -/
def State.setTile (s : State) (x : Site) (t : Tile) : State := { s with tiles := SMap.set Tile.off s.tiles x t }

/-- Change a tile. -/
def State.onTile (s : State) (x : Site) (f : Tile → Tile) : State := s.setTile x (f (s.tile x))

/-- Change every tile that is not at its reset value; `f` keeps a reset tile as it is. -/
def State.mapTiles (s : State) (f : Site → Tile → Tile) : State :=
  { s with tiles := s.tiles.foldl (fun m p => SMap.set Tile.off m p.1 (f p.1 p.2)) [] }

/-- A port at electrical idle with empty buffers. -/
def Port.idle : Port := { training := false, out := [], slot := 0, rr := 0, fails := 0, replay := [], gone := [], used := [] }

/-- A port. -/
def State.port (s : State) (p : Nat) : Port := SMap.get Port.idle s.ports p

/-- Put a port back. -/
def State.setPort (s : State) (p : Nat) (x : Port) : State := { s with ports := SMap.set Port.idle s.ports p x }

/-- The first message of a VC that waits at a port. -/
def Port.head (x : Port) (vc : Nat) : Option LinkMsg := x.out.find? fun m => m.vc == vc

/-- A port without the waiting messages of a test; of a VC whose first message goes, no flit has been sent. -/
def Port.without (x : Port) (p : LinkMsg → Bool) : Port :=
  { x with out := x.out.filter fun m => !p m,
           gone := x.gone.filter fun g => match x.head g.1 with | some m => !p m | none => false }

/-- The SEAL of a page is cleared by a write to it (R382). -/
def clearSeal (s : State) (page : Nat) : State := setReg s (page * 0x1000 + oSEAL) 0

/-- A message handed to the links (the model's own record, log entry 17). -/
def linkSend (s : State) (m : LinkMsg) : State := { s with linkOut := s.linkOut ++ [m] }

end Sys2Proof.Machine
end

