-- ==== Sys2Proof/Machine/Placement.lean ====
section
/-! DEFINITION. Sites, columns, groups and a job's placement (R17, R54 to R58, R62, R385). -/

namespace Sys2Proof.Machine

/-- Columns used per half, N (R56). -/
def gradeN (grade : Nat) : Nat :=
  match grade with
  | 0 => 32 | 1 => 31 | 2 => 30 | _ => 0

/-- Tile groups of the part (R56). -/
def groupCount (f : Fuse) : Nat := gradeN f.grade

/-- COL_SKIP of a column; an unlisted column is fused 32, and an NVH-MGR has 0x3F on every column (R55, R56). -/
def colSkip (f : Fuse) (half col : Nat) : Nat :=
  if f.grade = 3 then 0x3F else SMap.get 32 f.colSkip (32 * half + col)

/-- The usable columns of a half in ascending order (R55). -/
def usableCols (f : Fuse) (half : Nat) : List Nat := (List.range 32).filter fun c => colSkip f half c ≤ 32

/-- Site index (R54). -/
def siteIndex (half col row : Nat) : Site := half * 1056 + col * 33 + row

/-- Half, column and row of a site. -/
def siteHalf (x : Site) : Nat := x / 1056
/-- Column of a site. -/
def siteCol (x : Site) : Nat := x % 1056 / 33
/-- Row of a site. -/
def siteRow (x : Site) : Nat := x % 33

/-- The physical column of logical column c: half and column (R57). -/
def physCol (f : Fuse) (c : Nat) : Nat × Nat :=
  let n := gradeN f.grade
  if c < n then (0, (usableCols f 0).getD c 0) else (1, (usableCols f 1).getD (c - n) 0)

/-- The site of logical tile t (R57). -/
def siteOf (f : Fuse) (t : Nat) : Site :=
  let (half, col) := physCol f (t / 32)
  siteIndex half col (if t % 32 < colSkip f half col then t % 32 else t % 32 + 1)

/-- The logical tile at a site, none where the site holds none (R57, R62). -/
def logicalAt (f : Fuse) (x : Site) : Option Nat :=
  let half := siteHalf x
  let col := siteCol x
  let row := siteRow x
  let skip := colSkip f half col
  let n := gradeN f.grade
  if 32 < skip ∨ row = skip then none
  else
    let h := (usableCols f half).findIdx (· == col)
    if n ≤ h then none
    else some (32 * (half * n + h) + (if row < skip then row else row - 1))

/-- The group of a logical tile (R57). -/
def groupOf (t : Nat) : Nat := t / 64

/-- The sites of a device group, in logical order. -/
def groupSites (f : Fuse) (g : Nat) : List Site := (List.range 64).map fun i => siteOf f (64 * g + i)

/-- The seam group of R58. -/
def isSeamGroup (f : Fuse) (g : Nat) : Bool := f.grade == 1 && g == 15

/-- Which halves a run of device groups reaches: west, east. -/
def halvesOf (f : Fuse) (b g : Nat) : Bool × Bool :=
  let n := gradeN f.grade
  (decide (2 * b < n), decide (n < 2 * (b + g)))

/-- The site that holds folio tile n of the running job, none outside the placement (R180, R385). -/
def placedSite (s : State) (n : Nat) : Option Site :=
  match s.rgs.job with
  | some j => if n < 64 * j.groups then some (siteOf s.fuse (64 * j.base + n)) else none
  | none => none

/-- The sites of the running job, in folio tile order. -/
def jobSites (s : State) : List Site :=
  match s.rgs.job with
  | some j => (List.range (64 * j.groups)).map fun n => siteOf s.fuse (64 * j.base + n)
  | none => []

/-- The folio tile at a site. -/
def folioTile (s : State) (x : Site) : Option Nat :=
  match s.rgs.job, logicalAt s.fuse x with
  | some j, some t => if 64 * j.base ≤ t ∧ t < 64 * (j.base + j.groups) then some (t - 64 * j.base) else none
  | _, _ => none

/-- Whether a site belongs to the running job. -/
def inJob (s : State) (x : Site) : Bool := (folioTile s x).isSome

end Sys2Proof.Machine
end

