-- ==== Sys2Proof/Machine/Numbers.lean ====
section
/-! DEFINITION. Element formats, exact values, rounding points and census classes (R92..R115).

A value is exact: ±mant × 2^exp, with `sticky` marking a quotient or root that lies strictly between mant and
mant + 1 units. Every rounding point of the machine is `roundTo`. -/

namespace Sys2Proof.Machine

/-- An exact value, an infinity or a NaN. -/
inductive Num where
  | nan
  | inf (neg : Bool)
  | fin (neg : Bool) (mant : Nat) (exp : Int) (sticky : Bool)
  deriving DecidableEq, Repr

/-- +0. -/
def Num.zero : Num := .fin false 0 0 false

/-- An integer as a value. -/
def Num.ofInt (x : Int) : Num := .fin (decide (x < 0)) x.natAbs 0 false

/-- Format codes (R92). -/
def fFP32 : Nat := 0x0
/-- TF32. -/
def fTF32 : Nat := 0x1
/-- BF16. -/
def fBF16 : Nat := 0x2
/-- FP16. -/
def fFP16 : Nat := 0x3
/-- FP8 E4M3. -/
def fE4M3 : Nat := 0x4
/-- FP8 E5M2. -/
def fE5M2 : Nat := 0x5
/-- INT8. -/
def fINT8 : Nat := 0xB
/-- FP64. -/
def fFP64 : Nat := 0xC
/-- INT64. -/
def fINT64 : Nat := 0xD

/-- Storage bits of an element (R92). -/
def fmtBits (f : Nat) : Nat :=
  match f with
  | 0x0 => 32 | 0x1 => 32 | 0x2 => 16 | 0x3 => 16 | 0x4 => 8 | 0x5 => 8 | 0x6 => 8 | 0x7 => 8 | 0x8 => 6 | 0x9 => 6
  | 0xA => 4 | 0xB => 8 | 0xC => 64 | 0xD => 64 | _ => 8

/-- The MX formats (R100). -/
def isMX (f : Nat) : Bool := 0x6 ≤ f && f ≤ 0xA
/-- The integer formats (R102). -/
def isIntFmt (f : Nat) : Bool := f == 0xB || f == 0xD
/-- The slice formats (R66). -/
def isSlice (f : Nat) : Bool := f == 0xE || f == 0xF

/-- Exponent bits, fraction bits and bias of a floating format's element (R94). -/
def fmtEMB (f : Nat) : Nat × Nat × Int :=
  match f with
  | 0x0 => (8, 23, 127) | 0x1 => (8, 10, 127) | 0x2 => (8, 7, 127) | 0x3 => (5, 10, 15)
  | 0x4 => (4, 3, 7) | 0x6 => (4, 3, 7) | 0x5 => (5, 2, 15) | 0x7 => (5, 2, 15)
  | 0x8 => (3, 2, 3) | 0x9 => (2, 3, 1) | 0xA => (2, 1, 1) | _ => (11, 52, 1023)

/-- Formats whose all-ones exponent is ∞ or NaN (R94). -/
def fmtIeee (f : Nat) : Bool := !(f == 0x4 || f == 0x6 || f == 0x8 || f == 0x9 || f == 0xA)
/-- Formats with the one NaN S.1111.111 (R94). -/
def fmtE4M3 (f : Nat) : Bool := f == 0x4 || f == 0x6

/-- The value of an element's bits, block scale apart (R94, R98, R102). -/
def decodeNum (f : Nat) (x : Nat) : Num :=
  if f == 0xB then Num.ofInt (signed 8 x)
  else if f == 0xD then Num.ofInt (signed 64 x)
  else
    let (eb, mb, bias) := fmtEMB f
    let y := if f == 0x1 then (if (x / 2 ^ 23) % 256 == 255 then (x / 2 ^ 31 % 2) * 2 ^ 18 + 255 * 2 ^ 10 + (if x % 2 ^ 23 == 0 then 0 else 512)
                               else x / 2 ^ 13 % 2 ^ 19) else x
    let s := (y / 2 ^ (eb + mb)) % 2 == 1
    let e := (y / 2 ^ mb) % 2 ^ eb
    let m := y % 2 ^ mb
    if fmtIeee f && e == 2 ^ eb - 1 then (if m == 0 then .inf s else .nan)
    else if fmtE4M3 f && e == 15 && m == 7 then .nan
    else if e == 0 then .fin s m (1 - bias - mb) false
    else .fin s (2 ^ mb + m) (Int.ofNat e - bias - mb) false

/-- The NaN written (R95, R96); formats without one write +0 (R107). -/
def nanBits (f : Nat) : Nat :=
  match f with
  | 0x0 => 0x7FC00000 | 0x1 => 0x7FC00000 | 0x2 => 0x7FC0 | 0x3 => 0x7E00 | 0x4 => 0x7F | 0x6 => 0x7F | 0x5 => 0x7E
  | 0x7 => 0x7E | 0xC => 0x7FF8000000000000 | _ => 0

/-- The sign bit of a format's encoding. -/
def signBit (f : Nat) (neg : Bool) : Nat := if neg then 2 ^ (fmtBits f - 1) else 0

/-- ±∞ as written (R95). -/
def infBits (f : Nat) (neg : Bool) : Nat :=
  signBit f neg + (match f with
    | 0x0 => 0x7F800000 | 0x1 => 0x7F800000 | 0x2 => 0x7F80 | 0x3 => 0x7C00 | 0x5 => 0x7C | 0x7 => 0x7C
    | 0xC => 0x7FF0000000000000 | _ => 0)

/-- ±largest finite as written (R95). -/
def maxBits (f : Nat) (neg : Bool) : Nat :=
  signBit f neg + (match f with
    | 0x0 => 0x7F7FFFFF | 0x1 => 0x7F7FE000 | 0x2 => 0x7F7F | 0x3 => 0x7BFF | 0x4 => 0x7E | 0x6 => 0x7E | 0x5 => 0x7B
    | 0x7 => 0x7B | 0x8 => 0x1F | 0x9 => 0x1F | 0xA => 0x7 | 0xC => 0x7FEFFFFFFFFFFFFF | _ => 0)

/-- Rounding modes (R103). -/
def rmRNE : Nat := 0

/-- Whether a magnitude hi + rem / 2^shift (and a sticky rest) rounds up to hi + 1 (R103, R104). -/
def roundsUp (rm : Nat) (draw : Nat) (neg : Bool) (hi rem shift : Nat) (sticky : Bool) : Bool :=
  match rm with
  | 0 => decide (2 ^ shift < 2 * rem) || (decide (2 * rem = 2 ^ shift) && (sticky || hi % 2 == 1))
  | 1 => false
  | 2 => neg && (rem != 0 || sticky)
  | 3 => !neg && (rem != 0 || sticky)
  | _ => decide (65536 ≤ rem * 65536 / 2 ^ shift + draw % 65536)

/-- A magnitude mant × 2^exp rounded to a multiple of 2^q: the multiple. -/
def quantize (rm draw : Nat) (neg : Bool) (mant : Nat) (exp : Int) (sticky : Bool) (q : Int) : Nat :=
  if q ≤ exp then mant * 2 ^ (exp - q).toNat
  else
    let sh := (q - exp).toNat
    let hi := mant / 2 ^ sh
    if roundsUp rm draw neg hi (mant % 2 ^ sh) sh sticky then hi + 1 else hi

/-- Census classes as offsets of R330: 0 none, 1 NAN, 2 OVF, 3 FLUSH, 4 SUB (R111). -/
abbrev Class := Nat

/-- A finite magnitude of a floating format rounded with an unbounded exponent: the significand r and quantum q of r × 2^q. -/
def roundMag (f rm draw : Nat) (neg : Bool) (mant : Nat) (exp : Int) (sticky : Bool) : Nat × Int :=
  let (_, mb, bias) := fmtEMB f
  let top := Int.ofNat (log2 mant) + exp
  let q := max top (1 - bias) - Int.ofNat mb
  (quantize rm draw neg mant exp sticky q, q)

/-- Whether r × 2^q lies above the format's largest finite value (R106). -/
def aboveMax (f : Nat) (r : Nat) (q : Int) : Bool :=
  match decodeNum f (maxBits f false) with
  | .fin _ m e _ => if e ≤ q then decide (m < r * 2 ^ (q - e).toNat) else decide (m * 2 ^ (e - q).toNat < r)
  | _ => false

/-- The overflow outcome of R106. -/
def overflowBits (f rm : Nat) (sat force : Bool) (neg : Bool) : Nat :=
  if force || !fmtIeee f || sat then maxBits f neg
  else match rm with
    | 1 => maxBits f neg
    | 2 => if neg then infBits f neg else maxBits f neg
    | 3 => if neg then maxBits f neg else infBits f neg
    | _ => infBits f neg

/-- Encode r × 2^q, which the format holds. TF32 sits in the top bits of its container (R98). -/
def encodeFin (f : Nat) (neg : Bool) (r : Nat) (q : Int) : Nat :=
  let (_, mb, bias) := fmtEMB f
  let top := Int.ofNat (log2 r) + q
  let sh := if f == 0x1 then 2 ^ 13 else 1
  if r == 0 then signBit f neg
  else if top < 1 - bias then signBit f neg + r * sh
  else
    let frac := if log2 r ≤ mb then r * 2 ^ (mb - log2 r) - 2 ^ mb else r / 2 ^ (log2 r - mb) - 2 ^ mb
    signBit f neg + ((top + bias).toNat * 2 ^ mb + frac) * sh

/-- A value rounded to an integer, unbounded (R108). -/
def roundInt (rm draw : Nat) (neg : Bool) (mant : Nat) (exp : Int) (sticky : Bool) : Int :=
  let r := quantize rm draw neg mant exp sticky 0
  if neg then - Int.ofNat r else Int.ofNat r

/-- A value rounded to INT8 or INT64, saturated, with its class (R106..R108, R111). -/
def roundToInt (len rm draw : Nat) (x : Num) : Nat × Class :=
  let lo : Int := -(2 ^ (len - 1))
  let hi : Int := 2 ^ (len - 1) - 1
  match x with
  | .nan => (0, 1)
  | .inf s => (wrap len (if s then lo else hi), 2)
  | .fin s m e st =>
    let r := roundInt rm draw s m e st
    if r < lo then (wrap len lo, 2) else if hi < r then (wrap len hi, 2)
    else (wrap len r, if r == 0 && (m != 0 || st) then 3 else 0)

/-- The rounding point: a value written in a format under RM and SAT, with its census class (R103..R111). `force` is the
last case of R106; `draw` is the SR draw of R104. MX elements are rounded as their element format. -/
def roundTo (f rm : Nat) (sat force : Bool) (draw : Nat) (x : Num) : Nat × Class :=
  if f == 0xB then roundToInt 8 rm draw x
  else if f == 0xD then roundToInt 64 rm draw x
  else match x with
    | .nan => (nanBits f, 1)
    | .inf s => if fmtIeee f then (infBits f s, 2) else (maxBits f s, 2)
    | .fin s m e st =>
      if m == 0 && !st then (signBit f s, 0)
      else
        let (r, q) := roundMag f rm draw s m e st
        if aboveMax f r q then (overflowBits f rm sat force s, 2)
        else if r == 0 then (signBit f s, 3)
        else
          let (_, _, bias) := fmtEMB f
          (encodeFin f s r q, if Int.ofNat (log2 r) + q < 1 - bias then 4 else 0)

/-- Round to nearest even without saturation: the arithmetic of vector, ledger and semiring units (R105). -/
def rne (f : Nat) (x : Num) : Nat × Class := roundTo f 0 false false 0 x

/-- The FP32 value nearest to a value, as a value (R89, R158). -/
def rne32 (x : Num) : Num := decodeNum 0 (rne 0 x).1

/-! ### Exact arithmetic -/

/-- Signed mantissa at a given exponent no larger than the value's own. -/
def Num.intAt (neg : Bool) (mant : Nat) (exp q : Int) : Int :=
  let v := Int.ofNat (mant * 2 ^ (exp - q).toNat)
  if neg then -v else v

/-- Negation. -/
def Num.neg : Num → Num
  | .nan => .nan
  | .inf s => .inf (!s)
  | .fin s m e st => .fin (!s) m e st

/-- Magnitude. -/
def Num.abs : Num → Num
  | .nan => .nan
  | .inf _ => .inf false
  | .fin _ m e st => .fin false m e st

/-- Multiply by 2^k: block scales (R100) and slice exponents (R129). -/
def Num.scale (k : Int) : Num → Num
  | .fin s m e st => .fin s m (e + k) st
  | x => x

/-- Exact sum; an exact zero is +0 unless both operands are −0 (R97). -/
def Num.add : Num → Num → Num
  | .nan, _ => .nan
  | _, .nan => .nan
  | .inf s, .inf t => if s == t then .inf s else .nan
  | .inf s, .fin .. => .inf s
  | .fin .., .inf t => .inf t
  | .fin s m e st, .fin t n d su =>
    let q := min e d
    let x := Num.intAt s m e q + Num.intAt t n d q
    if x == 0 then .fin (s && t) 0 0 (st || su) else .fin (decide (x < 0)) x.natAbs q (st || su)

/-- Difference. -/
def Num.sub (x y : Num) : Num := Num.add x (Num.neg y)

/-- Exact product; 0 × ∞ is NaN. -/
def Num.mul : Num → Num → Num
  | .nan, _ => .nan
  | _, .nan => .nan
  | .inf s, .inf t => .inf (s != t)
  | .inf s, .fin t n _ su => if n == 0 && !su then .nan else .inf (s != t)
  | .fin s m _ st, .inf t => if m == 0 && !st then .nan else .inf (s != t)
  | .fin s m e _, .fin t n d _ => .fin (s != t) (m * n) (e + d) false

/-- Quotient to 128 bits and a sticky rest, with the special operands of R151. -/
def Num.div : Num → Num → Num
  | .nan, _ => .nan
  | _, .nan => .nan
  | .inf _, .inf _ => .nan
  | .inf s, .fin t _ _ _ => .inf (s != t)
  | .fin s _ _ _, .inf t => .fin (s != t) 0 0 false
  | .fin s m e _, .fin t n d _ =>
    if n == 0 then (if m == 0 then .nan else .inf (s != t))
    else
      let k := 128 + log2 n
      .fin (s != t) (m * 2 ^ k / n) (e - d - Int.ofNat k) (m * 2 ^ k % n != 0)

/-- floor(sqrt n) by binary digits, from digit `i` down. -/
def isqrtFrom : Nat → Nat → Nat → Nat
  | 0, _, r => r
  | i + 1, n, r => if (r + 2 ^ i) * (r + 2 ^ i) ≤ n then isqrtFrom i n (r + 2 ^ i) else isqrtFrom i n r

/-- floor(sqrt n). -/
def isqrt (n : Nat) : Nat := isqrtFrom (log2 n / 2 + 2) n 0

/-- Square root to at least 128 bits and a sticky rest, with the special operands of R151. -/
def Num.sqrt : Num → Num
  | .nan => .nan
  | .inf s => if s then .nan else .inf false
  | .fin s m e _ =>
    if m == 0 then .fin s 0 0 false
    else if s then .nan
    else
      let k := 256 + (e % 2).toNat
      let n := m * 2 ^ k
      let r := isqrt n
      .fin false r ((e - Int.ofNat k) / 2) (r * r != n)

/-- Order of two finite or infinite values; none if either is NaN. −0 equals +0. -/
def Num.cmp : Num → Num → Option Ordering
  | .nan, _ => none
  | _, .nan => none
  | .inf s, .inf t => some (if s == t then .eq else if s then .lt else .gt)
  | .inf s, .fin .. => some (if s then .lt else .gt)
  | .fin .., .inf t => some (if t then .gt else .lt)
  | .fin s m e _, .fin t n d _ =>
    let q := min e d
    some (compare (Num.intAt s m e q) (Num.intAt t n d q))

/-- Whether a value is a zero, and its sign bit. -/
def Num.signOf : Num → Bool
  | .nan => false
  | .inf s => s
  | .fin s _ _ _ => s

/-- Minimum or maximum: NaN if either is NaN, −0 before +0 (R90, R148, R155). -/
def Num.pick (wantMax : Bool) (x y : Num) : Num :=
  match Num.cmp x y with
  | none => .nan
  | some .lt => if wantMax then y else x
  | some .gt => if wantMax then x else y
  | some .eq => if Num.signOf x == wantMax then y else x

/-- Whether a value is finite and non-zero. -/
def Num.isNonzeroFin : Num → Bool
  | .fin _ m _ st => m != 0 || st
  | _ => false

/-- floor(log2 |x|) of a finite non-zero value. -/
def Num.log : Num → Int
  | .fin _ m e _ => Int.ofNat (log2 m) + e
  | _ => 0

/-! ### Block scales (R109) -/

/-- The emax of R109 for an MX format. -/
def mxEmax (f : Nat) : Int :=
  match f with
  | 0x6 => 8 | 0x7 => 15 | 0x8 => 4 | _ => 2

/-- The BLOCKMAX scale of a block. -/
def blockMax (f : Nat) (xs : List Num) : Nat :=
  match (xs.filter Num.isNonzeroFin).map Num.log with
  | [] => 127
  | l :: ls => (max 0 (min 254 (ls.foldl max l - mxEmax f + 127))).toNat

/-- The value of an element under its block scale; a scale of 0xFF reads NaN (R100, R101). -/
def mxValue (x : Num) (scale : Nat) : Num := if scale == 255 then .nan else Num.scale (Int.ofNat scale - 127) x

/-! ### Slice planes (R112, R113) -/

/-- The computed exponent of a slice group (R112). -/
def sliceExp (xs : List Num) : Int :=
  match (xs.filter Num.isNonzeroFin).map Num.log with
  | [] => 0
  | l :: ls => ls.foldl max l + 2

/-- The balanced digits of Y from the lowest plane up; the list runs from plane 0 down to the last (R113). -/
def sliceDigits : Nat → Int → List Nat
  | 0, _ => []
  | n + 1, y =>
    let b := y % 256
    let d := if b < 128 then b else b - 256
    sliceDigits n ((y - d) / 256) ++ [wrap 8 d]

/-- One element's planes and class: 7 planes with 55 fraction bits or 6 with 47; an element of which |y| exceeds 1/2 is written as
±2⁵⁴ or ±2⁴⁶ and counts OVF (R113..R115). -/
def sliceElem (planes : Nat) (e : Int) (x : Num) : List Nat × Class :=
  let fb : Int := if planes == 7 then 55 else 47
  let lim : Int := 2 ^ (if planes == 7 then 54 else 46)
  match x with
  | .nan => (List.replicate planes 0, 1)
  | .inf _ => (List.replicate planes 0, 2)
  | .fin s m ex st =>
    let y := roundInt 0 0 s m (ex - e + fb) st
    let tooBig := Num.cmp (.fin false m (ex - e) st) (.fin false 1 (-1) false) == some .gt
    if tooBig then (sliceDigits planes (if s then -lim else lim), 2)
    else (sliceDigits planes y, if y == 0 && m != 0 then 3 else 0)

/-- The exponent record of a group (R115). -/
def sliceRecord (e : Int) (xs : List Num) : Nat :=
  wrap 12 e + (if xs.any fun x => match x with | .fin .. => false | _ => true then 2 ^ 15 else 0)

end Sys2Proof.Machine
end

