-- ==== Sys2Proof/Machine/Operands.lean ====
section
/-! DEFINITION. The operand forms: tile memory and registers (R42, R43, R197), address-generator descriptors and their
addresses (R68..R71), feed periods (R223..R225), vector operands (R93, R141). -/

namespace Sys2Proof.Machine

/-! ### Tile memory and registers -/

/-- First address beyond tile memory (R43). -/
def tileTop : Nat := 0x1C0000

/-- A byte of tile memory: 21-bit addresses, 0 above the top (R197). -/
def Tile.byteAt (t : Tile) (a : Nat) : Byte :=
  if a % 2 ^ 21 < tileTop then t.mem.byte (a % 2 ^ 21) else 0

/-- Bytes of tile memory. -/
def Tile.readMem (t : Tile) (a n : Nat) : List Byte := (List.range n).map fun i => t.byteAt (a + i)

/-- A memory with bytes written at 21-bit addresses; above the top they are discarded (R197). -/
def memPut (m : Memory) (a : Nat) : List Byte → Memory
  | [] => m
  | b :: bs => memPut (if a % 2 ^ 21 < tileTop then m.setByte (a % 2 ^ 21) b else m) (a + 1) bs

/-- A word of tile memory. -/
def Tile.wordOf (t : Tile) (a : Nat) : Word := BitVec.ofNat 32 (leNat (t.readMem a 4))

/-- A scalar register; s0 reads 0 (R42). -/
def Tile.sreg (t : Tile) (r : Nat) : Word := if r = 0 then 0 else SMap.get 0 t.sregs r

/-- An address register. -/
def Tile.areg (t : Tile) (r : Nat) : Word := SMap.get 0 t.aregs r

/-- Write a scalar register; writes to s0 are discarded (R42). -/
def Tile.setS (t : Tile) (r : Nat) (w : Word) : Tile :=
  if r = 0 then t else { t with sregs := SMap.set 0 t.sregs r w }

/-- Write an address register. -/
def Tile.setA (t : Tile) (r : Nat) (w : Word) : Tile := { t with aregs := SMap.set 0 t.aregs r w }

/-- The granule of an address (R219). -/
def granOf (a : Nat) : Nat := a % 2 ^ 21 / 32

/-- The granules of an address range. -/
def rangeGrans (a n : Nat) : List Nat := (List.range ((a % 32 + n + 31) / 32)).map fun i => granOf (a + 32 * i)

/-- Bytes from the granules that a unit holds. -/
def heldBytes (held : List (Nat × List Byte)) (a n : Nat) : List Byte :=
  (List.range n).map fun i =>
    match held.find? fun h => h.1 == granOf (a + i) with
    | some h => h.2.getD ((a + i) % 32) 0
    | none => 0

/-! ### Descriptors (R68) -/

/-- One dimension of a descriptor. -/
structure Dim where
  count : Nat
  lane : Bool
  axis : Nat
  coef : Int
  stride : Int
  deriving DecidableEq, Repr

/-- One axis of a descriptor. -/
structure Axis where
  extent : Nat
  origin : Int
  astride : Int
  lo : Nat
  hi : Nat
  mode : Nat
  deriving DecidableEq, Repr

/-- A descriptor; `axes` is empty for MMA, which treats every AXIS as 0 (R191). `bad` marks R68's unpredictable ones. -/
structure Desc where
  base : Nat
  scaleBase : Nat
  scaleStride : Int
  padConst : Nat
  dims : List Dim
  axes : List Axis
  bad : Bool
  deriving DecidableEq, Repr

/-- Decode the 128 bytes of a descriptor; `useAxes` is false for MMA, which ignores words 16 to 27 (R70). Bits [31:24] of words
17 + 4(a − 1), which R68's table neither assigns nor lists as reserved, count as reserved (DESIGN CHOICE, log entry 103). -/
def decodeDesc (useAxes : Bool) (bs : List Byte) : Desc :=
  let ws := leWords 32 bs
  let w := wordAt ws
  let nd := fld (w 0) 21 3
  let dims := (List.range (Nat.min (nd + 1) 6)).map fun d =>
    { count := fld (w (4 + 2 * d)) 0 16 + 1, lane := bit (w (4 + 2 * d)) 16,
      axis := if useAxes then fld (w (4 + 2 * d)) 17 2 else 0, coef := sfld (w (4 + 2 * d)) 19 4,
      stride := sfld (w (5 + 2 * d)) 0 24 : Dim }
  let axes := if useAxes then (List.range 3).map fun a =>
    { extent := fld (w (16 + 4 * a)) 0 16, origin := sfld (w (16 + 4 * a)) 16 16, astride := sfld (w (17 + 4 * a)) 0 24,
      lo := fld (w (18 + 4 * a)) 0 8, hi := fld (w (18 + 4 * a)) 8 8, mode := fld (w (18 + 4 * a)) 16 2 : Axis } else []
  let resv := fld (w 0) 24 8 != 0 || fld (w 1) 21 11 != 0 || fld (w 2) 24 8 != 0
    || (List.range (nd + 1)).any (fun d => fld (w (4 + 2 * d)) 23 9 != 0 || fld (w (5 + 2 * d)) 24 8 != 0)
    || (useAxes && (List.range 3).any fun a =>
        fld (w (17 + 4 * a)) 24 8 != 0 || fld (w (18 + 4 * a)) 18 14 != 0 || w (19 + 4 * a) != 0)
    || (List.range 4).any fun k => w (28 + k) != 0
  { base := fld (w 0) 0 21, scaleBase := fld (w 1) 0 21, scaleStride := sfld (w 2) 0 24, padConst := (w 3).toNat,
    dims := dims, axes := axes, bad := decide (6 ≤ nd) || resv }

/-- Split a number over dimensions, lowest innermost: the indices of the dimensions that `pick` selects, 0 for the others. -/
def splitIndex (pick : Dim → Bool) : Nat → List Dim → List Nat
  | _, [] => []
  | n, d :: ds => if pick d then n % d.count :: splitIndex pick (n / d.count) ds else 0 :: splitIndex pick n ds

/-- The product of the counts of the dimensions that `pick` selects. -/
def prodCount (pick : Dim → Bool) (ds : List Dim) : Nat := (ds.filter pick).foldl (fun a d => a * d.count) 1

/-- Where a lane word comes from (R70). -/
inductive LaneSrc where
  | zero | const | mem (addr : Nat)
  deriving DecidableEq, Repr

/-- One axis's part of an address: coordinate, and whether it falls to ZERO or CONST padding (R70, R87). -/
def axisStep (a : Axis) (x : Int) : Int × Option Bool :=
  let e := Int.ofNat a.extent
  let lo : Int := if a.mode = 3 then 0 else - Int.ofNat a.lo
  let hi : Int := if a.mode = 3 then e else e + Int.ofNat a.hi
  if x < lo || hi ≤ x then
    match a.mode with
    | 0 => (x, some true)
    | 1 => (x, some false)
    | 2 => (max lo (min x (hi - 1)), none)
    | _ => (((x % e) + e) % e, none)
  else (x, none)

/-- The address or padding of given indices (R70). A dimension of an axis with EXTENT 0 adds nothing (R191). -/
def descAddr (d : Desc) (idx : List Nat) : LaneSrc :=
  let plain := (d.dims.zip idx).foldl (fun (s : Int) (p : Dim × Nat) =>
    if p.1.axis = 0 then s + Int.ofNat p.2 * p.1.stride else s) (Int.ofNat d.base)
  let (addr, pad) := d.axes.zipIdx.foldl (fun (acc : Int × Option Bool) (p : Axis × Nat) =>
    if p.1.extent = 0 then acc
    else
      let x := (d.dims.zip idx).foldl (fun (s : Int) (q : Dim × Nat) =>
        if q.1.axis = p.2 + 1 then s + q.1.coef * Int.ofNat q.2 else s) p.1.origin
      let (y, pd) := axisStep p.1 x
      (acc.1 + y * p.1.astride,
       match pd with
       | some true => some true
       | some false => if acc.2.isNone then some false else acc.2
       | none => acc.2)) (plain, none)
  match pad with
  | some true => .zero
  | some false => .const
  | none => .mem (addr21 addr)

/-- Bytes of a lane word (R64). -/
def laneBytes (f : Nat) : Nat := if f = 0x8 ∨ f = 0x9 then 3 else 4

/-- Dot width (R64). -/
def dotWidth (f : Nat) : Nat :=
  match f with
  | 0xA => 8 | 0x2 => 2 | 0x3 => 2 | 0x1 => 1 | 0x0 => 1 | _ => 4

/-- Slices per MX block (R71). -/
def blockSlices (f : Nat) : Nat := if f = 0xA then 4 else 8

/-- The dimensions a slice-mode instruction enumerates: all but the outermost, its plane dimension (R66). The passes are the mode's fixed
list, whatever COUNT the plane dimension holds: no rule says what another COUNT does (DESIGN CHOICE, log entry 115). -/
def slicedDims (f : Nat) (ds : List Dim) : List Dim := if isSlice f then ds.dropLast else ds

/-- S of a descriptor (R69). -/
def sliceCount (f : Nat) (d : Desc) : Nat := prodCount (fun x => !x.lane) (slicedDims f d.dims)

/-- The lane product (R69). -/
def laneCount (f : Nat) (d : Desc) : Nat := prodCount (fun x => x.lane) (slicedDims f d.dims)

/-- The indices of lane L and slice n in plane p. -/
def laneIndex (f : Nat) (d : Desc) (plane lane n : Nat) : List Nat :=
  let ds := slicedDims f d.dims
  let a := splitIndex (fun x => x.lane) lane ds
  let b := splitIndex (fun x => !x.lane) n ds
  (a.zip b).map (fun p => p.1 + p.2) ++ (if isSlice f then [plane] else [])

/-- Where the lane word of lane L, slice n, plane p comes from. -/
def laneSrc (f : Nat) (d : Desc) (plane lane n : Nat) : LaneSrc := descAddr d (laneIndex f d plane lane n)

/-- The address of the block scale of lane L, block b (R71). -/
def scaleAddr (d : Desc) (lane b : Nat) : Nat :=
  addr21 (Int.ofNat d.scaleBase + Int.ofNat b * d.scaleStride + Int.ofNat lane)

/-! ### Slice passes (R66) -/

/-- The passes of a slice mode in order: ascending p + q, then ascending p. -/
def slicePasses (f : Nat) : List (Nat × Nat) :=
  if isSlice f then
    (List.range (if f = 0xE then 7 else 6)).flatMap fun s => (List.range (s + 1)).map fun p => (p, s - p)
  else [(0, 0)]

/-! ### Feed periods (R223..R225) -/

/-- Block mode of a generator (R223): MMA only, so every axis counts as 0. -/
def blockMode (mma : Bool) (f : Nat) (d : Desc) : Bool :=
  mma && laneBytes f == 4
    && (match d.dims.find? (fun x => !x.lane) with
        | some x => x.stride == 4 && x.count % 8 == 0
        | none => false)
    && d.base % 32 == 0 && d.dims.all (fun x => !x.lane || x.stride % 32 == 0)

/-- The granules that one generator reads for slices n0 to n0 + k − 1 of a plane, scale rows of the blocks that begin there
included (R224). -/
def periodGrans (f : Nat) (d : Desc) (plane n0 k : Nat) : List Nat :=
  let lanes := List.range (Nat.min 32 (laneCount f d))
  let words := (List.range k).flatMap fun i => lanes.flatMap fun l =>
    match laneSrc f d plane l (n0 + i) with
    | .mem a => (List.range (laneBytes f)).map fun j => granOf (a + j)
    | _ => []
  let scales := if isMX f then
      (List.range k).flatMap fun i =>
        if (n0 + i) % blockSlices f = 0 then lanes.map fun l => granOf (scaleAddr d l ((n0 + i) / blockSlices f)) else []
    else []
  words ++ scales

/-- The largest number of distinct granules in one bank (R219, R224). A granule at or above 0x1C_0000, which R197 reads as 0 and R219 gives
no bank, counts in the bank of its number modulo 14 (DESIGN CHOICE, log entry 117). -/
def maxPerBank (gs : List Nat) : Nat :=
  let ds := gs.eraseDups
  (List.range 14).foldl (fun m b => Nat.max m (ds.countP fun g => g % 14 == b)) 0

/-- The place of a granule among the distinct granules of its bank, ascending: its read cycle in the period (R224). -/
def bankRank (gs : List Nat) (g : Nat) : Nat := gs.eraseDups.countP fun h => h % 14 == g % 14 && decide (h < g)

/-- The distinct granules of a period, both generators together. -/
def feedGrans (fa fb : Nat) (da db : Desc) (p q n0 k : Nat) : List Nat :=
  (periodGrans fa da p n0 k ++ periodGrans fb db q n0 k).eraseDups

/-- The periods of one pass, from its first cycle, and the cycle after it; `len` is the period length P. -/
def passPeriods (fa fb : Nat) (da db : Desc) (len s : Nat) (pq : Nat × Nat) (at_ : Nat) : List Period × Nat :=
  (List.range (ceilDiv s len)).foldl (fun (acc : List Period × Nat) m =>
    let k := Nat.min len (s - m * len)
    let c := Nat.max k (maxPerBank (feedGrans fa fb da db pq.1 pq.2 (m * len) k))
    (acc.1 ++ [{ p := pq.1, q := pq.2, n0 := m * len, k := k, start := acc.2, cost := c }], acc.2 + c)) ([], at_)

/-- The periods of a round, and S′ (R225). -/
def roundPeriods (mma : Bool) (fa fb : Nat) (da db : Desc) : List Period × Nat :=
  let len := if blockMode mma fa da || blockMode mma fb db then 8 else 1
  (slicePasses fa).foldl (fun (acc : List Period × Nat) pq =>
    let (ps, n) := passPeriods fa fb da db len (sliceCount fa da) pq acc.2
    (acc.1 ++ ps, n)) ([], 0)

/-! ### Elements packed in bytes (R93) -/

/-- Element k of a byte string in a format of the given width. -/
def elemBits (w : Nat) (bs : List Byte) (k : Nat) : Nat :=
  let lo := k * w
  (leNat ((bs.drop (lo / 8)).take (w / 8 + 2)) / 2 ^ (lo % 8)) % 2 ^ w

/-- Elements packed into bytes from bit 0 up. -/
def packElems (w : Nat) (xs : List Nat) : List Byte :=
  natLe ((xs.length * w + 7) / 8) (xs.zipIdx.foldl (fun a p => a + (p.1 % 2 ^ w) * 2 ^ (p.2 * w)) 0)

/-! ### Vector operands (R141) -/

/-- A word of a vector register; words are keyed by 4,096 × register + word. -/
def Tile.vword (t : Tile) (r w : Nat) : Word := SMap.get 0 t.vregs (4096 * r + w)

/-- Element k of an operand of the given width at word 64 × ofs of register r. -/
def Tile.velem (t : Tile) (width r ofs k : Nat) : Nat :=
  let lo := 2048 * ofs + k * width
  if width = 64 then (t.vword r (lo / 32)).toNat + (t.vword r (lo / 32 + 1)).toNat * 2 ^ 32
  else
    let x := (t.vword r (lo / 32)).toNat + (t.vword r (lo / 32 + 1)).toNat * 2 ^ 32
    (x / 2 ^ (lo % 32)) % 2 ^ width

/-- Write `width` bits at bit `lo` of a register. -/
def Tile.vput (t : Tile) (r lo width v : Nat) : Tile :=
  if width = 64 then
    { t with vregs := SMap.set 0 (SMap.set 0 t.vregs (4096 * r + lo / 32) (BitVec.ofNat 32 v))
                        (4096 * r + lo / 32 + 1) (BitVec.ofNat 32 (v / 2 ^ 32)) }
  else
    let k := 4096 * r + lo / 32
    let x := (SMap.get 0 t.vregs k).toNat + (SMap.get 0 t.vregs (k + 1)).toNat * 2 ^ 32
    let sh := lo % 32
    let y := x - ((x / 2 ^ sh) % 2 ^ width) * 2 ^ sh + (v % 2 ^ width) * 2 ^ sh
    let m := SMap.set 0 t.vregs k (BitVec.ofNat 32 y)
    { t with vregs := if 32 < sh + width then SMap.set 0 m (k + 1) (BitVec.ofNat 32 (y / 2 ^ 32)) else m }

/-- Whether n elements of a width from word 64 × ofs lie within words 0 to 4,095 (R141). -/
def operandFits (width ofs n : Nat) : Bool := decide (64 * ofs + (n * width + 31) / 32 ≤ 4096)

end Sys2Proof.Machine
end

