-- ==== Sys2Proof/Machine/Accum.lean ====
section
/-! DEFINITION. Accumulator elements: the window, integer, slice and extremum arithmetic of one slice (R89, R90, R116 to
R128, R133), and what a drain makes of an element (R121, R128, R134, R135). -/

namespace Sys2Proof.Machine

/-- An element after an ACC = 0 reset (R119). -/
def Elem.zero : Elem :=
  { v := 0, a := 0, c := 0, z := true, pinf := false, ninf := false, fresh := true, long := false, ovr := false, x := 0 }

/-- The least and greatest value of 81 bits (R118). -/
def vMin : Int := -(2 ^ 80)
/-- 2⁸⁰ − 1. -/
def vMax : Int := 2 ^ 80 - 1

/-- Whether a value fits in V. -/
def vFits (x : Int) : Bool := decide (vMin ≤ x) && decide (x ≤ vMax)

/-- V shifted right by k places, rounded to nearest even (R119). -/
def rneShift (v : Int) (k : Nat) : Int := roundInt 0 0 (decide (v < 0)) v.natAbs (- Int.ofNat k) false

/-- The exact sum of the finite terms. -/
def finiteSum (ts : List Num) : Num :=
  ts.foldl (fun s t => match t with | .fin .. => Num.add s t | _ => s) Num.zero

/-- A value as an integer number of units 2^q, rounded to nearest even. -/
def unitsAt (x : Num) (q : Int) : Int :=
  match x with
  | .fin s m e st => roundInt 0 0 s m (e - q) st
  | _ => 0

/-- The special flags after a slice's terms (R120). -/
def Elem.flags (e : Elem) (ts : List Num) : Elem :=
  let nan := ts.any fun t => t == .nan
  { e with pinf := e.pinf || nan || ts.any (· == .inf false), ninf := e.ninf || nan || ts.any (· == .inf true) }

/-- The largest floor(log2 |p|) of the non-zero finite terms. -/
def maxLog (ts : List Num) : Option Int :=
  match (ts.filter Num.isNonzeroFin).map Num.log with
  | [] => none
  | l :: ls => some (ls.foldl max l)

/-- Step 2 of R119: the anchor after a slice. -/
def Elem.anchor (e : Elem) (ts : List Num) : Elem :=
  match maxLog ts with
  | none => e
  | some l =>
    if e.z then { e with a := l + 1, z := false }
    else if e.a ≤ l then { e with v := rneShift e.v (l + 1 - e.a).toNat, a := l + 1 }
    else e

/-- Renormalisation (R124): the fewest places, tried from k up, that bring the new sum into range. -/
def renormalise : Nat → Nat → Elem → Num → Elem
  | 0, _, e, _ => e
  | n + 1, k, e, s =>
    let v := rneShift e.v k
    let a := e.a + Int.ofNat k
    if vFits (v + unitsAt s (a - 64)) then { e with v := v + unitsAt s (a - 64), a := a } else renormalise n (k + 1) e s

/-- Step 4 of R119 with R123: the term counter, and whether the slice counts a LONGSUM event. -/
def Elem.countTerms (e : Elem) (w : Nat) : Elem × Bool :=
  if e.fresh then ({ e with c := w - 1, fresh := false }, false)
  else if e.c + w ≤ 0xFFFF then ({ e with c := e.c + w }, false)
  else ({ e with c := 0xFFFF, long := true }, !e.long)

/-- One slice of terms into a WINDOW element (R119, R120, R123, R124, R133). `fixed` is the anchor of a scaled tile; there every slice
clears Z, one whose products are all zero too: R133 leaves out step 2, which alone clears it (DESIGN CHOICE, log entry 118). An addition
that no renormalisation covers at a count of at most 65,536 (an element clamped while scaled, its tile then unscaled) leaves V outside 81
bits: R124 forbids the shift and nothing else is given (DESIGN CHOICE, log entry 119). -/
def Elem.window (fixed : Option Int) (w : Nat) (e : Elem) (ts : List Num) : Elem × Bool :=
  let e1 := e.flags ts
  let s := finiteSum ts
  let (e2, ev) := match fixed with
    | none => (e1.anchor ts).countTerms w
    | some a => ({ e1 with a := a, z := false } : Elem).countTerms w
  if e2.z then (e2, ev)
  else
    let sum := e2.v + unitsAt s (e2.a - 64)
    if vFits sum then ({ e2 with v := sum }, ev)
    else match fixed with
      | some _ => ({ e2 with v := if sum < 0 then vMin else vMax, ovr := true }, ev)
      | none => (if e2.long then renormalise 4096 1 e2 s else { e2 with v := sum }, ev)

/-- One slice of exact integer terms into an INTEGER element (R126). -/
def Elem.integer (w : Nat) (e : Elem) (ts : List Int) : Elem :=
  { e with v := ts.foldl (· + ·) e.v, z := false,
           c := if e.fresh then w - 1 else Nat.min (e.c + w) 0xFFFF, fresh := false }

/-- One slice of pass (p, q) into a SLICE element, modulo 2⁸¹ (R127). -/
def Elem.slice (d p q : Nat) (e : Elem) (ts : List Int) : Elem :=
  { e with v := signed 81 (wrap 81 (e.v + ts.foldl (· + ·) 0 * 2 ^ (8 * (d - p - q)))), z := false, fresh := false }

/-- One slice of FP32 terms into an EXTREMUM element (R89, R90). -/
def Elem.extremumF (wantMax : Bool) (e : Elem) (ts : List Num) : Elem :=
  let x := ts.foldl (fun m t => Num.pick wantMax m t) (decodeNum fFP32 e.x.toNat)
  { e with x := BitVec.ofNat 64 (rne fFP32 x).1, fresh := false }

/-- One slice of integer terms into an EXTREMUM element (R89). -/
def Elem.extremumI (wantMax : Bool) (e : Elem) (ts : List Int) : Elem :=
  let x := ts.foldl (fun m t => if wantMax then max m t else min m t) e.x.toInt
  { e with x := BitVec.ofInt 64 x, fresh := false }

/-- The identity of an EXTREMUM element (R82). -/
def extIdentity (int wantMax : Bool) : BitVec 64 :=
  if int then (if wantMax then BitVec.ofNat 64 (2 ^ 63) else BitVec.ofNat 64 (2 ^ 63 - 1))
  else BitVec.ofNat 64 (infBits fFP32 wantMax)

/-- MDIST modes that compare (R88). -/
def isExtremum (mode : Nat) : Bool := decide (3 ≤ mode)
/-- Whether the comparing mode keeps the greatest. -/
def wantsMax (mode : Nat) : Bool := decide (4 ≤ mode)

/-- One term of a feeding instruction from two element values: mode 0 multiplies and adds (R88, R89). -/
def term (mode : Nat) (x y : Num) : Num :=
  match mode with
  | 0 => Num.mul x y
  | 1 => Num.abs (rne32 (Num.sub x y))
  | 2 => let d := rne32 (Num.sub x y); Num.mul d d
  | 3 => rne32 (Num.add x y)
  | 4 => rne32 (Num.add x y)
  | _ => rne32 (Num.mul x y)

/-- One integer term (R88, R89). -/
def termI (mode : Nat) (x y : Int) : Int :=
  match mode with
  | 0 => x * y
  | 1 => Int.ofNat (x - y).natAbs
  | 2 => (x - y) * (x - y)
  | 3 => x + y
  | 4 => x + y
  | _ => x * y

/-! ### Scaled tiles (R133, R134) -/

/-- F of R133. -/
def anchorOffset (ofmt : Nat) : Int :=
  match ofmt with
  | 0x6 => 9 | 0x7 => 16 | 0x8 => 5 | 0x9 => 3 | 0xA => 3 | _ => 7

/-- The fixed anchor of a WINDOW feed into a scaled tile (R133). -/
def fixedAnchor (k : AccKind) (t : AccTile) : Option Int :=
  if t.scaled && k == .window then some (Int.ofNat t.osc.toNat - 127 + anchorOffset t.ofmt.toNat) else none

/-- The exact value of an element of a WINDOW, INTEGER or SLICE tile, special flags apart (R118). -/
def Elem.value (k : AccKind) (e : Elem) : Num :=
  match k with
  | .window => if e.z || e.v == 0 then Num.zero else .fin (decide (e.v < 0)) e.v.natAbs (e.a - 64) false
  | .extremumF => decodeNum fFP32 e.x.toNat
  | .extremumI => Num.ofInt e.x.toInt
  | _ => Num.ofInt e.v

/-- Whether an element overflows at the end of a round of a feed of kind `k` (R134). -/
def Elem.overflows (k : AccKind) (t : AccTile) (e : Elem) : Bool :=
  if k == .window && (e.pinf || e.ninf) then false
  else
    let f := t.ofmt.toNat
    e.ovr ||
      (match Num.scale (127 - Int.ofNat t.osc.toNat) (e.value k) with
       | .fin s m ex st =>
         if f == fINT8 then
           let r := roundInt 0 0 s m ex st
           decide (r < -128) || decide (127 < r)
         else if m == 0 then false
         else let (r, q) := roundMag f 0 0 s m ex st; aboveMax f r q
       | _ => false)

/-! ### Drained values -/

/-- The value a drain rounds (R121, R128). -/
def Elem.drainValue (k : AccKind) (rm : Nat) (part : Bool) (e : Elem) : Num :=
  match k with
  | .window =>
    if e.pinf && e.ninf then .nan
    else if e.pinf then .inf false
    else if e.ninf then .inf true
    else if e.z || e.v == 0 then .fin (rm == 2) 0 0 false
    else e.value k
  | .slice => Num.ofInt (if part then e.v / 2 ^ 56 else e.v % 2 ^ 56)
  | _ => e.value k

/-- The scale of a block under SCM (R109): FIXED takes OSC, never 0xFF. -/
def blockScale (f : Nat) (scm : Bool) (osc : Nat) (xs : List Num) : Nat :=
  if scm then blockMax f xs else Nat.min osc 254

/-- One element rounded to a format, with the block scale of an MX format and the OSC of INT8 (R108, R109). -/
def convertElem (f rm : Nat) (sat force : Bool) (draw scale osc : Nat) (x : Num) : Nat × Class :=
  if isMX f then roundTo f rm sat force draw (Num.scale (127 - Int.ofNat scale) x)
  else if f == fINT8 then roundTo f rm sat force draw (Num.scale (127 - Int.ofNat (Nat.min osc 254)) x)
  else roundTo f rm sat force draw x

end Sys2Proof.Machine
end

