-- ==== Sys2Proof/Machine/Flags.lean ====
section
/-! DEFINITION. The block's flags: a tile's census counters (R111, R216, R217, R330), its status bits (R61) and its fault
records (R185, R234, R243, R468). -/

namespace Sys2Proof.Machine

/-- Census counters hold 40 bits (R330). -/
def censusMask : Nat := 2 ^ 40

/-- Counters with one event more. -/
def bumpCount (m : SMap Nat) (idx : Nat) : SMap Nat := SMap.set 0 m idx ((SMap.get 0 m idx + 1) % censusMask)

/-- Census events recorded in cycle c (R217). Those of a cycle before the issue of the tile's next bundle join the counters; the others
wait, for a CENS or a release may still come before them (R216). -/
def Tile.countEvents (t : Tile) (c : Nat) (idxs : List Nat) : Tile :=
  let all := t.events ++ idxs.map fun i => (c, i)
  { t with census := (all.filter fun e => decide (e.1 < t.now)).foldl (fun m e => bumpCount m e.2) t.census,
           events := all.filter fun e => !decide (e.1 < t.now) }

/-- One census event. -/
def Tile.countEvent (t : Tile) (c idx : Nat) : Tile := t.countEvents c [idx]

/-- A counter as of the cycles before c (R216). -/
def Tile.countBefore (t : Tile) (c idx : Nat) : Nat :=
  (SMap.get 0 t.census idx + t.events.countP fun e => decide (e.1 < c) && e.2 == idx) % censusMask

/-- The events of a classified value of format f: TOTAL, and its class (R330). -/
def classEvents (f : Nat) (c : Class) : List Nat := if c = 0 then [8 * f] else [8 * f, 8 * f + c]

/-- What CENS reads (R216): a count above 32 bits reads all ones; an index without a counter reads 0. -/
def Tile.censRead (t : Tile) (c idx : Nat) : Word :=
  if idx < 256 then BitVec.ofNat 32 (Nat.min (t.countBefore c idx) 0xFFFFFFFF) else 0

/-- REPLAY, LONGSUM, OVF, LAPSED and LAPSED-POISON counters (R330). -/
def cREPLAY : Nat := 128
/-- LONGSUM events. -/
def cLONGSUM : Nat := 129
/-- Feeding instructions that set TIL_STAT.OVF. -/
def cOVF : Nat := 130
/-- QWAIT outcomes LAPSED. -/
def cLAPSED : Nat := 131
/-- QWAIT outcomes LAPSED-POISON. -/
def cPOISON : Nat := 132

/-- The record of an issue fault (R468). -/
def ifaultWord (code addr : Nat) : Word := BitVec.ofNat 32 (code % 256 + (addr / 16 % 2 ^ 17) * 2 ^ 8 + 2 ^ 31)

/-- The record of a window violation (R243). -/
def wfaultWord (addr win src : Nat) : Word :=
  BitVec.ofNat 32 (addr % 2 ^ 21 / 32 * 32 + (win % 8) * 2 ^ 21 + (src % 8) * 2 ^ 24 + 2 ^ 31)

/-- TIL_STAT of a tile whose site holds a logical tile, ARRAY_REP and DRAINED apart (R61). -/
def Tile.statWord (t : Tile) : Nat :=
  (match t.pwr with | .off => 0 | .retain => 1 | .active => 2 | .fenced => 3) * 2
    + (if t.halted then 2 ^ 3 else 0) + (if t.longsum then 2 ^ 5 else 0) + (if t.ovf then 2 ^ 6 else 0)
    + (if t.debug then 2 ^ 7 else 0)

/-- What the tile gives back if its bundle does not issue (R164, R185). -/
def Tile.undoHere (t : Tile) : Undo :=
  { kind0 := t.acc0.kind, kind1 := t.acc1.kind, drainAt := t.drainAt, drain0At := t.drain0At, drain1At := t.drain1At }

/-- The tile without what the bundle of its issue cycle has begun in earlier slots: a bundle that faults issues none of its
slots (R185), one that stalls issues them when it retires (R164). -/
def Tile.unissued (t : Tile) : Tile :=
  let u := t.bundle.undo.getD t.undoHere
  { t with feeds := t.feeds.filter (fun f => f.issue != t.now), drains := t.drains.filter (fun d => d.issue != t.now),
           vops := t.vops.filter (fun v => v.issue != t.now),
           scaleWrites := t.scaleWrites.filter (fun w => w.at_ != t.now + 1),
           regWrites := t.regWrites.filter (fun w => !(w.inc && w.at_ == t.now + 1)),
           acc0 := { t.acc0 with kind := u.kind0 }, acc1 := { t.acc1 with kind := u.kind1 },
           drainAt := u.drainAt, drain0At := u.drain0At, drain1At := u.drain1At,
           bundle := { t.bundle with undo := none } }

/-- An issue fault (R185): recorded with the bundle's address, and the job faults with reason ISSUE. -/
def issueFault (s : State) (x : Site) (code : Nat) : State :=
  let t := s.tile x
  raiseFault (s.setTile x { t.unissued with ifault := ifaultWord code t.pc }) 1 code x

/-- The lower of two codes, where there are any (R185). -/
def lowerCode (a b : Option Nat) : Option Nat :=
  match a, b with
  | some x, some y => some (Nat.min x y)
  | some x, none => some x
  | none, y => y

/-- The lowest code of the conditions that hold; the list is in ascending order of code (R185). -/
def firstCode : List (Bool × Nat) → Option Nat
  | [] => none
  | (b, c) :: r => if b then some c else firstCode r

/-- A remote granule that is dropped (R234): counted, the first recorded, and the job faults. -/
def windowViolation (s : State) (x : Site) (addr win src : Nat) : State :=
  let t := s.tile x
  let t1 := { t with wdrop := BitVec.ofNat 32 (Nat.min (t.wdrop.toNat + 1) 0xFFFFFFFF),
                     wfault := if bit t.wfault 31 then t.wfault else wfaultWord addr win src }
  raiseFault (s.setTile x t1) 3 0 x

end Sys2Proof.Machine
end

