-- ==== Sys2Proof/Machine/Sfu.lean ====
section
/-! DEFINITION. The special-function unit (R150, R151): the accuracy bounds and the special operands.

VDIV and VSQRT are correctly rounded. The other functions answer any result within their bound: the candidates are
enumerated from the function's value to about 190 bits, and a free value picks among them (log entry 8). -/

namespace Sys2Proof.Machine

/-- floor(ln 2 × 2^256). -/
def ln2Fixed : Int := 0xb17217f7d1cf79abc9e3b39803f2f6af40f343267298b62d8a0d175b8baafa2b

/-- The fixed-point scale of this file. -/
def fixOne : Int := 2 ^ 256

/-- A finite value as fixed point with 256 fraction bits, rounded down. -/
def toFixed (neg : Bool) (m : Nat) (e : Int) : Int :=
  if -256 ≤ e then (let v := Int.ofNat (m * 2 ^ (e + 256).toNat); if neg then -v else v)
  else
    let d := 2 ^ (-(e + 256)).toNat
    if neg then -(Int.ofNat ((m + d - 1) / d)) else Int.ofNat (m / d)

/-- The exponential series of a fixed-point r in [0, ln 2): remaining terms, next index, current term, sum. -/
def expSeries : Nat → Int → Int → Int → Int → Int
  | 0, _, _, _, s => s
  | n + 1, i, t, r, s => expSeries n (i + 1) (t * r / fixOne / i) r (s + t)

/-- e^x of a fixed-point x: a fixed-point significand in [1, 2) and a power of two. -/
def expFixed (x : Int) : Int × Int :=
  let k := x / ln2Fixed
  (expSeries 70 1 fixOne (x - k * ln2Fixed) 0, k)

/-- The atanh series: remaining terms, odd index, current power of t, t². -/
def atanhSeries : Nat → Int → Int → Int → Int → Int
  | 0, _, _, _, s => s
  | n + 1, i, p, t2, s => atanhSeries n (i + 2) (p * t2 / fixOne) t2 (s + p / i)

/-- ln of a positive finite value, fixed point. -/
def lnFixed (m : Nat) (e : Int) : Int :=
  let l := log2 m
  let x := Int.ofNat m * fixOne / 2 ^ l
  let t := (x - fixOne) * fixOne / (x + fixOne)
  2 * atanhSeries 90 1 t (t * t / fixOne) 0 + (e + Int.ofNat l) * ln2Fixed

/-- A fixed-point result as a value. -/
def fromFixed (x : Int) (k : Int) : Num := .fin (decide (x < 0)) x.natAbs (k - 256) true

/-- e^a of a finite a. -/
def expNum (neg : Bool) (m : Nat) (e : Int) : Num :=
  if m == 0 then Num.ofInt 1
  else if 11 ≤ Int.ofNat (log2 m) + e then (if neg then .fin false 1 (-5000) true else .fin false 1 5000 true)
  else let (s, k) := expFixed (toFixed neg m e); fromFixed s k

/-- tanh a of a finite non-zero a. -/
def tanhNum (neg : Bool) (m : Nat) (e : Int) : Num :=
  let r := if 7 ≤ Int.ofNat (log2 m) + e then fromFixed (fixOne - 1) 0
    else
      let (s, k) := expFixed (toFixed false m (e + 1))
      let ee := s * 2 ^ k.toNat
      fromFixed ((ee - fixOne) * fixOne / (ee + fixOne)) 0
  if neg then Num.neg r else r

/-- The free functions, numbered for `Config.sfuChoice`. -/
inductive SfuFn where
  | rcp | rsqrt | exp | log | tanh
  deriving DecidableEq, Repr

/-- The value of the function at a finite operand for which R151 gives no result. -/
def sfuExact (fn : SfuFn) (neg : Bool) (m : Nat) (e : Int) : Num :=
  match fn with
  | .rcp => Num.div (Num.ofInt 1) (.fin neg m e false)
  | .rsqrt => Num.div (Num.ofInt 1) (Num.sqrt (.fin neg m e false))
  | .exp => expNum neg m e
  | .log => fromFixed (lnFixed m e) 0
  | .tanh => tanhNum neg m e

/-- The bound of R150 in units in the last place. -/
def sfuUlps (fn : SfuFn) (f : Nat) : Nat :=
  match fn with
  | .rcp => 1
  | _ => if f == fFP64 then 1 else 2

/-- The results in format f (FP32 or FP64) within `b` units in the last place of a value (R150); zero is one only where the value rounds
to zero (R99). -/
def withinUlps (f b : Nat) (x : Num) : List Nat :=
  match x with
  | .fin s m e st =>
    if aboveMax f (roundMag f 0 0 s m e st).1 (roundMag f 0 0 s m e st).2 then [infBits f s]
    else
      let (_, mb, bias) := fmtEMB f
      let h := max (Int.ofNat (log2 m) + e) (1 - bias) - Int.ofNat mb - 1
      let y := quantize 1 0 s m e st h
      let rest := st || (if h ≤ e then false else m % 2 ^ (h - e).toNat != 0)
      ((List.range (4 * b + 2)).filterMap fun i =>
        let j := Int.ofNat y - Int.ofNat (2 * b) + Int.ofNat i
        if j < 0 || (rest && i == 0) || Int.ofNat y + Int.ofNat (2 * b) < j then none
        else
          let (r, q) := roundMag f 1 0 s j.toNat h false
          if r * 2 ^ (q - h).toNat == j.toNat && !aboveMax f r q && (r != 0 || (roundMag f 0 0 s m e st).1 == 0) then some (encodeFin f s r q) else none)
  | _ => []

/-- The special operands of R151; none where the function's value rules. -/
def sfuSpecial (fn : SfuFn) (x : Num) : Option Num :=
  match fn, x with
  | _, .nan => some .nan
  | .rcp, .inf s => some (.fin s 0 0 false)
  | .rcp, .fin s m _ _ => if m == 0 then some (.inf s) else none
  | .rsqrt, .inf s => some (if s then .nan else .fin false 0 0 false)
  | .rsqrt, .fin s m _ _ => if m == 0 then some (.inf s) else if s then some .nan else none
  | .exp, .inf s => some (if s then .fin false 0 0 false else .inf false)
  | .exp, .fin .. => none
  | .log, .inf s => some (if s then .nan else .inf false)
  | .log, .fin s m e _ => if m == 0 then some (.inf true) else if s then some .nan
      else if m == 2 ^ log2 m && Int.ofNat (log2 m) + e == 0 then some Num.zero else none
  | .tanh, .inf s => some (.fin s 1 0 false)
  | .tanh, .fin s m _ _ => if m == 0 then some (.fin s 0 0 false) else none

/-- Number of the function for `Config.sfuChoice`. -/
def sfuCode (fn : SfuFn) : Nat :=
  match fn with
  | .rcp => 0 | .rsqrt => 1 | .exp => 2 | .log => 3 | .tanh => 4

/-- The function in FP32 or FP64: the special operand's result, or one the bound admits. -/
def sfuBits (fn : SfuFn) (f : Nat) (x : Num) (operand : Nat) : Nat :=
  match sfuSpecial fn x, x with
  | some r, _ => (rne f r).1
  | none, .fin s m e _ =>
    let cs := withinUlps f (sfuUlps fn f) (sfuExact fn s m e)
    cs.getD (Config.sfuChoice (sfuCode fn) f (BitVec.ofNat 64 operand) % cs.length) (rne f (sfuExact fn s m e)).1
  | none, _ => nanBits f

/-- The class of a result written for an operand (R111, R151). -/
def classOfBits (f : Nat) (exactNonzero : Bool) (bits : Nat) : Class :=
  match decodeNum f bits with
  | .nan => 1
  | .inf _ => 2
  | .fin _ m _ _ => if m == 0 then (if exactNonzero then 3 else 0) else if Num.log (decodeNum f bits) < 1 - (fmtEMB f).2.2 then 4 else 0

/-- The exact value of a function at an operand. -/
def sfuValue (fn : SfuFn) (x : Num) : Num :=
  match sfuSpecial fn x, x with
  | some r, _ => r
  | none, .fin s m e _ => sfuExact fn s m e
  | none, _ => .nan

/-- A result that is zero only where the exact value rounds to zero (R99). -/
def unflushed (f b : Nat) (exact : Num) : Nat :=
  match decodeNum f b with
  | .fin _ 0 _ _ => (rne f exact).1
  | _ => b

/-- An SFU result in any of the vector formats: the 16-bit forms are the FP32 form's result on the same operand,
rounded once (R150). The census classes a 16-bit result by the exact function value, whatever the FP32 value before it (R111; DESIGN
CHOICE, log entry 121). -/
def sfu (fn : SfuFn) (f : Nat) (operand : Nat) : Nat × Class :=
  let x := decodeNum f operand
  let nz := match sfuSpecial fn x with | some r => Num.isNonzeroFin r | none => true
  if f == fFP32 || f == fFP64 then
    let b := sfuBits fn f x operand
    (b, classOfBits f nz b)
  else
    let b := unflushed f (rne f (decodeNum 0 (sfuBits fn 0 x (rne 0 x).1))).1 (sfuValue fn x)
    (b, classOfBits f nz b)

/-- Division and square root, correctly rounded; the 16-bit forms through FP32, classed by the exact value (R150; DESIGN CHOICE, log entry
121). -/
def sfuRounded (f : Nat) (x : Num) : Nat × Class :=
  if f == fFP32 || f == fFP64 then rne f x
  else
    let b := (rne f (decodeNum 0 (rne 0 x).1)).1
    (b, classOfBits f (Num.isNonzeroFin x) b)

end Sys2Proof.Machine
end

