-- ==== Sys2Proof/Machine/VectorBeat.lean ====
section
/-! DEFINITION. What one beat of a vector instruction reads, computes and writes (R140 to R158, R201 to R214, R226). -/

namespace Sys2Proof.Machine

/-! ### Fields of a vector slot (R201, R204, R210, R213) -/

/-- Format F. -/
def vF (w : BitVec 43) : Nat := fld w 39 4
/-- N. -/
def vN (w : BitVec 43) : Nat := fld w 27 12 + 1
/-- VD and OD. -/
def vVD (w : BitVec 43) : Nat := fld w 24 3
/-- OD. -/
def vOD (w : BitVec 43) : Nat := fld w 18 6
/-- VA. -/
def vVA (w : BitVec 43) : Nat := fld w 15 3
/-- OA. -/
def vOA (w : BitVec 43) : Nat := fld w 9 6
/-- VB. -/
def vVB (w : BitVec 43) : Nat := fld w 6 3
/-- OB. -/
def vOB (w : BitVec 43) : Nat := fld w 0 6
/-- VC or VM of the VEXT slot. -/
def xVC (e : BitVec 26) : Nat := fld e 23 3
/-- OC or OM of the VEXT slot. -/
def xOC (e : BitVec 26) : Nat := fld e 17 6
/-- DF. -/
def xDF (e : BitVec 26) : Nat := fld e 22 4
/-- RM. -/
def xRM (e : BitVec 26) : Nat := fld e 19 3
/-- SAT. -/
def xSAT (e : BitVec 26) : Bool := bit e 18
/-- SCM. -/
def xSCM (e : BitVec 26) : Bool := bit e 17
/-- FORM. -/
def xFORM (e : BitVec 26) : Nat := fld e 15 2
/-- SS. -/
def xSS (e : BitVec 26) : Nat := fld e 10 5
/-- FORM of VUPD. -/
def uFORM (w : BitVec 43) : Nat := fld w 41 2
/-- BASE of VUPD. -/
def uBASE (w : BitVec 43) : Nat := fld w 1 5
/-- OFS of VUPD. -/
def uOFS (w : BitVec 43) : Nat := fld w 6 6

/-! ### Beats and latencies (R140, R143, R146, R152, R156, R207, R211) -/

/-- Elements per beat of the arithmetic pipe. -/
def arithLanes (f : Nat) : Nat := match fmtBits f with | 16 => 128 | 64 => 32 | _ => 64

/-- Elements per beat. -/
def vLanes (k : VKind) (w : BitVec 43) (e : BitVec 26) : Nat :=
  match k with
  | .cvtPlain =>
    let m := Nat.max (fmtBits (vF w)) (fmtBits (xDF e))
    if m = 64 then 32 else Nat.min 128 (2048 / m)
  | .cvtSlice => 32
  | .rec7 => 32
  | .rec6 => 32
  | .div => if vF w = fFP64 then 8 else 16
  | .sqrt => if vF w = fFP64 then 8 else 16
  | .exp => if vF w = fFP64 then 8 else 16
  | .log => if vF w = fFP64 then 8 else 16
  | .rcp => 16
  | .rsqrt => 16
  | .tanh => 16
  | .upd => if uFORM w = 2 then 16 else 64
  | .ld => 64
  | .st => 64
  | _ => arithLanes (vF w)

/-- Words that VLD and VST move (R211). -/
def vWords (w : BitVec 43) : Nat := (vN w * fmtBits (vF w) + 31) / 32

/-- Beats of an instruction. -/
def vBeats (k : VKind) (w : BitVec 43) (e : BitVec 26) : Nat :=
  match k with
  | .ld => ceilDiv (vWords w) 64
  | .st => ceilDiv (vWords w) 64
  | .cvtSlice => if xSCM e then ceilDiv (vN w) 32 else 2 * ceilDiv (vN w) 32
  | _ => ceilDiv (vN w) (vLanes k w e)

/-- Architected latency; VDIV's differs between steppings. -/
def vLat (b0 : Bool) (k : VKind) (w : BitVec 43) (e : BitVec 26) : Nat :=
  let wide := fmtBits (vF w) = 64
  match k with
  | .cmp => 2
  | .sel => 2
  | .cvtPlain => if fmtBits (vF w) = 64 ∨ fmtBits (xDF e) = 64 then 6 else 4
  | .cvtSlice => 6
  | .rec7 => 6
  | .rec6 => 6
  | .div => if b0 then 12 else 14
  | .sqrt => 12
  | .rcp => 8
  | .rsqrt => 8
  | .exp => if wide then 16 else 10
  | .log => if wide then 16 else 10
  | .tanh => 12
  | .red => if fld w 6 3 = 0 then (if wide then 20 else 8) else 6
  | .upd => if uFORM w = 2 then 40 else 12
  | .ld => 3
  | .st => 2
  | _ => if wide then 6 else 4

/-! ### Generator-mode addresses (R226) -/

/-- The source of word w of a generator-mode operand: every dimension enumerates, LANE ignored. -/
def genSrc (d : Desc) (w : Nat) : LaneSrc := descAddr d (splitIndex (fun _ => true) w d.dims)

/-- Whether the descriptor enumerates too few addresses or is one of R68's unpredictable ones. -/
def genBad (d : Desc) (words : Nat) : Bool := d.bad || decide (prodCount (fun _ => true) d.dims < words)

/-- The distinct granules of a generator-mode beat's addresses (R226). -/
def genGrans (d : Desc) (words g : Nat) : List Nat :=
  ((List.range (Nat.min 64 (words - 64 * g))).flatMap fun i =>
    match genSrc d (64 * g + i) with
    | .mem a => [granOf a, granOf (a + 3)]
    | _ => []).eraseDups

/-- Cycles of beat g of a generator-mode load or store. -/
def genCost (d : Desc) (words g : Nat) : Nat := Nat.max 1 (maxPerBank (genGrans d words g))

/-- The first cycle of beat g (R145, R226). -/
def VOp.beatStart (op : VOp) (g : Nat) : Nat :=
  if op.gen then
    let d := decodeDesc true op.desc
    op.issue + 4 + (List.range g).foldl (fun a i => a + genCost d (vWords op.w) i) 0
  else op.issue + g

/-- The cycles that beat g takes. -/
def VOp.beatCost (op : VOp) (g : Nat) : Nat := if op.gen then genCost (decodeDesc true op.desc) (vWords op.w) g else 1

/-- The cycle in which beat g reads (of a generator-mode beat, its last). -/
def VOp.readAt (op : VOp) (g : Nat) : Nat := op.beatStart g + op.beatCost g - 1

/-- The cycle at whose end beat g writes (of a generator-mode store, its last; R145, R211, R226). -/
def VOp.writeAt (op : VOp) (g : Nat) : Nat := op.readAt g + op.lat - 1

/-- The distinct granules of tile memory that beat g of a VLD or VST moves (R211, R226). -/
def VOp.grans (op : VOp) (g : Nat) : List Nat :=
  if op.gen then genGrans (decodeDesc true op.desc) (vWords op.w) g
  else rangeGrans (op.base + 256 * g) (4 * Nat.min 64 (vWords op.w - 64 * g))

/-! ### Arithmetic of one element -/

/-- The bits that a copied element is written with: a NaN becomes R95's (R96). -/
def copyBits (f x : Nat) : Nat := match decodeNum f x with | .nan => nanBits f | _ => x

/-- An elementwise result: bits and census class, none where the instruction counts nothing (R96, R148, R149). -/
def elemResult (k : VKind) (f cond x y z : Nat) : Nat × Option Class :=
  let a := decodeNum f x
  let b := decodeNum f y
  let c := decodeNum f z
  let cl (r : Nat × Class) : Nat × Option Class := (r.1, some r.2)
  match k with
  | .add => cl (rne f (Num.add a b))
  | .sub => cl (rne f (Num.sub a b))
  | .mul => cl (rne f (Num.mul a b))
  | .fma => cl (rne f (Num.add (Num.mul a b) c))
  | .vmin => ((rne f (Num.pick false a b)).1, none)
  | .vmax => ((rne f (Num.pick true a b)).1, none)
  | .cmp =>
    let o := Num.cmp a b
    let h : Bool := match cond with
      | 0 => o == some .eq
      | 1 => o != some .eq
      | 2 => o == some .lt
      | 3 => o == some .lt || o == some .eq
      | 4 => o == some .gt
      | _ => o == some .gt || o == some .eq
    (if h then 2 ^ fmtBits f - 1 else 0, none)
  | .sel => (copyBits f (if z = 0 then y else x), none)
  | .div => cl (sfuRounded f (Num.div a b))
  | .sqrt => cl (sfuRounded f (Num.sqrt a))
  | .rcp => cl (sfu .rcp f x)
  | .rsqrt => cl (sfu .rsqrt f x)
  | .exp => cl (sfu .exp f x)
  | .log => cl (sfu .log f x)
  | _ => cl (sfu .tanh f x)

/-- Elements of a beat. -/
def beatElems (lanes n g : Nat) : List Nat := (List.range (Nat.min lanes (n - lanes * g))).map fun i => lanes * g + i

/-- An element's place in a register. -/
def elemAt (r ofs width k : Nat) : Nat × Nat := (r, 2048 * ofs + k * width)

/-- A write of element k of an operand. -/
def vwrite (r ofs width k v : Nat) : VWrite := { reg := r, bit := 2048 * ofs + k * width, width := width, value := v }

/-- A beat of the register-operand instructions but VCVT and VRED. -/
def arithBeat (t : Tile) (op : VOp) (g : Nat) : BeatResult :=
  let f := vF op.w
  let b := fmtBits f
  let two := match op.kind with | .sqrt => false | .rcp => false | .rsqrt => false | .exp => false | .log => false | .tanh => false | _ => true
  let three := op.kind == .fma || op.kind == .sel
  let rs := (beatElems (vLanes op.kind op.w op.vext) op.n g).map fun k =>
    let x := t.velem b (vVA op.w) (vOA op.w) k
    let y := if two then t.velem b (vVB op.w) (vOB op.w) k else 0
    let z := if three then t.velem b (xVC op.vext) (xOC op.vext) k else 0
    let (v, c) := elemResult op.kind f (fld op.vext 23 3) x y z
    (vwrite (vVD op.w) (vOD op.w) b k v, match c with | some cl => classEvents f cl | none => [])
  { writes := rs.map Prod.fst, stores := [], events := rs.flatMap Prod.snd }

/-! ### VCVT (R205 to R208) -/

/-- A draw of the rounding generator for the j-th element that an instruction rounds (R104). -/
def drawOf (draw j : Nat) : Nat := (Config.freeBits (draw + j)).toNat

/-- A beat of a PLAIN conversion (R206). Elements and scale bytes that overlap within one beat leave the scale bytes: R202 gives no order
(DESIGN CHOICE, log entry 105). -/
def plainBeat (t : Tile) (op : VOp) (g : Nat) : BeatResult :=
  let f := vF op.w
  let df := xDF op.vext
  let ks := beatElems (vLanes op.kind op.w op.vext) op.n g
  let src (k : Nat) : Num :=
    let x := decodeNum f (t.velem (fmtBits f) (vVA op.w) (vOA op.w) k)
    if isMX f then mxValue x (t.velem 8 (vVB op.w) (vOB op.w) (k / 32)) else x
  let osc := fld op.scalar 0 8
  let scaleOf (b : Nat) : Nat :=
    if isMX df then blockScale df (xSCM op.vext) osc ((List.range 32).map fun i => src (32 * b + i)) else 0
  let scales := if isMX df then (List.range (ks.length / 32)).map (fun i => let b := ks.headD 0 / 32 + i; (b, scaleOf b)) else []
  let rs := ks.map fun k =>
    let sc := ((scales.find? fun p => p.1 == k / 32).map Prod.snd).getD 0
    let (v, c) := convertElem df (xRM op.vext) (xSAT op.vext) false (drawOf op.draw k) sc osc (src k)
    (vwrite (vVD op.w) (vOD op.w) (fmtBits df) k v, classEvents df c)
  { writes := rs.map Prod.fst ++ scales.map (fun p => vwrite (vVB op.w) (vOB op.w) 8 p.1 p.2), stores := [],
    events := rs.flatMap Prod.snd }

/-- Whether a supplied exponent lies outside −1,072 to 1,025 (R207: unpredictable). -/
def badExp (e : Int) : Bool := decide (e < -1072) || decide (1025 < e)

/-- A digit-writing beat of a slice-forming conversion: h counts the beats of its pass (R207, R113, R115). Planes and record that overlap
within the last beat leave the record: R202 gives no order (DESIGN CHOICE, log entry 105). -/
def sliceBeat (t : Tile) (op : VOp) (h : Nat) : BeatResult :=
  let df := xDF op.vext
  let planes := if df = 0xE then 7 else 6
  let elem (k : Nat) : Num := decodeNum fFP64 (t.velem 64 (vVA op.w) (vOA op.w) k)
  let supplied := xSCM op.vext
  let e : Int := if supplied then sfld op.scalar 0 12 else sliceExp (op.seen.map (decodeNum fFP64))
  let bad := supplied && badExp e
  let pw := 16 * ceilDiv op.n 64
  let place (p k : Nat) : VWrite :=
    { reg := vVD op.w, bit := 2048 * vOD op.w + 32 * pw * p + 8 * k, width := 8, value := 0 }
  let ks := beatElems 32 op.n h
  let rs := ks.map fun k =>
    let (ds, c) := if bad then
        let r := Config.freeBits (op.draw + k)
        ((List.range planes).map (fun p => fld r (8 * p) 8), fld r 56 2)
      else sliceElem planes e (elem k)
    (ds.zipIdx.map (fun p => { place p.2 k with value := p.1 }), classEvents df c)
  let last := decide (op.n ≤ 32 * (h + 1))
  let seen := if supplied then op.seen ++ ks.map (fun k => t.velem 64 (vVA op.w) (vOA op.w) k) else op.seen
  let record := if bad then fld (Config.freeBits (op.draw + op.n)) 0 16 else sliceRecord e (seen.map (decodeNum fFP64))
  let tail := if last then
      (List.range planes).flatMap (fun p => (List.range (4 * pw - op.n)).map fun i => place p (op.n + i))
        ++ [{ reg := vVB op.w, bit := 2048 * vOB op.w, width := 16, value := record }]
    else []
  { writes := rs.flatMap Prod.fst ++ tail, stores := [], events := rs.flatMap Prod.snd }

/-- A beat of a recombining conversion (R129, R208). -/
def recombineBeat (t : Tile) (op : VOp) (g : Nat) : BeatResult :=
  let c : Int := if op.kind == .rec7 then 62 else 54
  let ea := sfld op.scalar 0 12
  let eb := sfld op.scalar 16 12
  let nf := bit op.scalar 15 || bit op.scalar 31
  let rm := xRM op.vext
  let rs := (beatElems 32 op.n g).map fun k =>
    let h := signed 64 (t.velem 64 (vVA op.w) (vOA op.w) k)
    let l := signed 64 (t.velem 64 (vVB op.w) (vOB op.w) k)
    let v := h * 2 ^ 56 + l
    let x := if nf then Num.nan else if v == 0 then .fin (rm == 2) 0 0 false else Num.scale (ea + eb - c) (Num.ofInt v)
    let (b, cl) := roundTo fFP64 rm (xSAT op.vext) false (drawOf op.draw k) x
    (vwrite (vVD op.w) (vOD op.w) 64 k b, classEvents fFP64 cl)
  { writes := rs.map Prod.fst, stores := [], events := rs.flatMap Prod.snd }

/-! ### VRED (R152 to R155, R209) -/

/-- A list cut into pieces of n. -/
def chunks {α : Type} : Nat → Nat → List α → List (List α)
  | 0, _, _ => []
  | _, _, [] => []
  | fuel + 1, n, xs => xs.take n :: chunks fuel n (xs.drop n)

/-- FP64 addition rounded RNE. -/
def add64 (x y : Num) : Num := decodeNum fFP64 (rne fFP64 (Num.add x y)).1

/-- Sums of neighbours. -/
def pairUp : List Num → List Num
  | x :: y :: r => add64 x y :: pairUp r
  | xs => xs

/-- The pairwise tree over a beat's lanes (R154). -/
def treeSum : Nat → List Num → Num
  | 0, xs => xs.headD Num.zero
  | n + 1, xs => match xs with
    | [] => Num.zero
    | [x] => x
    | _ => treeSum n (pairUp xs)

/-- The FP64 sum of a segment's beats in R154's order. -/
def sum64 (beats : List (List Num)) : Num :=
  let run (r : Nat) : Num := beats.zipIdx.foldl (fun s p => if p.2 % 8 = r then add64 s (treeSum 8 p.1) else s) Num.zero
  add64 (add64 (add64 (run 0) (run 1)) (add64 (run 2) (run 3))) (add64 (add64 (run 4) (run 5)) (add64 (run 6) (run 7)))

/-- The result of a segment: bits and census events. -/
def redSegment (f op lanes : Nat) (xs : List Nat) : Nat × List Nat :=
  let vs := xs.map (decodeNum f)
  match op with
  | 0 =>
    let beats := chunks (xs.length + 1) lanes vs
    if f = fFP64 then
      let (b, c) := rne fFP64 (sum64 beats)
      (b, classEvents fFP64 c)
    else
      let e := beats.foldl (fun e ts => (e.window none ts.length ts).1) Elem.zero
      let (b, c) := rne fFP32 (e.drainValue .window 0 false)
      (b, classEvents fFP32 c)
  | _ =>
    let m := match vs with | [] => Num.zero | v :: r => r.foldl (Num.pick (op == 1)) v
    ((rne f m).1, [])

/-- A beat of a reduction: the segments whose last element it holds (R152). -/
def redBeat (t : Tile) (op : VOp) (g : Nat) : BeatResult × List Nat :=
  let f := vF op.w
  let b := fmtBits f
  let ls := 2 ^ (fld op.w 3 3 + 5)
  let o := fld op.w 6 3
  let e := vLanes op.kind op.w op.vext
  let seen := op.seen ++ (beatElems e op.n g).map fun k => t.velem b (vVA op.w) (vOA op.w) k
  let rb := if o = 0 ∧ f ≠ fFP64 then 32 else b
  let first := (e * g) / ls
  let done := seen.length / ls
  let rs := (List.range (done - first)).map fun i =>
    let j := first + i
    let (v, ev) := redSegment f o (Nat.min e ls) ((seen.drop (j * ls)).take ls)
    (vwrite (vVD op.w) (vOD op.w) rb j v, ev)
  ({ writes := rs.map Prod.fst, stores := [], events := rs.flatMap Prod.snd }, seen)

/-! ### VUPD (R156 to R158) -/

/-- Registers of H, L, G, M and V. -/
def uReg (w : BitVec 43) (i : Nat) : Nat := fld w (24 - 3 * i) 3

/-- The sign of a value as a value; NaN for NaN (R158). -/
def signNum (x : Num) : Num :=
  match x with
  | .nan => .nan
  | .inf s => Num.ofInt (if s then -1 else 1)
  | .fin s m _ _ => if m == 0 then Num.zero else Num.ofInt (if s then -1 else 1)

/-- One update: parameters, w, G, M, V; the new w, M and V as FP32 bits with their census classes (R158). -/
def updStep (form : Nat) (p : List Num) (w g0 m v : Num) :
    (Nat × Class) × Option (Nat × Class) × Option (Nat × Class) :=
  let q (i : Nat) : Num := p.getD i Num.zero
  let lr := q 0
  let wd := q 1
  let one := Num.ofInt 1
  let g := rne32 (Num.mul (q 2) g0)
  let step (d : Num) : Nat × Class := rne fFP32 (Num.sub w (Num.mul lr d))
  match form with
  | 0 => (step (Num.add g (Num.mul wd w)), none, none)
  | 1 =>
    let m' := Num.add (Num.add (Num.mul (q 3) m) g) (Num.mul wd w)
    (step (rne32 m'), some (rne fFP32 m'), none)
  | 2 =>
    let m' := Num.add (Num.mul (q 3) m) (Num.mul (Num.sub one (q 3)) g)
    let v' := Num.add (Num.mul (q 4) v) (Num.mul (Num.mul (Num.sub one (q 4)) g) g)
    let r := rne32 (Num.sqrt (Num.mul (q 7) (rne32 v')))
    let u := rne32 (Num.div (Num.mul (q 6) (rne32 m')) (Num.add r (q 5)))
    (step (Num.add u (Num.mul wd w)), some (rne fFP32 m'), some (rne fFP32 v'))
  | _ =>
    let u := signNum (rne32 (Num.add (Num.mul (q 3) m) (Num.mul (Num.sub one (q 3)) g)))
    let m' := Num.add (Num.mul (q 4) m) (Num.mul (Num.sub one (q 4)) g)
    (step (Num.add u (Num.mul wd w)), some (rne fFP32 m'), none)

/-- A beat of VUPD; every operand begins at word 64 × OFS (R214, log entry 22). -/
def updBeat (t : Tile) (op : VOp) (g : Nat) : BeatResult :=
  let form := uFORM op.w
  let ofs := uOFS op.w
  let gf := if bit op.w 40 then fBF16 else fFP32
  let p := op.params.map fun x => decodeNum fFP32 x.toNat
  let rs := (beatElems (vLanes .upd op.w op.vext) op.n g).map fun k =>
    let h := t.velem 16 (uReg op.w 0) ofs k
    let l := t.velem 16 (uReg op.w 1) ofs k
    let w := decodeNum fFP32 (h * 2 ^ 16 + l)
    let gr := decodeNum gf (t.velem (fmtBits gf) (uReg op.w 2) ofs k)
    let m := decodeNum fFP32 (t.velem 32 (uReg op.w 3) ofs k)
    let v := decodeNum fFP32 (t.velem 32 (uReg op.w 4) ofs k)
    let (w', m', v') := updStep form p w gr m v
    ([vwrite (uReg op.w 0) ofs 16 k (w'.1 / 2 ^ 16), vwrite (uReg op.w 1) ofs 16 k (w'.1 % 2 ^ 16)]
      ++ m'.toList.map (fun b => vwrite (uReg op.w 3) ofs 32 k b.1)
      ++ v'.toList.map (fun b => vwrite (uReg op.w 4) ofs 32 k b.1),
     (w' :: m'.toList ++ v'.toList).flatMap fun b => classEvents fFP32 b.2)
  { writes := rs.flatMap Prod.fst, stores := [], events := rs.flatMap Prod.snd }

/-! ### VLD and VST (R211, R226) -/

/-- The word index range of a beat. -/
def beatWords (w : BitVec 43) (g : Nat) : List Nat := beatElems 64 (vWords w) g

/-- A beat of VLD, from the granules it has read. -/
def ldBeat (op : VOp) (held : List (Nat × List Byte)) (g : Nat) : BeatResult :=
  let d := decodeDesc true op.desc
  let bad := op.gen && genBad d (vWords op.w)
  let ws := (beatWords op.w g).map fun i =>
    let v := if bad then fld (Config.freeBits (op.draw + i)) 0 32
      else if op.gen then (match genSrc d i with
        | .zero => 0
        | .const => d.padConst
        | .mem a => leNat (heldBytes held a 4))
      else leNat (heldBytes held (op.base + 4 * i) 4)
    vwrite (vVD op.w) (vOD op.w) 32 i v
  { writes := ws, stores := [], events := [] }

/-- A beat of a contiguous VST. -/
def stBeat (t : Tile) (op : VOp) (g : Nat) : BeatResult :=
  { writes := [], events := [],
    stores := (beatWords op.w g).map fun i =>
      (addr21 (Int.ofNat (op.base + 4 * i)), natLe 4 (t.velem 32 (vVD op.w) (vOD op.w) i)) }

/-- The bytes of a word at address a that lie in granule g. -/
def wordIn (g a : Nat) (bs : List Byte) : List (Nat × List Byte) :=
  let n := (bs.zipIdx.filter fun p => granOf (a + p.2) == g)
  match n with
  | [] => []
  | p :: _ => [(addr21 (Int.ofNat (a + p.2)), n.map Prod.fst)]

/-- What a beat of a generator-mode VST stores into the granules of its cycle `r`, in the order of its words: the register words as
they stand (R226). Of two words of a beat that fall on one byte the later word's stays: no rule orders them (DESIGN CHOICE, log entry 123).
A descriptor of unpredictable results stores at free addresses in the beat's last cycle. -/
def genStores (t : Tile) (op : VOp) (g r : Nat) : List (Nat × List Byte) :=
  let d := decodeDesc true op.desc
  let word (i : Nat) : List Byte := natLe 4 (t.velem 32 (vVD op.w) (vOD op.w) i)
  if genBad d (vWords op.w) then
    (if r + 1 = op.beatCost g then (beatWords op.w g).map fun i => (fld (Config.freeBits (op.draw + i)) 0 21, word i) else [])
  else
    let gs := op.grans g
    (beatWords op.w g).flatMap fun i =>
      match genSrc d i with
      | .mem a => ([granOf a, granOf (a + 3)].eraseDups.filter fun h => bankRank gs h == r).flatMap fun h => wordIn h a (word i)
      | _ => []

/-- What beat g of an instruction reads and computes, with the elements seen so far. -/
def readBeat (t : Tile) (op : VOp) (g : Nat) : BeatResult × List Nat :=
  match op.kind with
  | .cvtPlain => (plainBeat t op g, op.seen)
  | .cvtSlice =>
    let elems (h : Nat) := (beatElems 32 op.n h).map fun k => t.velem 64 (vVA op.w) (vOA op.w) k
    if xSCM op.vext then (sliceBeat t op g, op.seen ++ elems g)
    else if g < op.beats / 2 then ({ writes := [], stores := [], events := [] }, op.seen ++ elems g)
    else (sliceBeat t op (g - op.beats / 2), op.seen)
  | .rec7 => (recombineBeat t op g, op.seen)
  | .rec6 => (recombineBeat t op g, op.seen)
  | .red => redBeat t op g
  | .upd => (updBeat t op g, op.seen)
  | .ld => (ldBeat op op.held g, op.seen)
  | .st => (stBeat t op g, op.seen)
  | _ => (arithBeat t op g, op.seen)

end Sys2Proof.Machine
end

