-- ==== Sys2Proof/Machine/Ports.lean ====
section
/-! DEFINITION. The bank ports of tile memory (R45, R219 to R226, R254): which granules the scheduled clients read and write in a
cycle, what a clash of two granules in one bank gives (R221), the order of writes in one cycle (R218), and the granule states
that debug mode checks with each access (R231). -/

namespace Sys2Proof.Machine

/-! ### What the clients in flight use -/

/-- The first cycle of round k (R83). -/
def Feed.roundAt (f : Feed) (k : Nat) : Nat := f.t0 + k * (f.span + 7)

/-- The granules that a feeding instruction reads in cycle x: descriptors, then operands (R67, R221, R224). -/
def Feed.readsAt (f : Feed) (x : Nat) : List Nat :=
  let k := x - f.issue
  (if f.issue ≤ x ∧ k < 4 then [granOf (f.da + 32 * k), granOf (f.db + 32 * k)] else [])
    ++ (if x < f.t0 then []
        else (List.range (f.rb + 1)).flatMap fun r =>
          (f.periods.filter fun p => decide (f.roundAt r + p.start ≤ x) && decide (x < f.roundAt r + p.start + p.cost)).flatMap
            fun p =>
              let gs := feedGrans f.fa f.fb (decodeDesc (f.op != .mma) f.descA) (decodeDesc (f.op != .mma) f.descB) p.p p.q p.n0 p.k
              gs.filter fun g => f.roundAt r + p.start + bankRank gs g == x)

/-- The granules that the beats of a VLD or VST move in cycle x (R211, R226). -/
def VOp.movesAt (op : VOp) (x : Nat) : List Nat :=
  if op.gen && op.parts != 4 then []
  else (List.range op.beats).flatMap fun g =>
    let b := op.beatStart g
    if b ≤ x ∧ x < b + op.beatCost g then
      let gs := op.grans g
      gs.filter fun h => !op.gen || bankRank gs h == x - b
    else []

/-- The granules that a vector instruction reads in cycle x (R211, R221, R226). -/
def VOp.readsAt (op : VOp) (x : Nat) : List Nat :=
  (if op.gen ∧ op.issue ≤ x ∧ x < op.issue + 4 then [granOf (op.base + 32 * (x - op.issue))] else [])
    ++ (if op.kind = .ld then op.movesAt x else [])

/-- The granules that a VST writes in cycle x: each one cycle after its read of the register (R211, R226). -/
def VOp.putsAt (op : VOp) (x : Nat) : List Nat := if op.kind = .st ∧ 0 < x then op.movesAt (x - 1) else []

/-- The granules that an XSEND reads in cycle x (R180). -/
def XSend.readsAt (f : XSend) (x : Nat) : List Nat :=
  if f.issue ≤ x ∧ 4 * (x - f.issue) < f.len then
    rangeGrans (f.src + 128 * (x - f.issue)) (32 * Nat.min 4 (f.len - 4 * (x - f.issue)))
  else []

/-- The address of row i of a drain (R193). -/
def drainAddr (d : Drain) (i : Nat) : Nat := (d.base + 32 * d.pitch * i) % 2 ^ 21

/-- The granules that a drain writes in cycle x, an MX row's scale byte among them (R84, R193). -/
def Drain.putsAt (d : Drain) (x : Nat) : List Nat :=
  let i := x - (d.issue + 5)
  if d.toReg ∨ x < d.issue + 5 ∨ 32 ≤ i then []
  else rangeGrans (drainAddr d i) (4 * fmtBits d.ofmt) ++ (if isMX d.ofmt then [granOf (d.sbase + i)] else [])

/-- The granules of an access to a port. -/
def PortUse.grans (u : PortUse) : List Nat := rangeGrans u.addr u.len

/-- The granule that an SLD reads in cycle x: three cycles before its word is readable (R169). -/
def RegWrite.readsAt (w : RegWrite) (x : Nat) : List Nat :=
  match w.load with
  | some (a, _) => if w.at_ = x + 3 then [granOf a] else []
  | none => []

/-- The granules read in cycle x, above the top of memory none (R197, R221). Fetch reads, whose cycles the spec does not give, are
left out (log entry 10). -/
def Tile.readsAt (t : Tile) (x : Nat) : List Nat :=
  ((t.ports.filter fun u => !u.write && u.cycle == x).flatMap PortUse.grans ++ t.regWrites.flatMap (RegWrite.readsAt · x)
    ++ t.feeds.flatMap (Feed.readsAt · x) ++ t.vops.flatMap (VOp.readsAt · x)
    ++ t.xsends.flatMap (XSend.readsAt · x)).filter fun g => decide (32 * g < tileTop)

/-- The granules written in cycle x: what has been written, and what is due then. -/
def Tile.putsAt (t : Tile) (x : Nat) : List Nat :=
  ((t.ports.filter fun u => u.write && u.cycle == x).flatMap PortUse.grans
    ++ (t.memWrites.filter fun w => w.at_ == x).flatMap (fun w => rangeGrans w.addr w.data.length)
    ++ t.drains.flatMap (Drain.putsAt · x) ++ t.vops.flatMap (VOp.putsAt · x)).filter fun g => decide (32 * g < tileTop)

/-- Whether another granule of a list lies in the bank of granule g (R219). -/
def bankMeets (gs : List Nat) (g : Nat) : Bool := gs.any fun h => h != g && h % 14 == g % 14

/-- Whether no granule of a list lies in the bank of granule g. -/
def bankFree (gs : List Nat) (g : Nat) : Bool := gs.all fun h => h % 14 != g % 14

/-- The first cycle from c on that a test admits; the bank schedule keeps no port busy for more than 120 cycles in a row (R222). -/
def firstCycle (ok : Nat → Bool) (c : Nat) : Nat := c + ((List.range 256).find? fun i => ok (c + i)).getD 0

/-- The first cycle from c on in which the read ports of some granules' banks are free of scheduled clients (R254). -/
def Tile.readFree (t : Tile) (gs : List Nat) (c : Nat) : Nat := firstCycle (fun x => gs.all (bankFree (t.readsAt x))) c

/-- The first cycle from c on in which the write ports of some granules' banks are free of scheduled clients (R254). -/
def Tile.writeFree (t : Tile) (gs : List Nat) (c : Nat) : Nat := firstCycle (fun x => gs.all (bankFree (t.putsAt x))) c

/-! ### What waits in the arrival buffer (R254, R258) -/

/-- The granules of a checked flit that passed, with their data. -/
def Arrival.kept (a : Arrival) : List (Nat × List Byte) :=
  ((a.targets.getD []).zip a.flit.data).filterMap fun p => if p.1.1 then some (p.1.2, p.2) else none

/-- The granules' numbers. -/
def Arrival.grans (a : Arrival) : List Nat := a.kept.map fun g => granOf g.1

/-- The accesses that the arrival buffer has planned: reads and writes by cycle, the cycle of the last write, and of each ADDF flit its
granules with the cycles of its read and its write. -/
structure PortPlan where
  reads : List (Nat × List Nat)
  puts : List (Nat × List Nat)
  last : Nat
  sums : List (List Nat × Nat × Nat)

/-- What a plan moves in cycle x. -/
def planAt (ps : List (Nat × List Nat)) (x : Nat) : List Nat := (ps.filter fun p => p.1 == x).flatMap Prod.snd

/-- Whether the granules of a flit belong to a sum in progress in cycle x: read, and not yet written (R258). -/
def PortPlan.busy (p : PortPlan) (gs : List Nat) (x : Nat) : Bool :=
  p.sums.any fun s => decide (s.2.1 ≤ x) && decide (x < s.2.2) && s.1.any gs.contains

/-- The next flit of the arrival buffer in the plan, from cycle c on (R254, R258). -/
def Tile.planFlit (t : Tile) (c : Nat) (p : PortPlan) (a : Arrival) : PortPlan :=
  let gs := a.grans
  let putAt (from_ : Nat) : Nat := firstCycle (fun x => gs.all (bankFree (t.putsAt x ++ planAt p.puts x))) (Nat.max from_ p.last)
  if a.flit.addf = 0 then
    let w := putAt (Nat.max c a.entry)
    { p with puts := p.puts ++ [(w, gs)], last := w }
  else match a.sums with
    | some (rd, _, _) =>
      let w := putAt (Nat.max c (rd + 2))
      { p with puts := p.puts ++ [(w, gs)], last := w, sums := p.sums ++ [(gs, rd, w)] }
    | none =>
      let rd := firstCycle (fun x => gs.all (bankFree (t.readsAt x ++ planAt p.reads x)) && !p.busy gs x) (Nat.max c a.entry)
      let w := putAt (rd + 2)
      { reads := p.reads ++ [(rd, gs)], puts := p.puts ++ [(w, gs)], last := w, sums := p.sums ++ [(gs, rd, w)] }

/-- The accesses of the flits in the arrival buffer from cycle c on: they rank after the scheduled clients and before landing writes and
sending reads (R254). -/
def Tile.arrivalPlan (t : Tile) (c : Nat) : PortPlan :=
  t.arrivals.foldl (t.planFlit c) { reads := [], puts := [], last := c, sums := [] }

/-- The first cycle from c on in which neither a scheduled client nor a waiting arrival uses the write port of a granule's bank: a landing
write's (R45, R222, R254). -/
def Tile.landFree (t : Tile) (g c : Nat) : Nat :=
  let p := t.arrivalPlan c
  firstCycle (fun x => bankFree (t.putsAt x ++ planAt p.puts x) g) c

/-- The first cycle from c on in which neither a scheduled client nor a waiting ADDF arrival uses the read port of a granule's bank: a
sending read's (R222, R254). -/
def Tile.sendFree (t : Tile) (g c : Nat) : Nat :=
  let p := t.arrivalPlan c
  firstCycle (fun x => bankFree (t.readsAt x ++ planAt p.reads x) g) c

/-! ### Access -/

/-- An access takes its ports; what is older than its cycle no longer matters. -/
def Tile.usePort (t : Tile) (u : PortUse) : Tile := { t with ports := t.ports.filter (fun v => decide (u.cycle ≤ v.cycle)) ++ [u] }

/-- The bytes that a scheduled read in cycle x gives: those that memory holds, or, where another granule of `others` meets one in its
bank, values that nothing constrains (R221; log entry 10). -/
def Tile.portRead (t : Tile) (others : List Nat) (x draw a n : Nat) : List Byte :=
  (List.range n).map fun i =>
    if bankMeets others (granOf (a + i)) then Config.clashByte draw x (a + i) else t.byteAt (a + i)

/-- Whether a byte has been written in cycle c by a later-issued instruction (R218). -/
def Tile.overridden (t : Tile) (c rank a : Nat) : Bool :=
  t.ports.any fun u => u.write && u.cycle == c && decide (rank < u.rank) && decide (u.addr ≤ a) && decide (a < u.addr + u.len)

/-- A memory with those of some bytes written that a test admits; above the top they are discarded (R197). -/
def memPutIf (ok : Nat → Bool) (m : Memory) (a : Nat) : List Byte → Memory
  | [] => m
  | b :: bs => memPutIf ok (if a % 2 ^ 21 < tileTop ∧ ok (a % 2 ^ 21) then m.setByte (a % 2 ^ 21) b else m) (a + 1) bs

/-- A scheduled write in cycle c: of two to one byte the later-issued counts (R218), and a clash with another granule in a bank leaves
what nothing constrains, and the job may fault for it (R11, R221; log entry 10). -/
def Tile.portWrite (t : Tile) (c rank draw a : Nat) (data : List Byte) : Tile :=
  let others := t.putsAt c
  let bs := data.zipIdx.map fun p => if bankMeets others (granOf (a + p.2)) then Config.clashByte draw c (a + p.2) else p.1
  { t with mem := memPutIf (fun b => !t.overridden c rank b) t.mem a bs,
           upset := t.upset || (rangeGrans a data.length).any (bankMeets others) }.usePort
    { cycle := c, write := true, rank := rank, addr := a % 2 ^ 21, len := data.length }

/-- The place of a slot of a bundle in the order of issue: matrix, control, vector (R147, R218). -/
def issueRank (issue slot : Nat) : Nat := 3 * issue + slot

/-! ### The hazard detector (R231) -/

/-- State of a granule in debug mode. -/
def Tile.granState (t : Tile) (g : Nat) : Gran := SMap.get Gran.free t.gran g

/-- Scheduled reads in debug mode: reading a PENDING or STALE granule is hazard 1 (R231, R394). -/
def Tile.noteReads (t : Tile) (gs : List Nat) : Tile :=
  if t.debug then
    { t with found := t.found ++ (gs.filter fun g => t.granState g == .pending || t.granState g == .stale).map fun g => (1, 32 * g) }
  else t

/-- Scheduled writes in debug mode: writing a PENDING or SENDING granule is hazard 2, a STALE one becomes FREE (R231). -/
def Tile.noteWrites (t : Tile) (gs : List Nat) : Tile :=
  if t.debug then
    { t with found := t.found ++ (gs.filter fun g => t.granState g == .pending || t.granState g == .sending).map fun g => (2, 32 * g),
             gran := gs.foldl (fun m g => if SMap.get Gran.free m g = .stale then SMap.set Gran.free m g .free else m) t.gran }
  else t

/-- The hazards that a tile has found are reported (R394). -/
def reportHazards (s : State) (x : Site) : State :=
  (s.tile x).found.foldl (fun s p => hazard s p.1 x p.2) (s.onTile x fun t => { t with found := [] })

/-- A tile whose accesses have met in a bank is put back: the job may fault (R11, R221; log entry 10). -/
def reportUpset (s : State) (x : Site) : State := mayFault (s.onTile x fun t => { t with upset := false })

/-- A tile is put back, and what it has met is reported: clashes of its banks, and what debug mode has found. -/
def State.putTile (s : State) (x : Site) (t : Tile) : State :=
  let s1 := s.setTile x t
  let s2 := if t.upset then reportUpset s1 x else s1
  if t.found.isEmpty then s2 else reportHazards s2 x

end Sys2Proof.Machine
end

