-- ==== Sys2Proof/Machine/TileOps.lean ====
section
/-! DEFINITION. The tile's shared operations: effects that come due by a cycle (R145, R163, R169, R182, R199), windows and
call slips (R232 to R238), posting an outcome (R176, R177), and the frame of a slot command (R159, R163, R185). -/

namespace Sys2Proof.Machine

/-! ### Windows and call slips -/

/-- A closed window. -/
def Window.closed : Window := { isOpen := false, base := 0, bound := 0 }

/-- Window w. -/
def Tile.window (t : Tile) (w : Nat) : Window := SMap.get Window.closed t.windows w

/-- Whether an open window covers a granule address (R234). -/
def Window.admits (w : Window) (a : Nat) : Bool := w.isOpen && decide (w.base ≤ a) && decide (a + 32 ≤ w.bound)

/-- The tile address of a remote granule that names a window and an offset, none where the check drops it (R233, R234). -/
def Tile.remoteTarget (t : Tile) (win off : Nat) : Option Nat :=
  let w := t.window win
  let a := w.base + 32 * off
  if w.admits a then some a else none

/-- The address TIL_WFAULT records: for a closed window, 32 × offset (R243). -/
def Tile.remoteRecord (t : Tile) (win off : Nat) : Nat :=
  let w := t.window win
  if w.isOpen then w.base + 32 * off else 32 * off

/-- Whether any open window covers a granule (R234: stage streams name none). -/
def Tile.anyWindow (t : Tile) (a : Nat) : Bool := (List.range 8).any fun i => (t.window i).admits a

/-- An unused counter. -/
def Slip.none : Slip := { want := 0, allot := 0, flight := 0, bind := 0 }

/-- Call-slip counter c. -/
def Tile.slip (t : Tile) (c : Nat) : Slip := SMap.get Slip.none t.slips c

/-- Put a counter back. -/
def Tile.setSlip (t : Tile) (c : Nat) (s : Slip) : Tile := { t with slips := SMap.set Slip.none t.slips c s }

/-- Charge of a counter (R238). -/
def Slip.charge (s : Slip) : Nat := Nat.max s.allot s.flight

/-- Sum of a tile's charges. -/
def Tile.charges (t : Tile) : Nat := t.slips.foldl (fun a p => a + p.2.charge) 0

/-- Decreases at once, then requested increases as far as the sum of charges allows, counters in ascending number (R238). -/
def Tile.grantSlips (t : Tile) : Tile :=
  let down := (List.range 64).foldl (fun t c =>
    let s := t.slip c
    if s.want < s.allot then t.setSlip c { s with allot := s.want } else t) t
  (List.range 64).foldl (fun t c =>
    let s := t.slip c
    if s.want ≤ s.allot then t
    else
      let room := 128 - t.charges
      t.setSlip c { s with allot := if s.want ≤ s.flight then s.want else Nat.min s.want (Nat.max s.allot (s.charge + room)) }) down

/-- Codes that name a source (R236). -/
def namesSource (code : Nat) : Bool := code == 0x0100 || (decide (0x0200 ≤ code) && decide (code ≤ 0x02FF))

/-- One SLIP (R237, R238). -/
def Tile.applySlip (t : Tile) (ctr mode : Nat) (v : Word) : Tile :=
  let s := t.slip ctr
  match mode with
  | 0 =>
    let code := fld v 8 16
    let s1 := { s with want := Nat.min (fld v 0 8) 128, bind := if 16 ≤ ctr then code else s.bind }
    let t1 := if 16 ≤ ctr && namesSource code then
        (List.range 64).foldl (fun t c =>
          let o := t.slip c
          if c ≠ ctr ∧ 16 ≤ c ∧ o.bind = code then t.setSlip c { o with want := 0, allot := 0, bind := 0 } else t) t
      else t
    (t1.setSlip ctr s1).grantSlips
  | 1 => (t.setSlip ctr { s with want := (max 0 (min 128 (Int.ofNat s.want + v.toInt))).toNat }).grantSlips
  | _ => (t.setSlip ctr { s with want := 0, bind := if 16 ≤ ctr then 0 else s.bind }).grantSlips

/-- The counter bound to a source code. -/
def Tile.boundSlip (t : Tile) (code : Nat) : Option Nat :=
  (List.range 64).find? fun c => decide (16 ≤ c) && (t.slip c).bind == code

/-! ### Effects that come due -/

/-- Insert a register write after those due no later: of two due in one cycle the later-issued counts (R163). Within a bundle, for
which R163 gives no order, the control slot's write counts, since it comes last (DESIGN CHOICE, log entry 3). -/
def insertReg (w : RegWrite) : List RegWrite → List RegWrite
  | [] => [w]
  | x :: xs => if x.at_ ≤ w.at_ then x :: insertReg w xs else w :: x :: xs

/-- A register write readable from a cycle on (R163). -/
def Tile.writeReg (t : Tile) (at_ : Nat) (d : RegDest) (v : Word) : Tile :=
  { t with regWrites := insertReg { at_ := at_, dest := d, value := v, inc := false, load := none } t.regWrites }

/-- The word of an SLD that issues in cycle c: it is read in c, with everything that is written in c, and readable from c + 3 (R169, R218). -/
def Tile.loadReg (t : Tile) (c r a draw : Nat) : Tile :=
  { t with regWrites := insertReg { at_ := c + 3, dest := .s r, value := 0, inc := false, load := some (a, draw) } t.regWrites }

/-- INC of a VLD or VST: its address register's new value, readable from a cycle on (R211). -/
def Tile.writeInc (t : Tile) (at_ r : Nat) (v : Word) : Tile :=
  { t with regWrites := insertReg { at_ := at_, dest := .a r, value := v, inc := true, load := none } t.regWrites }

/-- Register writes readable by cycle c take effect, in order of cycle and of issue (R163). -/
def settleRegs (c : Nat) : List RegWrite → Tile → Tile
  | [], t => { t with regWrites := [] }
  | w :: ws, t =>
    if w.at_ ≤ c then
      settleRegs c ws (match w.dest with | .s r => t.setS r w.value | .a r => t.setA r w.value)
    else { t with regWrites := w :: ws }

/-- The check of a remote granule: whether it passes, with its address or the one that TIL_WFAULT records (R233, R234, R243). -/
def Tile.remoteCheck (t : Tile) (win off : Nat) : Bool × Nat :=
  match t.remoteTarget win off with
  | some a => (true, a)
  | none => (false, t.remoteRecord win off)

/-- Flits that entered by cycle c are checked against the windows in force (R234). -/
def Tile.checkArrivals (t : Tile) (c : Nat) : Tile :=
  { t with arrivals := t.arrivals.map fun a =>
      if a.targets.isNone && decide (a.entry ≤ c) then
        { a with targets := some ((List.range a.flit.data.length).map fun i => t.remoteCheck a.flit.win (a.flit.off + i)) }
      else a }

/-- Window changes, call-slip changes and MSCALEs in effect by cycle c (R182, R199). -/
def Tile.settleEffects (t : Tile) (c : Nat) : Tile :=
  let t1 := (t.winWrites.filter fun w => w.at_ ≤ c).foldl (fun t w =>
    let u := t.checkArrivals (w.at_ - 1)
    { u with windows := SMap.set Window.closed u.windows w.win w.value }) t
  let t2 := (t.slipWrites.filter fun w => w.at_ ≤ c).foldl (fun t w => t.applySlip w.ctr w.mode w.value) t1
  let t3 := (t.scaleWrites.filter fun w => w.at_ ≤ c).foldl (fun t w =>
    let set (a : AccTile) : AccTile := { a with osc := w.osc, ofmt := w.ofmt, scaled := w.scaled }
    if w.acc = 0 then { t with acc0 := set t.acc0 } else { t with acc1 := set t.acc1 }) t2
  { t3 with winWrites := t.winWrites.filter (fun w => !decide (w.at_ ≤ c)),
            slipWrites := t.slipWrites.filter (fun w => !decide (w.at_ ≤ c)),
            scaleWrites := t.scaleWrites.filter (fun w => !decide (w.at_ ≤ c)) }

/-- Read the next descriptor granules up to cycle c (R67); `others` names what else is read in a cycle. -/
def latchParts (t : Tile) (others : Nat → List Nat) (draw c addr : Nat) : Nat → Nat → Nat → List Byte → Nat × List Byte
  | 0, _, parts, bs => (parts, bs)
  | n + 1, issue, parts, bs =>
    if parts < 4 ∧ issue + parts ≤ c then
      latchParts t others draw c addr n issue (parts + 1)
        (bs ++ t.portRead (others (issue + parts)) (issue + parts) draw (addr + 32 * parts) 32)
    else (parts, bs)

/-- Whether a descriptor granule read from `parts` up to `upto` meets another in its bank (R221). -/
def partsMeet (others : Nat → List Nat) (issue addr parts upto : Nat) : Bool :=
  (List.range (upto - parts)).any fun i => bankMeets (others (issue + parts + i)) (granOf (addr + 32 * (parts + i)))

/-- The granules that the descriptor reads from `parts` up to `upto` take. -/
def partGrans (addr parts upto : Nat) : List Nat := (List.range (upto - parts)).map fun i => granOf (addr + 32 * (parts + i))

/-- The other clients' reads, as one instruction in flight meets them. -/
def Tile.besideOp (t : Tile) (op : VOp) (x : Nat) : List Nat := { t with vops := t.vops.filter fun o => o.issue != op.issue }.readsAt x

/-- The other clients' reads, as a feeding instruction meets them. -/
def Tile.besideFeed (t : Tile) (f : Feed) (x : Nat) : List Nat := { t with feeds := t.feeds.filter fun g => g.issue != f.issue }.readsAt x

/-- The other clients' reads, as an XSEND meets them. -/
def Tile.besideXSend (t : Tile) (f : XSend) (x : Nat) : List Nat := { t with xsends := t.xsends.filter fun g => g.issue != f.issue }.readsAt x

/-- A generator-mode instruction's descriptor reads up to cycle c (R226). -/
def latchDesc (t : Tile) (c : Nat) (op : VOp) : VOp :=
  if op.gen then
    let (p, d) := latchParts t (t.besideOp op) op.draw c op.base 4 op.issue op.parts op.desc
    { op with parts := p, desc := d, reads := op.reads ++ partGrans op.base op.parts p,
              upset := op.upset || partsMeet (t.besideOp op) op.issue op.base op.parts p }
  else op

/-- Read the vector registers for an instruction's beats up to cycle c (R145). -/
def latchBeats (t : Tile) (c : Nat) : Nat → VOp → VOp
  | 0, op => op
  | n + 1, op =>
    if op.latched < op.beats ∧ op.readAt op.latched ≤ c then
      let (r, seen) := readBeat t op op.latched
      latchBeats t c n { op with latched := op.latched + 1, seen := seen, results := op.results ++ [r] }
    else op

/-- Read tile memory for a VLD's beats up to cycle c, bank by bank from a beat's first cycle (R211, R226). -/
def latchLoads (t : Tile) (c : Nat) : Nat → VOp → VOp
  | 0, op => op
  | n + 1, op =>
    let b := op.beatStart op.latched
    if op.latched < op.beats ∧ (!op.gen ∨ op.parts = 4) ∧ b ≤ c then
      let cost := op.beatCost op.latched
      let upto := Nat.min cost (c - b + 1)
      let gs := op.grans op.latched
      let new := (gs.filter fun g => decide (op.off ≤ bankRank gs g) && decide (bankRank gs g < upto)).map fun g =>
        (g, t.portRead (t.besideOp op (b + bankRank gs g)) (b + bankRank gs g) op.draw (32 * g) 32)
      let met := new.any fun h => bankMeets (t.besideOp op (b + bankRank gs h.1)) h.1
      let op1 := { op with off := upto, held := op.held ++ new, reads := op.reads ++ new.map Prod.fst, upset := op.upset || met }
      if upto < cost then op1
      else latchLoads t c n { op1 with latched := op.latched + 1, off := 0, held := [],
                                       results := op.results ++ [ldBeat op1 op1.held op.latched] }
    else op

/-- The stores of a generator-mode VST whose register reads fall in cycles up to c: each granule is written a cycle later (R226). -/
def latchStores (t : Tile) (c : Nat) : Nat → VOp × List MemWrite → VOp × List MemWrite
  | 0, p => p
  | n + 1, (op, ws) =>
    let b := op.beatStart op.latched
    if op.latched < op.beats ∧ op.parts = 4 ∧ b ≤ c then
      let cost := op.beatCost op.latched
      let upto := Nat.min cost (c - b + 1)
      let new := (List.range (upto - op.off)).flatMap fun i =>
        (genStores t op op.latched (op.off + i)).map fun p =>
          { at_ := b + op.off + i + 1, rank := issueRank op.issue 2, draw := op.draw, addr := p.1, data := p.2 : MemWrite }
      if upto < cost then ({ op with off := upto }, ws ++ new)
      else latchStores t c n ({ op with off := 0, latched := op.latched + 1,
                                        results := op.results ++ [{ writes := [], stores := [], events := [] }] }, ws ++ new)
    else (op, ws)

/-- Insert a store among those on their way, in order of cycle and of issue (R218). -/
def insertMem (w : MemWrite) : List MemWrite → List MemWrite
  | [] => [w]
  | v :: vs => if v.at_ < w.at_ ∨ (v.at_ = w.at_ ∧ v.rank ≤ w.rank) then v :: insertMem w vs else w :: v :: vs

/-- A store on its way (R169, R226). -/
def Tile.store (t : Tile) (w : MemWrite) : Tile := { t with memWrites := insertMem w t.memWrites }

/-- Read an XSEND's flits up to cycle c (R180, R247). -/
def latchFlits (t : Tile) (c : Nat) : Nat → XSend → XSend
  | 0, x => x
  | n + 1, x =>
    if 4 * x.latched < x.len ∧ x.issue + x.latched ≤ c then
      let k := Nat.min 4 (x.len - 4 * x.latched)
      let at_ := x.issue + x.latched
      let data := (List.range k).map fun i =>
        t.portRead (t.besideXSend x at_) at_ x.draw (x.src + 128 * x.latched + 32 * i) 32
      let f := { x.flit with off := x.flit.off + 4 * x.latched, data := data, ready := at_ + 1 }
      let gs := rangeGrans (x.src + 128 * x.latched) (32 * k)
      latchFlits t c n { x with latched := x.latched + 1, out := x.out ++ [f], reads := x.reads ++ gs,
                                upset := x.upset || gs.any (bankMeets (t.besideXSend x at_)) }
    else x

/-- Whether the descriptors of a feeding instruction give unpredictable results (R68, R69). -/
def badFeed (f : Feed) (a b : Desc) : Bool :=
  a.bad || b.bad || decide (32 < laneCount f.fa a) || decide (32 < laneCount f.fb b)
    || decide (sliceCount f.fa a ≠ sliceCount f.fb b)

/-- The lane words and scales of one generator for slice n of a plane; `old` holds the block's scale row, which is read
with the block's first slice (R71). -/
def readLanes (held : List (Nat × List Byte)) (f : Nat) (d : Desc) (plane n : Nat) (old : List Nat) :
    List (Nat × Nat) × List Nat :=
  let lanes := List.range (Nat.min 32 (laneCount f d))
  let row := if isMX f then
      (if n % blockSlices f = 0 then lanes.map fun l => leNat (heldBytes held (scaleAddr d l (n / blockSlices f)) 1) else old)
    else []
  (lanes.map fun l =>
    match laneSrc f d plane l n with
    | .zero => (0, 127)
    | .const => (d.padConst % 2 ^ (8 * laneBytes f), 127)
    | .mem a => (leNat (heldBytes held a (laneBytes f)), row.getD l 127), row)

/-- The slices of a period whose granules are all read. Block (0, 0) accumulates slice i five cycles after its notional feed cycle
(R72, R73); where the period's reads end later, the command that shows it waits for them (R224; log entry 11). -/
def formWords (f : Feed) (pd : Period) : Nat → Nat → Feed
  | 0, _ => f
  | n + 1, i =>
    let da := decodeDesc (f.op != .mma) f.descA
    let db := decodeDesc (f.op != .mma) f.descB
    let (a, ra) := readLanes f.held f.fa da pd.p (pd.n0 + i) f.scaleA
    let (b, rb) := readLanes f.held f.fb db pd.q (pd.n0 + i) f.scaleB
    let tp := f.roundAt f.rnd + pd.start
    let w : SliceWords := { at_ := tp + pd.cost - pd.k + i + 5, rdy := tp + pd.cost - 1, p := pd.p, q := pd.q, a := a, b := b }
    formWords { f with scaleA := ra, scaleB := rb, words := f.words ++ [w] } pd n (i + 1)

/-- The generators' reads up to cycle c, period by period, each bank its granules in ascending order (R224). -/
def latchPeriods (t : Tile) (c : Nat) : Nat → Feed → Feed
  | 0, f => f
  | n + 1, f =>
    match f.periods[f.per]? with
    | none => f
    | some pd =>
      let tp := f.roundAt f.rnd + pd.start
      if f.rb < f.rnd ∨ c < tp then f
      else
        let da := decodeDesc (f.op != .mma) f.descA
        let db := decodeDesc (f.op != .mma) f.descB
        let gs := feedGrans f.fa f.fb da db pd.p pd.q pd.n0 pd.k
        let upto := Nat.min pd.cost (c - tp + 1)
        let new := (gs.filter fun g => decide (f.off ≤ bankRank gs g) && decide (bankRank gs g < upto)).map fun g =>
          (g, t.portRead (t.besideFeed f (tp + bankRank gs g)) (tp + bankRank gs g) f.draw (32 * g) 32)
        let met := new.any fun h => bankMeets (t.besideFeed f (tp + bankRank gs h.1)) h.1
        let f1 := { f with off := upto, held := f.held ++ new, reads := f.reads ++ new.map Prod.fst, upset := f.upset || met }
        if upto < pd.cost then f1
        else
          let f2 := if f.closed then f1 else formWords f1 pd pd.k 0
          let last := decide (f.per + 1 = f.periods.length)
          latchPeriods t c n { f2 with per := if last then 0 else f.per + 1, rnd := if last then f.rnd + 1 else f.rnd,
                                       off := 0, held := [] }

/-- A feeding instruction's reads up to cycle c: descriptors, then operands (R67, R74). -/
def latchFeed (t : Tile) (c : Nat) (f : Feed) : Feed :=
  let besideA (x : Nat) : List Nat := granOf (f.db + 32 * (x - f.issue)) :: t.besideFeed f x
  let besideB (x : Nat) : List Nat := granOf (f.da + 32 * (x - f.issue)) :: t.besideFeed f x
  let (p, a) := latchParts t besideA f.draw c f.da 4 f.issue f.parts f.descA
  let (_, b) := latchParts t besideB f.draw c f.db 4 f.issue f.parts f.descB
  let f1 := { f with parts := p, descA := a, descB := b,
                     reads := f.reads ++ partGrans f.da f.parts p ++ partGrans f.db f.parts p,
                     upset := f.upset || partsMeet besideA f.issue f.da f.parts p || partsMeet besideB f.issue f.db f.parts p }
  let f2 := if p = 4 ∧ f1.periods = [] then
      let (ps, n) := roundPeriods (f.op == .mma) f.fa f.fb (decodeDesc (f.op != .mma) a) (decodeDesc (f.op != .mma) b)
      { f1 with periods := ps, span := n }
    else f1
  latchPeriods t c (f2.periods.length * (f2.rb + 1) + 1) f2

/-- The last feed cycle tL (R190); while a descriptor is still being read, from what memory holds. -/
def Tile.feedTL (t : Tile) (f : Feed) : Nat :=
  let f1 := latchFeed t (f.issue + 3) f
  f1.roundAt f1.rb + f1.span - 1

/-- The last feed cycle of the latest feeding instruction. -/
def Tile.lastTL (t : Tile) : Option Nat :=
  match t.feeds.getLast? with | some f => some (t.feedTL f) | none => t.tLast

/-- The last feed cycle of the latest feeding instruction into output tile x. -/
def Tile.accTL (t : Tile) (x : Nat) : Option Nat :=
  match (t.feeds.filter fun f => f.acc == x).getLast? with
  | some f => some (t.feedTL f)
  | none => if x = 0 then t.tAcc0 else t.tAcc1

/-- A feeding instruction that accumulates no more and has read the operands of every round leaves; its last feed cycle stays known. -/
def Tile.leaveFeed (t : Tile) (f : Feed) : Tile :=
  let tl := t.feedTL f
  let later (o : Option Nat) : Option Nat := some (Nat.max tl (o.getD tl))
  { t with feeds := t.feeds.filter (fun g => g.issue != f.issue), tLast := later t.tLast,
           tAcc0 := if f.acc = 0 then later t.tAcc0 else t.tAcc0, tAcc1 := if f.acc = 0 then t.tAcc1 else later t.tAcc1 }

/-- Whether a feeding instruction may leave: it accumulates no more, and its generators have come past its last round (R134). -/
def Feed.done (f : Feed) : Bool := f.closed && decide (f.rb < f.rnd)

/-- The feeding instructions that are done leave. -/
def Tile.leaveFeeds (t : Tile) : Tile := (t.feeds.filter Feed.done).foldl Tile.leaveFeed t

/-- A feeding instruction accumulates no more; the operands of rounds that are not needed are still read (R134). -/
def Tile.endFeed (t : Tile) (f : Feed) : Tile :=
  Tile.leaveFeeds { t with feeds := t.feeds.map fun g => if g.issue == f.issue then { f with closed := true, awaiting := false, words := [] } else g }

/-- The last cycle in which a generator-mode load or store still has a beat to run (R212, R226). -/
def Tile.genEnd (t : Tile) (op : VOp) : Nat := (latchDesc t (op.issue + 3) op).readAt (op.beats - 1)

/-- The tile with the descriptors of what is in flight as memory holds them: what its clients will use is known (R67, R221). -/
def Tile.foreseen (t : Tile) : Tile :=
  { t with feeds := t.feeds.map fun f => latchFeed t (f.issue + 3) f, vops := t.vops.map fun o => latchDesc t (o.issue + 3) o }

/-- The granules that the clients in flight have read since debug mode last looked. -/
def Tile.newReads (t : Tile) : List Nat :=
  t.feeds.flatMap (·.reads) ++ t.vops.flatMap (·.reads) ++ t.xsends.flatMap (·.reads)

/-- Whether a client in flight has met another in a bank since the tile last looked (R221). -/
def Tile.newUpset (t : Tile) : Bool := t.feeds.any (·.upset) || t.vops.any (·.upset) || t.xsends.any (·.upset)

/-- Debug mode checks the granules read (R231), and what met in a bank is noted (R221). -/
def Tile.checkReads (t : Tile) : Tile :=
  let u : Tile :=
    { t with feeds := t.feeds.map (fun f => { f with reads := [], upset := false }),
             vops := t.vops.map (fun o => { o with reads := [], upset := false }),
             xsends := t.xsends.map (fun x => { x with reads := [], upset := false }), upset := t.upset || t.newUpset }
  u.noteReads t.newReads

/-- The word that an SLD reads (R169, R221). -/
def RegWrite.word (t : Tile) (w : RegWrite) (a draw : Nat) : Word :=
  BitVec.ofNat 32 (leNat (t.portRead (t.foreseen.readsAt (w.at_ - 3)) (w.at_ - 3) draw a 4))

/-- Whether an SLD meets another read in its bank (R221). -/
def RegWrite.meets (t : Tile) (w : RegWrite) (a : Nat) : Bool := bankMeets (t.foreseen.readsAt (w.at_ - 3)) (granOf a)

/-- The SLDs that read in a cycle up to c have their words (R169, R218). -/
def Tile.latchWords (t : Tile) (c : Nat) : Tile :=
  { t with
    regWrites := t.regWrites.map fun w => match w.load with
      | some (a, draw) => if w.at_ ≤ c + 3 then { w with value := w.word t a draw, load := none } else w
      | none => w
    upset := t.upset || t.regWrites.any fun w => match w.load with
      | some (a, _) => decide (w.at_ ≤ c + 3) && w.meets t a
      | none => false }

/-- Every read of tile memory that falls in a cycle up to c: descriptors first, then operands, loads and XSENDs, and the words of SLDs
(R67, R169, R180, R211). -/
def Tile.latchMem (t : Tile) (c : Nat) : Tile :=
  let t1 : Tile := { t with feeds := t.feeds.map (fun f => latchFeed t (Nat.min c (f.issue + 3)) f), vops := t.vops.map (latchDesc t c) }
  let t2 : Tile :=
    { t1 with
      feeds := t1.feeds.map (latchFeed t1 c),
      vops := t1.vops.map (fun op => if op.kind = .ld then latchLoads t1 c (op.beats + 1) op else op),
      xsends := t1.xsends.map (latchFlits t1 c 17),
      regWrites := (t1.latchWords c).regWrites, upset := (t1.latchWords c).upset }
  t2.checkReads.leaveFeeds

/-- The register reads of generator-mode stores that fall in a cycle up to c (R226). -/
def Tile.latchGen (t : Tile) (c : Nat) : Tile :=
  t.vops.foldl (fun u op =>
    if op.kind = .st ∧ op.gen then
      let (o, ws) := latchStores u c (op.beats + 1) (latchDesc u c op, [])
      ws.foldl Tile.store { u with vops := u.vops.map fun p => if p.issue == op.issue then o else p }
    else u) t

/-- Every read of a vector register that falls in a cycle up to c (R145). -/
def Tile.latchVec (t : Tile) (c : Nat) : Tile :=
  { (t.latchGen c) with
    vops := (t.latchGen c).vops.map fun op =>
      if op.kind = .ld ∨ (op.kind = .st ∧ op.gen) then op else latchBeats t c (op.beats + 1) op }

/-- Stores that are due by cycle c, each after the reads of earlier cycles (R169, R218). -/
def settleMem (c : Nat) : List MemWrite → Tile → Tile
  | [], t => { t with memWrites := [] }
  | w :: ws, t =>
    if w.at_ ≤ c then
      settleMem c ws (((t.latchMem (w.at_ - 1)).portWrite w.at_ w.rank w.draw w.addr w.data).noteWrites (rangeGrans w.addr w.data.length))
    else { t with memWrites := w :: ws }

/-- The tile with everything due by cycle c in effect. -/
def Tile.upTo (t : Tile) (c : Nat) : Tile :=
  let u := (t.settleEffects c).latchGen (c - 1)
  let v := (settleMem c u.memWrites u).latchWords (c - 3)
  settleRegs c v.regWrites v

/-- The tile just before the writes of cycle c to its memory: with what is due, and the reads of earlier cycles (R218). -/
def Tile.toWrite (t : Tile) (c : Nat) : Tile := (t.upTo c).latchMem (c - 1)

/-- A write of tile memory in cycle c that has waited for its free port (R45, R254). -/
def Tile.writeMem (t : Tile) (c a : Nat) (data : List Byte) : Tile :=
  let t1 := t.toWrite c
  { t1 with mem := memPut t1.mem a data }.usePort
    { cycle := c, write := true, rank := issueRank c 0, addr := a % 2 ^ 21, len := data.length }

/-- Vector register writes at the end of cycle c, after the register reads of c (R145, R147). The reads of tile memory in c itself come
later: they return what c writes (R218). -/
def Tile.writeVec (t : Tile) (c : Nat) (ws : List VWrite) : Tile :=
  ws.foldl (fun t w => t.vput w.reg w.bit w.width w.value) (((t.upTo c).latchMem (c - 1)).latchVec c)

/-! ### Latency of a unit's clock -/

/-- The last bundle of the innermost loop body has issued without a taken branch (R171). -/
def Tile.backEdgeDue (t : Tile) : Bool :=
  t.fell && (match t.loops with | [] => false | l :: _ => l.last + 16 == t.pc)

/-- An ACTIVE tile that neither waits nor stalls, whose back-edge is done, has a bundle to issue (R25, R164). -/
def Tile.hasBundle (t : Tile) : Bool :=
  t.pwr == .active && !t.halted && t.stall == .none && !t.backEdgeDue && (t.phase == .compute || t.phase == .exchange)

/-- A slot command issues on a tile of a running job. -/
def canIssue (s : State) (x : Site) : Bool := s.dev == .run && (s.tile x).hasBundle

/-- In the cycle in which the job faults, a bundle of the same cycle still meets its issue faults: both are recorded (R244). -/
def canFault (s : State) (x : Site) : Bool :=
  s.dev == .faulted && (s.tile x).hasBundle && (match s.rgs.fault with | some f => f.at_ == (s.tile x).now | none => false)

/-- A tile whose exchange phase has run its length computes (R22). -/
def Tile.phaseAt (t : Tile) (c : Nat) : Phase :=
  if t.phase == .exchange && t.exEnd ≤ c then .compute else t.phase

/-- Tile `x` in the issue cycle of its bundle: everything due by then in effect (R163). -/
def issueTile (s : State) (x : Site) : Tile :=
  let c := (s.tile x).now
  let t := (s.tile x).upTo c
  { t with phase := t.phaseAt c }

/-- The state in the issue cycle of tile `x`'s bundle. -/
def issueState (s : State) (x : Site) : State := (toCycle s (s.tile x).now).setTile x (issueTile s x)

/-- Close the bundle: the next one issues a cycle later (R41), at the next address, unless a branch has set both or a queue
instruction stalls: then its other slots wait with it (R164). -/
def Tile.closeBundle (t : Tile) : Tile :=
  match t.stall with
  | .none => { t with now := t.now + 1, pc := (t.pc + 16) % 2 ^ 21, fell := true, bundle := Bundle.empty }
  | .jump => { t with stall := .none, bundle := Bundle.empty }
  | _ => t

/-- The bundle with a matrix or vector command in its slot. -/
def Tile.holdSlot (t : Tile) (k : SlotKind) (i : Instr) : Tile :=
  let b := { t.bundle with undo := some (t.bundle.undo.getD t.undoHere) }
  { t with bundle := match k with
      | .matrix => { b with matrix := some i }
      | .vector => { b with vector := some i }
      | .control => b }

/-- Whether a bundle has its matrix or vector command already: one issues per bundle (R41, R144). -/
def Tile.slotTaken (t : Tile) (k : SlotKind) : Bool :=
  match k with
  | .matrix => t.bundle.matrix.isSome
  | .vector => t.bundle.vector.isSome
  | .control => false

/-- A matrix or vector command of the bundle that is issuing (R41, R163): it begins, unless a condition of R185 holds for it or for
an earlier slot. The command that fills the control slot closes the bundle (log entry 3). -/
def beginSlot (s : State) (x : Site) (k : SlotKind) (i : Instr) (code : State → Tile → Option Nat)
    (effect : State → Tile → State) : State :=
  if (canIssue s x || canFault s x) && !(s.tile x).slotTaken k then
    let t := (issueTile s x).holdSlot k i
    let s1 := (issueState s x).setTile x t
    match code (issueState s x) (issueTile s x), t.bundle.fault with
    | some c, f => s1.setTile x { t.unissued with bundle := { t.bundle with fault := lowerCode (some c) f, undo := none } }
    | none, some _ => s1
    | none, none => if s.dev == .run then effect s1 t else s1
  else s

/-- The command of the control slot: the bundle faults with the lowest code that any of its slots has met (R185), or this slot has
its effect; the bundle closes. -/
def closeSlot (s : State) (x : Site) (code : State → Tile → Option Nat) (effect : State → Tile → State) : State :=
  if canIssue s x || canFault s x then
    let t := issueTile s x
    let s1 := issueState s x
    match lowerCode (code s1 t) t.bundle.fault with
    | some c => (issueFault s1 x c).onTile x Tile.closeBundle
    | none => if s.dev == .run then (effect s1 t).onTile x Tile.closeBundle else s
  else s

/-- A queue instruction of the control slot, which may stall: then every slot of its bundle waits, and what the others have begun, or
the faults they have met, count only in the cycle in which it retires (R164). -/
def closeOrStall (s : State) (x : Site) (code : State → Tile → Option Nat) (stall : Tile → Option Stall)
    (effect : State → Tile → State) : State :=
  match stall (issueTile s x), code (issueState s x) (issueTile s x) with
  | some st, none =>
    if canIssue s x then
      let t := (issueTile s x).unissued
      (issueState s x).setTile x { t with stall := st, bundle := { t.bundle with fault := none } }
    else s
  | _, _ => closeSlot s x code effect

/-! ### Fenced tiles (R264, R266) -/

/-- A flit that a fenced tile's local output discards: counted, the first recorded by VC, plane and source. -/
def fencedFlit (s : State) (node : Site) (vc plane src : Nat) : State :=
  let s1 := satAdd s rXNW_FDROP 0 32 1
  if regFld s rXNW_FFIRST 31 1 = 1 then s1
  else
    let w := node % 2 ^ 12 + vc * 2 ^ 12 + plane * 2 ^ 16 + src % 2 ^ 12 * 2 ^ 17 + 2 ^ 31
    setIstat (setReg s1 rXNW_FFIRST (BitVec.ofNat 32 w)) (Block.xnw.page 0) 1

/-- The site that stands for the edge port of a tile's column: rows 0 to 16 use the north one, the others the south one (R248, R266). -/
def edgeSite (x : Site) : Site := siteIndex (siteHalf x) (siteCol x) (if siteRow x ≤ 16 then 0 else 32)

/-- Run-time flits that return to a fenced tile on VC 11 are discarded and counted (R249, R264). -/
def fencedReturn (s : State) (x : Site) (n : Nat) : State :=
  (List.range n).foldl (fun s _ => fencedFlit s x 11 1 (edgeSite x)) s

/-! ### Requests -/

/-- The requests of queue q, oldest first (R29). -/
def Tile.queue (t : Tile) (q : Nat) : List Request := SMap.get [] t.queues q

/-- Put a queue back. -/
def Tile.setQueue (t : Tile) (q : Nat) (rs : List Request) : Tile := { t with queues := SMap.set [] t.queues q rs }

/-- A request by its queue and number. -/
def Tile.request (t : Tile) (q id : Nat) : Option Request := (t.queue q).find? fun r => r.id == id

/-- Change a request. -/
def Tile.setRequest (t : Tile) (q : Nat) (r : Request) : Tile :=
  t.setQueue q ((t.queue q).map fun x => if x.id == r.id then r else x)

/-- Precedence of outcomes that fall due in one cycle (R177). -/
def ReqOutcome.rank (o : ReqOutcome) : Nat :=
  match o with
  | .lapsed => 0 | .poison => 1 | .done => 2

/-- Whether a request may still post an outcome in cycle c: none is posted, or one of lower precedence in that cycle (R177). -/
def Request.mayPost (r : Request) (o : ReqOutcome) (c : Nat) : Bool :=
  match r.posted with
  | none => true
  | some (p, d) => d == c && decide (p.rank < o.rank)

/-- Post an outcome in cycle c (R176, R177). -/
def Tile.post (t : Tile) (q id : Nat) (o : ReqOutcome) (c : Nat) : Tile :=
  match t.request q id with
  | some r => if r.mayPost o c then t.setRequest q { r with posted := some (o, c) } else t
  | none => t

/-- LAPSED-POISON due on a request with an effective NOLAPSE of 1 (R177, R185): code 0x13 with the QREQ's address, and
the job faults with reason NOLAPSE_POISON. -/
def nolapsePoison (s : State) (x : Site) (r : Request) : State :=
  raiseFault (s.onTile x fun t => { t with ifault := ifaultWord 0x13 r.pc }) 5 0 x

/-- Whether a granule of a request is still wanted: its outcome has not been posted (R177). -/
def Tile.wants (t : Tile) (q id : Nat) : Bool :=
  match t.request q id with
  | some r => r.posted.isNone
  | none => false

/-- Whether `lacks` granules are all that a receiver still lacks, all wait in the landing buffer and can be written in cycle c. -/
def Tile.finishes (t : Tile) (mine : Owner → Bool) (lacks c : Nat) : Bool :=
  let gs := (t.landing.filter fun l => mine l.owner).map fun l => granOf l.addr
  gs.length == lacks && (gs.map (· % 14)).eraseDups.length == gs.length && gs.all fun g => bankFree (t.putsAt c ++ planAt (t.arrivalPlan c).puts c) g

/-- Whether a landing granule is a request's. -/
def Owner.isRequest (o : Owner) (q id : Nat) : Bool :=
  match o with
  | .req p i => p == q && i == id
  | .stream _ p i => p == q && i == id
  | .loan _ => false

/-- Whether every granule that a request still lacks waits in the landing buffer and can be written in cycle c. -/
def Tile.completesAt (t : Tile) (q id c : Nat) (r : Request) : Bool := t.finishes (·.isRequest q id) (r.len + 1 - r.landed) c

/-- Whether a granule written in cycle c is still wanted: nothing is posted; or an outcome of lower precedence than DONE fell due in c
itself, and the request completes in c (R177). Bytes that would enter in the lapse cycle of a request that stays incomplete are
discarded. -/
def Tile.wantsAt (t : Tile) (q id c : Nat) : Bool :=
  match t.request q id with
  | some r => r.posted.isNone || (r.mayPost .done c && t.completesAt q id c r)
  | none => false

/-- Granules of a request (R174). -/
def Request.grans (r : Request) : Nat := r.len + 1

/-- A granule enters the landing buffer, remote writes after the window check in the windows in force (R45, R234, R236); a stream's
granule that is no more wanted enters too, and is discarded there (R328). Gives the tile, and the address and source of a violation. -/
def Tile.enterLanding (t : Tile) (l : Landing) : Tile × Option (Nat × Nat × Nat) :=
  match l.owner with
  | .req q id => (if t.wants q id then { t with landing := t.landing ++ [l] }.setSlip l.slip
      { t.slip l.slip with flight := (t.slip l.slip).flight + 1 } else t, none)
  | .loan _ =>
    match t.remoteTarget l.win l.off with
    | some a => ({ t with landing := t.landing ++ [{ l with addr := a }] }.setSlip l.slip
        { t.slip l.slip with flight := (t.slip l.slip).flight + 1 }, none)
    | none => (t, some (t.remoteRecord l.win l.off, l.win, 1))
  | .stream _ q id =>
    if !t.wants q id || t.anyWindow l.addr then ({ t with landing := t.landing ++ [l] }.setSlip l.slip
        { t.slip l.slip with flight := (t.slip l.slip).flight + 1 }, none)
    else (t, some (l.addr, 0, 2))

/-- The slip a landing granule is sent against: its queue's, or the one bound to its source (R236). -/
def Tile.slipOf (t : Tile) (l : Landing) : Option Nat :=
  match l.owner with
  | .req q _ => some q
  | .loan _ => t.boundSlip 0x0100
  | .stream n _ _ => t.boundSlip (0x0200 + n)

/-- Granules on their way enter the landing buffer, in order within each slip, while F < A (R236). -/
def pumpFrom (x : Site) : Nat → List Landing → State → State
  | 0, _, s => s
  | _, [], s => s
  | n + 1, l :: rest, s =>
    let t := s.tile x
    match t.slipOf l with
    | none => pumpFrom x n rest s
    | some c =>
      if (t.slip c).flight < (t.slip c).allot && !(t.transit.takeWhile (· != l)).any (fun m => t.slipOf m == some c) then
        let (t1, v) := { t with transit := t.transit.erase l }.enterLanding { l with slip := c }
        let s1 := s.setTile x t1
        pumpFrom x n rest (match v with | some (a, w, src) => windowViolation s1 x a w src | none => s1)
      else pumpFrom x n rest s

/-- Move what the call slips allow from transit into the landing buffer, under the windows and the slips in force (R234, R236, R244). -/
def pump (s : State) (x : Site) : State :=
  if (s.tile x).transit.isEmpty then s
  else pumpFrom x (s.tile x).transit.length (s.tile x).transit (s.onTile x fun t => t.settleEffects s.cycle)

/-- Granules of one source set out towards a tile, in flits of up to four (R247); at a fenced tile they are discarded (R264). -/
def sendTo (s : State) (x : Site) (ls : List Landing) : State :=
  if (s.tile x).pwr = .fenced then fencedReturn s x ((ls.length + 3) / 4)
  else pump (s.onTile x fun t => { t with transit := t.transit ++ ls }) x

end Sys2Proof.Machine
end

