-- ==== Sys2Proof/Machine/Control.lean ====
section
/-! DEFINITION. The control slot but for its queue instructions (R159 to R173, R179 to R183, R216). -/

namespace Sys2Proof.Machine

/-! ### NOP and HALT -/

/-- The opcode of a slot's bits (R159). -/
def slotOpcode (slot : SlotKind) (w : BitVec 48) : Nat := match slot with | .control => fld w 26 6 | _ => fld w 43 5

/-- The bits of a slot below its opcode. -/
def slotRest (slot : SlotKind) (w : BitVec 48) : Nat := match slot with | .control => fld w 0 26 | _ => fld w 0 43

/-- Whether R166 or R167 assigns an opcode of a slot, VEXT apart. -/
def opcodeAssigned (slot : SlotKind) (op : Nat) : Bool :=
  match slot with
  | .control => [0x00, 0x01, 0x02, 0x03, 0x08, 0x09, 0x0A, 0x0B, 0x0C, 0x0D, 0x10, 0x11, 0x14, 0x15, 0x16, 0x18, 0x19, 0x1C].contains op
  | .matrix => decide (op ≤ 5)
  | .vector => decide (op ≤ 0x0A) || (decide (0x10 ≤ op) && decide (op ≤ 0x16)) || op == 0x18 || op == 0x19 || op == 0x1C

/-- The opcode of VEXT. -/
def opVEXT : Nat := 0x3F

/-- Issue faults of a slot that holds no instruction (R160, R161, R167, R185): an opcode not assigned, a bit of a NOP that is not 0,
VEXT in a bundle whose vector slot is a NOP. -/
def nopCode (slot : SlotKind) (w : BitVec 48) : Option Nat :=
  let op := slotOpcode slot w
  firstCode [(!opcodeAssigned slot op && !(slot == .control && op == opVEXT), 1), (op == 0 && slotRest slot w != 0, 2),
    (slot == .control && op == opVEXT, 3)]

/-- NOP (R160): opcode 0 in a slot. A slot whose opcode is assigned to an instruction spells another command. -/
def execNop (site : Site) (slot : SlotKind) (w : BitVec 48) (s : State) : Host.Outcome State Fault Refusal :=
  .next (if slotOpcode slot w != 0 && opcodeAssigned slot (slotOpcode slot w) then s
    else match slot with
      | .control => closeSlot s site (fun _ _ => nopCode .control w) (fun s _ => s)
      | k => beginSlot s site k (.nop site k w) (fun _ _ => nopCode k w) (fun s _ => s))

/-- HALT (R183): code 0x10 in an exchange phase (R25); no later bundle issues. -/
def execHalt (site : Site) (w : BitVec 26) (s : State) : Host.Outcome State Fault Refusal :=
  .next (closeSlot s site (fun _ t => firstCode [(w != 0, 2), (t.phase == .exchange, 0x10)])
    (fun s _ => s.onTile site fun t => { t with phase := .halting, fell := false }))

/-- Whether everything a halting tile has issued is finished and its queues have completed (R32, R183). -/
def Tile.quiet (t : Tile) : Bool :=
  t.feeds.isEmpty && t.drains.isEmpty && t.vops.isEmpty && t.queues.all fun p => p.2.all fun r => r.posted.isSome

/-- What a halted tile leaves without a partner on a stream (R329): an SSEND to it, an SRECV of this device without a deadline or with
NOLAPSE from it, or such an SRECV of another device, whose ready message names it. -/
def unmatchedOn (s : State) (x : Site) (n : Nat) (st : Stream) : List (Nat × Nat) :=
  let m := Nat.min st.sends.length st.recvs.length
  (if st.recvSite = some x ∧ m < st.sends.length then (((st.sends.drop m).take 1).map fun e => (n, e.site)) else [])
    ++ (if st.sendSite = some x then
          ((st.recvs.drop m).filterMap fun e =>
            match (s.tile e.site).request e.q e.id with
            | some r => if r.deadline = 0 ∨ r.nolapse then some (n, e.site) else none
            | none => none).take 1
        else [])
    ++ ((st.asks.drop st.sends.length).filterMap fun a =>
          if a.2 && placedSite s a.1 == some x then some (n, x) else none).take 1

/-- Streams that a halted tile leaves without a partner (R329), each with the site of the request. -/
def streamUnmatched (s : State) (x : Site) : List (Nat × Nat) := s.streams.flatMap fun (n, st) => unmatchedOn s x n st

/-- The job faults for what a halted tile leaves unmatched on the streams of a test (R329). -/
def faultUnmatched (s : State) (p : Nat → Bool) (x : Site) : State :=
  if (s.tile x).halted then
    ((streamUnmatched s x).filter fun u => p u.1).foldl (fun s u => raiseFault s 0x12 (u.1 % 256) u.2) s
  else s

/-- The cycle in which a halting tile can be done: after its HALT, and after the last read of what it feeds (R134, R183). -/
def haltCycle (s : State) (t : Tile) : Nat := Nat.max (Nat.max s.cycle (t.now + 1)) (t.lastTL.getD 0 + 1)

/-- HALT_COMPLETE (R32, R183): the tile sets HALTED, its outcomes are discarded, and a stream that it leaves without a
partner faults the job (R329). The Registrar measures the last superstep to it (R37). -/
def execHaltComplete (site : Site) (s : State) : Host.Outcome State Fault Refusal :=
  let c := haltCycle s (s.tile site)
  let t := ((s.tile site).upTo c).latchMem (c - 1)
  .next (if s.dev == .run && t.phase == .halting && !t.halted && t.quiet then
    let s1 := (toCycle s c).putTile site { t with halted := true, queues := [], outcomes := [] }
    faultUnmatched { s1 with rgs := { s1.rgs with haltedAt := Nat.max s1.rgs.haltedAt c } } (fun _ => true) site
  else s)

/-! ### Branches and loops -/

/-- Whether BR's condition holds (R170). -/
def brTaken (cond : Nat) (v : Word) : Bool :=
  let x := v.toInt
  match cond with
  | 0 => true
  | 1 => x == 0
  | 2 => x != 0
  | 3 => decide (x < 0)
  | 4 => decide (0 ≤ x)
  | 5 => decide (0 < x)
  | _ => decide (x ≤ 0)

/-- BR's target (R170). -/
def brTarget (t : Tile) (w : BitVec 26) : Nat :=
  if bit w 17 then fld (t.areg (fld w 13 4)) 4 17 * 16 else addr21 (Int.ofNat t.pc + 16 * sfld w 0 17)

/-- Whether a bundle address lies in a loop's body. -/
def LoopRec.holds (l : LoopRec) (a : Nat) : Bool := decide (l.first ≤ a) && decide (a ≤ l.last)

/-- Whether the loop buffer supplies a bundle: it holds the most recently started loop, of at most 64 bundles, from the
end of the first iteration (R173; `count` of `loopBuf` is 1 from then on). It holds the body from the first back-edge: a taken BR in
the last bundle of the first iteration still finds it empty (DESIGN CHOICE, log entry 106). -/
def Tile.buffered (t : Tile) (a : Nat) : Bool :=
  match t.loopBuf with
  | some l => l.count == 1 && l.holds a
  | none => false

/-- BR's issue faults (R161, R170). -/
def brCode (t : Tile) (w : BitVec 26) : Option Nat :=
  let cond := fld w 23 3
  let sa := fld w 18 5
  firstCode [(cond == 7 || (cond == 0 && sa != 0) || (bit w 17 && fld w 0 13 != 0), 2),
    (brTaken cond (t.sreg sa) && decide (tileTop ≤ brTarget t w), 0x0D)]

/-- A taken branch ends the loops whose bodies do not hold its target, and issues there (R170, R173). -/
def Tile.branchTo (t : Tile) (target : Nat) : Tile :=
  let cost := if t.buffered target then 0 else 2
  let loops := t.loops.filter fun l => l.holds target
  { t with pc := target, now := t.now + 1 + cost, loops := loops, fell := false,
           loopBuf := match t.loopBuf with
             | some b => if loops.any (fun l => l.first == b.first && l.last == b.last) then some b else none
             | none => none }

/-- BR (R170). The effect leaves pc and cycle one bundle back, since closing the bundle moves them on. -/
def execBr (site : Site) (w : BitVec 26) (s : State) : Host.Outcome State Fault Refusal :=
  .next (closeSlot s site (fun _ t => brCode t w)
    (fun s t =>
      if brTaken (fld w 23 3) (t.sreg (fld w 18 5)) then
        s.setTile site { (t.branchTo (brTarget t w)) with stall := .jump }
      else s))

/-- The body that a LOOP starts: first and last bundle (R171). -/
def loopBody (t : Tile) (w : BitVec 26) : Nat × Nat := (t.pc + 16, t.pc + 16 * (fld w 14 12 + 1))

/-- LOOP's issue faults (R161, R172). -/
def loopCode (t : Tile) (w : BitVec 26) : Option Nat :=
  let (_, last) := loopBody t w
  firstCode [(bit w 13 && fld w 0 8 != 0, 2),
    (decide (4 ≤ t.loops.length) || t.loops.any (fun l => decide (l.last < last)), 0x0C)]

/-- LOOP (R171 to R173). A count of 0 skips the body. -/
def execLoop (site : Site) (w : BitVec 26) (s : State) : Host.Outcome State Fault Refusal :=
  .next (closeSlot s site (fun _ t => loopCode t w)
    (fun s t =>
      let (first, last) := loopBody t w
      let n := if bit w 13 then (t.sreg (fld w 8 5)).toNat else fld w 0 13 + 1
      if n = 0 then s.setTile site { t with pc := (last + 16) % 2 ^ 21, now := t.now + 3, fell := false, stall := .jump }
      else s.setTile site { t with loops := { first := first, last := last, count := n } :: t.loops,
                                   loopBuf := some { first := first, last := last, count := 0 } }))

/-- LOOP_BACK_EDGE (R171, R173): the last bundle of the innermost body has retired without a taken branch. -/
def execLoopBackEdge (site : Site) (s : State) : Host.Outcome State Fault Refusal :=
  let t := s.tile site
  .next (match t.loops with
    | [] => s
    | l :: rest =>
      if s.dev == .run && t.pwr == .active && t.backEdgeDue then
        let mine := match t.loopBuf with | some b => b.first == l.first && b.last == l.last | none => false
        let fits := mine && decide (l.last - l.first < 64 * 16)
        if 1 < l.count then
          s.setTile site { t with loops := { l with count := l.count - 1 } :: rest, pc := l.first, fell := false,
                                  loopBuf := if fits then some { l with count := 1 } else t.loopBuf,
                                  now := t.now + (if fits then 0 else 2) }
        else s.setTile site { t with loops := rest, loopBuf := if mine then none else t.loopBuf }
      else s)

/-! ### Scalar and address operations -/

/-- SALU's operation (R168). -/
def saluOp (fn : Nat) (a b : Word) : Word :=
  let sh := b.toNat % 32
  match fn with
  | 0 => a + b
  | 1 => a - b
  | 2 => a &&& b
  | 3 => a ||| b
  | 4 => a ^^^ b
  | 5 => a <<< sh
  | 6 => a >>> sh
  | 7 => a.sshiftRight sh
  | 8 => a * b
  | 9 => if a.slt b then 1 else 0
  | 10 => if a.ult b then 1 else 0
  | 11 => if b.slt a then b else a
  | _ => if a.slt b then b else a

/-- SALU's FN of a SALUI FN (R168). -/
def saluiFn (fn : Nat) : Nat :=
  match fn with
  | 0 => 0 | 1 => 2 | 2 => 3 | 3 => 4 | 4 => 5 | 5 => 6 | 6 => 7 | 7 => 9 | 8 => 10 | _ => 8

/-- Latency of a scalar operation: 3 for MUL, else 1 (R184). -/
def saluLat (fn : Nat) : Nat := if fn = 8 then 3 else 1

/-- SALU (R168). -/
def execSalu (site : Site) (w : BitVec 26) (s : State) : Host.Outcome State Fault Refusal :=
  .next (closeSlot s site (fun _ _ => firstCode [(fld w 0 6 != 0 || decide (12 < fld w 6 5), 2)])
    (fun s t =>
      let fn := fld w 6 5
      s.setTile site (t.writeReg (t.now + saluLat fn) (.s (fld w 21 5)) (saluOp fn (t.sreg (fld w 16 5)) (t.sreg (fld w 11 5))))))

/-- SALUI (R168). -/
def execSalui (site : Site) (w : BitVec 26) (s : State) : Host.Outcome State Fault Refusal :=
  .next (closeSlot s site (fun _ _ => firstCode [(decide (9 < fld w 12 4), 2)])
    (fun s t =>
      let fn := saluiFn (fld w 12 4)
      s.setTile site (t.writeReg (t.now + saluLat fn) (.s (fld w 21 5))
        (saluOp fn (t.sreg (fld w 16 5)) (BitVec.ofInt 32 (sfld w 0 12))))))

/-- SLI (R168). -/
def execSli (site : Site) (w : BitVec 26) (s : State) : Host.Outcome State Fault Refusal :=
  .next (closeSlot s site (fun _ _ => firstCode [(fld w 16 4 != 0, 2)])
    (fun s t =>
      let sd := fld w 21 5
      let imm := fld w 0 16
      let v := if bit w 20 then imm * 2 ^ 16 + (t.sreg sd).toNat % 2 ^ 16 else imm
      s.setTile site (t.writeReg (t.now + 1) (.s sd) (BitVec.ofNat 32 v))))

/-- AOP (R168). -/
def execAop (site : Site) (w : BitVec 26) (s : State) : Host.Outcome State Fault Refusal :=
  .next (closeSlot s site
    (fun _ _ => firstCode [(match fld w 24 2 with | 0 => false | 3 => true | _ => fld w 0 15 != 0, 2)])
    (fun s t =>
      s.setTile site (match fld w 24 2 with
        | 0 => t.writeReg (t.now + 1) (.a (fld w 20 4)) (t.areg (fld w 16 4) + BitVec.ofInt 32 (sfld w 0 16))
        | 1 => t.writeReg (t.now + 1) (.a (fld w 20 4)) (t.sreg (fld w 15 5))
        | _ => t.writeReg (t.now + 1) (.s (fld w 19 5)) (t.areg (fld w 15 4)))))

/-- The address of SLD and SST: AA + 4 × OFF, modulo 2²¹, bits [1:0] ignored (R169). -/
def ldstAddr (t : Tile) (w : BitVec 26) : Nat :=
  addr21 (Int.ofNat (t.areg (fld w 17 4)).toNat + 4 * sfld w 0 16) / 4 * 4

/-- INC of SLD and SST (R169). -/
def ldstInc (t : Tile) (w : BitVec 26) : Tile :=
  if bit w 16 then
    t.writeReg (t.now + 1) (.a (fld w 17 4)) (t.areg (fld w 17 4) + BitVec.ofInt 32 (4 * sfld w 0 16))
  else t

/-- SLD (R169): its read takes the bank's port in the issue cycle and returns everything that is written in it, by whichever command
(R218, R221, R244); the word is readable three cycles later. -/
def execSld (site : Site) (w : BitVec 26) (s : State) : Host.Outcome State Fault Refusal :=
  .next (closeSlot s site (fun _ _ => none)
    (fun s t =>
      let a := ldstAddr t w
      (drew s 1).putTile site (((ldstInc t w).loadReg t.now (fld w 21 5) a s.free).noteReads (rangeGrans a 4))))

/-- SST (R169): the word is written in the cycle after issue. -/
def execSst (site : Site) (w : BitVec 26) (s : State) : Host.Outcome State Fault Refusal :=
  .next (closeSlot s site (fun _ _ => none)
    (fun s t => (drew s 1).setTile site ((ldstInc t w).store
      { at_ := t.now + 1, rank := issueRank t.now 1, draw := s.free, addr := ldstAddr t w,
        data := natLe 4 (t.sreg (fld w 21 5)).toNat })))

/-! ### Bell -/

/-- BELL (R20, R22, R179): the tile waits at the bell. -/
def execBell (site : Site) (w : BitVec 26) (s : State) : Host.Outcome State Fault Refusal :=
  .next (closeSlot s site (fun _ t => firstCode [(fld w 16 10 != 0, 2), (t.phase == .exchange, 0x10)])
    (fun s t => s.setTile site { t with phase := .waiting, bellL := fld w 0 16, bellAt := t.now, arrived := none }))

/-! ### Exchange -/

/-- Fields of the destination word: tile number, window, offset, plane (R180). Bit [31], which R180 gives as 0, is ignored where it is
set (DESIGN CHOICE, log entry 107). -/
def xsendDest (v : Word) : Nat × Nat × Nat × Nat := (fld v 0 11, fld v 11 3, fld v 14 16, fld v 30 1)

/-- XSEND's issue faults (R161, R180, R185). -/
def xsendCode (s : State) (t : Tile) (w : BitVec 26) : Option Nat :=
  let beats := ceilDiv (fld w 12 6 + 1) 4
  let (n, _, _, _) := xsendDest (t.areg (fld w 18 4))
  firstCode [(fld w 0 5 != 0 || (fld w 8 2 == 0 && fld w 5 3 != 0), 2), (decide (t.now < t.xFree), 7),
    (t.phase != .exchange || decide (t.exEnd < t.now + beats) || (placedSite s n).isNone, 0x10)]

/-- The header of XSEND's flits (R180, R247 to R249). -/
def xsendFlit (s : State) (site : Site) (t : Tile) (w : BitVec 26) : Flit :=
  let (n, win, off, plane) := xsendDest (t.areg (fld w 18 4))
  let addf := fld w 8 2
  { src := site, dst := (placedSite s n).getD 0, win := win, off := off, plane := plane,
    vc := if addf = 0 then 8 else fld w 5 3, pri := fld w 10 2, addf := addf, rg := fld w 5 3, data := [], ready := 0 }

/-- The source address of XSEND, 32 B aligned. -/
def xsendSrc (t : Tile) (w : BitVec 26) : Nat := fld (t.areg (fld w 22 4)) 5 16 * 32

/-- XSEND (R180): reads and injects 128 B a cycle from its issue cycle on. -/
def execXsend (site : Site) (w : BitVec 26) (s : State) : Host.Outcome State Fault Refusal :=
  .next (closeSlot s site (fun s t => xsendCode s t w)
    (fun s t =>
      let len := fld w 12 6 + 1
      let x : XSend := { issue := t.now, src := xsendSrc t w, len := len, flit := xsendFlit s site t w, draw := s.free,
                         latched := 0, reads := [], upset := false, out := [] }
      (drew s 1).setTile site { t with xsends := t.xsends ++ [x], xFree := t.now + ceilDiv len 4 }))

/-- XRECV (R181): in debug mode every granule of the range that has received no exchange arrival is hazard 4. -/
def execXrecv (site : Site) (w : BitVec 26) (s : State) : Host.Outcome State Fault Refusal :=
  .next (closeSlot s site (fun _ t => firstCode [(fld w 16 6 != 0, 2), (t.phase != .exchange, 0x10)])
    (fun s t =>
      if debugJob s then
        (rangeGrans (fld (t.areg (fld w 22 4)) 5 16 * 32) (32 * (fld w 0 16 + 1))).foldl (fun s g =>
          if SMap.get false (s.tile site).granArrived g then s else hazard s 4 site (32 * g)) s
      else s))

/-! ### Windows, call slips, census -/

/-- Address field of WOPEN: bits [20:5] (R232). -/
def wopenAddr (v : Word) : Nat := fld v 5 16 * 32

/-- The window that WOPEN makes (R232). -/
def wopenWindow (t : Tile) (w : BitVec 26) : Window :=
  if bit w 14 then Window.closed
  else { isOpen := true, base := wopenAddr (t.areg (fld w 19 4)), bound := Nat.min (wopenAddr (t.areg (fld w 15 4))) tileTop }

/-- Whether two windows share a granule. -/
def Window.meets (a b : Window) : Bool := a.isOpen && b.isOpen && decide (Nat.max a.base b.base < Nat.min a.bound b.bound)

/-- WOPEN (R182, R232): in effect from the cycle after issue. -/
def execWopen (site : Site) (w : BitVec 26) (s : State) : Host.Outcome State Fault Refusal :=
  .next (closeSlot s site (fun _ _ => firstCode [(fld w 0 14 != 0, 2)])
    (fun s t =>
      let n := fld w 23 3
      let v := wopenWindow t w
      let s1 := s.setTile site { t with winWrites := t.winWrites ++ [{ at_ := t.now + 1, win := n, value := v }] }
      if (List.range 8).any (fun i => i != n && (t.window i).meets v) then hazard s1 3 site v.base else s1))

/-- SLIP (R182, R237). RELEASE, which takes no count, ignores SN: R237 has SLIP read SN in every mode, and no table makes it a reserved
field there (DESIGN CHOICE, log entry 122). -/
def execSlip (site : Site) (w : BitVec 26) (s : State) : Host.Outcome State Fault Refusal :=
  .next (closeSlot s site (fun _ _ => firstCode [(fld w 0 13 != 0 || fld w 13 2 == 3, 2)])
    (fun s t => s.setTile site { t with
      slipWrites := t.slipWrites ++ [{ at_ := t.now + 1, ctr := fld w 20 6, mode := fld w 13 2, value := t.sreg (fld w 15 5) }] }))

/-- CENS (R182, R216). -/
def execCens (site : Site) (w : BitVec 26) (s : State) : Host.Outcome State Fault Refusal :=
  .next (closeSlot s site (fun _ _ => firstCode [(fld w 0 11 != 0, 2)])
    (fun s t => s.setTile site (t.writeReg (t.now + 2) (.s (fld w 21 5)) (t.censRead t.now (fld w 11 10)))))

end Sys2Proof.Machine
end

