-- ==== Sys2Proof/Machine/Folio.lean ====
section
/-! DEFINITION. The folio of the running job as it stands in GDDR7: header, sections and records (R287, R322, R326, R380,
R389), cards (R283), and the worker's own number (R370). -/

namespace Sys2Proof.Machine

/-- Word w of a folio at a base address (R380). -/
def folioWord (s : State) (base w : Nat) : Word := gddrWord s (base + 4 * w)

/-- The address and item count of section k (R380). -/
def sectionAt (s : State) (base k : Nat) : Nat × Nat :=
  (base + 256 * (folioWord s base (16 + 2 * k)).toNat, (folioWord s base (17 + 2 * k)).toNat)

/-- Word w of item i of a section whose items have a size in bytes. -/
def itemWord (s : State) (base k size i w : Nat) : Word := gddrWord s ((sectionAt s base k).1 + size * i + 4 * w)

/-- Base of the running job's folio. -/
def jobFolio (s : State) : Nat := match s.rgs.job with | some j => j.folio | none => 0

/-- The world of the running job. -/
def jobSecure (s : State) : Bool := match s.rgs.job with | some j => j.secure | none => false

/-! ### BOUNDS and MSMAP -/

/-- Bk of a superstep, none where no BOUNDS entry covers it (R389). -/
def boundOf (s : State) (k : Nat) : Option Nat :=
  let f := jobFolio s
  (List.range (sectionAt s f 1).2).findSome? fun i =>
    let first := (itemWord s f 1 16 i 0).toNat
    let count := (itemWord s f 1 16 i 1).toNat + 1
    if first ≤ k ∧ k < first + count then some (itemWord s f 1 16 i 2).toNat else none

/-- An entry of the micro-step map (R322). -/
structure MapEntry where
  start : Nat
  p : Nat
  c : Nat
  eval : Bool
  bound : Nat
  deriving DecidableEq, Repr

/-- Entry i of the micro-step map of a folio. -/
def mapEntry (s : State) (f i : Nat) : MapEntry :=
  let w1 := itemWord s f 3 16 i 1
  { start := (itemWord s f 3 16 i 0).toNat, p := fld w1 0 16 + 1, c := fld w1 16 16 + 1,
    eval := bit (itemWord s f 3 16 i 2) 0, bound := (itemWord s f 3 16 i 3).toNat }

/-- The entry of the running job's map that covers a superstep, with its index. -/
def mapAt (s : State) (k : Nat) : Option (Nat × MapEntry) :=
  let f := jobFolio s
  (List.range (sectionAt s f 3).2).findSome? fun i =>
    let e := mapEntry s f i
    if e.start ≤ k ∧ k < e.start + e.p * e.c then some (i, e) else none

/-- Whether superstep k belongs to a TRAIN micro-step. -/
def inTrain (s : State) (k : Nat) : Bool := match mapAt s k with | some (_, e) => !e.eval | none => false

/-- Whether the bell that ends superstep k ends a TRAIN micro-step (R322). -/
def endsMicrostep (s : State) (k : Nat) : Bool :=
  match mapAt s k with
  | some (_, e) => !e.eval && (k + 1 - e.start) % e.p == 0
  | none => false

/-! ### The lending schedule (R287) -/

/-- A schedule entry. -/
structure SchedEntry where
  start : Nat
  ty : Nat
  dest : Nat
  src : Bool
  bcast : Bool
  nolapse : Bool
  resv : Bool
  word2 : Word
  srcoff : Nat
  t0 : Nat
  nt : Nat
  win : Nat
  woff : Nat
  pt : Nat
  deadline : Nat
  deriving DecidableEq, Repr

/-- Entry n of the schedule of a folio. `resv` tells a reserved field value: a non-zero bit that the layout marks 0 in words
1, 2, 4, 6 and 7, or a reserved TYPE or DEST. -/
def schedEntry (s : State) (f n : Nat) : SchedEntry :=
  let w (i : Nat) : Word := itemWord s f 2 32 n i
  let ty := fld (w 1) 0 2
  { start := (w 0).toNat, ty := ty, dest := fld (w 1) 2 2, src := bit (w 1) 4, bcast := bit (w 1) 5,
    nolapse := bit (w 1) 6,
    resv := ty == 3 || (ty == 0 && fld (w 1) 2 2 == 3) || fld (w 1) 7 25 != 0
      || (if ty == 0 then fld (w 2) 19 13 != 0 else fld (w 2) 6 10 != 0)
      || fld (w 4) 26 6 != 0 || fld (w 6) 24 8 != 0 || w 7 != 0,
    word2 := w 2, srcoff := (w 3).toNat, t0 := fld (w 4) 0 11, nt := fld (w 4) 11 12 + 1, win := fld (w 4) 23 3,
    woff := fld (w 5) 0 16, pt := fld (w 5) 16 16 + 1, deadline := fld (w 6) 0 24 }

/-- Number of schedule entries of the running job. -/
def schedCount (s : State) : Nat := (sectionAt s (jobFolio s) 2).2

/-- Whether folio tile t is among the destinations of an entry (R287, R293). -/
def SchedEntry.names (e : SchedEntry) (t : Nat) : Bool :=
  e.ty == 0 && e.dest == 2 && decide (e.t0 ≤ t) && decide (t < e.t0 + e.nt)

/-! ### Streams (R326) -/

/-- A stream declaration: receiving folio tile, source worker, source folio tile. -/
def streamDecl (s : State) (n : Nat) : Option (Nat × Nat × Nat) :=
  let f := jobFolio s
  if n < (sectionAt s f 5).2 then
    let w1 := itemWord s f 5 8 n 1
    some (fld (itemWord s f 5 8 n 0) 0 11, fld w1 0 14, fld w1 14 11)
  else none

/-! ### Workers (R370) -/

/-- The device's own worker ID; 0 while it has none. -/
def ownWid (s : State) : Nat := if regFld s rLNK_WID 14 1 = 1 then regFld s rLNK_WID 0 14 else 0

/-- Whether the running job spans devices. -/
def jobSpans (s : State) : Bool := decide (1 < s.rgs.workers.length)

/-- Whether this device takes part in the traffic of a job's other devices: its job is in RUN or DRAIN, or it has sent READY, and another
device may have entered RUN before it (R378). -/
def takesTraffic (s : State) : Bool := jobRuns s || (s.dev == .armed && jobSpans s && s.rgs.readyFrom.contains (ownWid s))

/-- Whether a worker takes part in the running job. -/
def workerInJob (s : State) (w : Nat) : Bool := w == ownWid s || s.rgs.workers.contains w

/-! ### Cards (R283) -/

/-- Address of a card (R282). -/
def cardAddr (s : State) (i : Nat) : Nat := regFld s rLND_CATALOG 0 16 * 0x2000000 + 64 * i

/-- Cards in the catalogue (R303). -/
def catalogSize (s : State) : Nat := regFld s rLND_CATALOG 16 10 * 1024

/-- The sixteen words of a card as GDDR7 holds them. -/
def cardWords (s : State) (i : Nat) : List Word := leWords 16 (s.gddr.read (cardAddr s i) 64)

/-- Fields of a card. -/
structure Card where
  valid : Bool
  secure : Bool
  gpresent : Bool
  hvalid : Bool
  rvalid : Bool
  repl : Nat
  dclass : Nat
  size : Nat
  gaddr : Nat
  haddr : Nat
  roomOff : Nat
  room : Nat
  raddr : Nat
  deriving DecidableEq, Repr

/-- Decode a card; one with a reserved REPL or a non-zero bit where R283 has none is not valid. `size` is in 32 B units. -/
def decodeCard (ws : List Word) : Card :=
  let w := wordAt ws
  let repl := fld (w 0) 5 2
  { valid := bit (w 0) 0 && repl != 3 && fld (w 0) 11 21 == 0 && fld (w 3) 9 23 == 0 && fld (w 6) 29 3 == 0,
    secure := bit (w 0) 1, gpresent := bit (w 0) 2, hvalid := bit (w 0) 3, rvalid := bit (w 0) 4, repl := repl,
    dclass := fld (w 0) 7 4, size := (w 1).toNat + 1, gaddr := (w 2).toNat + (w 3).toNat * 2 ^ 32,
    haddr := (w 4).toNat + (w 5).toNat * 2 ^ 32, roomOff := fld (w 6) 0 23, room := fld (w 6) 23 6,
    raddr := (w 7).toNat + (w 8).toNat * 2 ^ 32 }

/-- Deadline of a card's class; 0 means none (R292, R303). -/
def classDeadline (s : State) (c : Card) : Nat := if c.dclass = 0 then 0 else regFld s (rLND_DCLASS c.dclass) 0 24

end Sys2Proof.Machine
end

