-- ==== Sys2Proof/Machine/TierOps.lean ====
section
/-! DEFINITION. Shared operations on the memory tiers: worlds and regions (R275, R276, R424), ledger descriptors and what a
unit reads as (R307, R308, R310, R314), host lines (R295), room banks (R278), posting outcomes (R177, R293, R299) and
delivering granules. -/

namespace Sys2Proof.Machine

/-! ### Worlds and regions -/

/-- Accesses of R275. -/
inductive Access where
  | gread | gwrite | accum | objRead | pageIn | card | gpresent
  deriving DecidableEq, Repr

/-- The table of R275. -/
def Access.allowed (a : Access) (k : Kind) : Bool :=
  match k with
  | .shelved => a == .gread || a == .objRead || a == .pageIn
  | .ledger => a == .gread || a == .accum || a == .objRead
  | .annex => a == .gread || a == .gwrite || a == .objRead || a == .pageIn
  | .system => a == .card || a == .gpresent
  | .none => false

/-- Whether an access writes. -/
def Access.writes (a : Access) : Bool := a == .gwrite || a == .accum || a == .pageIn || a == .gpresent

/-- What the check of an access gives: it is carried out, it is a region violation (with the kind code found), or the other
world's (with the region entry). -/
inductive Verdict where
  | ok
  | violation (kind : Nat)
  | shut (entry : Nat)
  deriving DecidableEq, Repr

/-- Whether an access of a world to an entry meets the other world (R419, R424, R429). -/
def crossWorld (s : State) (secure write : Bool) (n : Nat) (r : Region) : Bool :=
  !secure && (r.secure || (write && s.keeper.adopting == some n))

/-- The check of an access at an address (R275, R276): unmapped space is a violation from either world. -/
def checkAccess (s : State) (secure : Bool) (a : Access) (addr : Nat) : Verdict :=
  match (if addr < gddrEnd then regionAt s addr else none) with
  | none => .violation 7
  | some (n, r) =>
    if crossWorld s secure a.writes n r then .shut n
    else if a.allowed (kindOf r.kind) then .ok else .violation r.kind

/-- Record a region violation in the unit's controller, and fault the job (R276, R305, R393). -/
def regionViolation (s : State) (mc unit site kind rkind : Nat) : State :=
  let a := 256 * unit
  let s1 :=
    if regFld s (rMCT_RFAULT mc) 31 1 = 1 then s
    else
      let w := site % 2 ^ 12 + kind * 2 ^ 12 + rkind * 2 ^ 16 + (a / 2 ^ 40 % 2) * 2 ^ 19 + 2 ^ 31
      setIstat (setReg (setReg s (rMCT_RFAULT mc) (BitVec.ofNat 32 w)) (rMCT_RFADDR mc) (BitVec.ofNat 32 (a / 256)))
        (Block.mct.page mc) 4
  raiseFault s1 4 mc site

/-! ### Loans: where they are kept, and their order (R291) -/

/-- The loan of a key, started or in flight. -/
def loanOf (s : State) (k : LoanKey) : Option Loan :=
  (s.lend.loans.find? fun l => l.key = k).orElse fun _ => s.lend.started.find? fun l => l.key = k

/-- Put a loan back. -/
def setLoan (s : State) (l : Loan) : State :=
  let upd (ls : List Loan) := ls.map fun m => if m.key = l.key then l else m
  { s with lend := { s.lend with started := upd s.lend.started, loans := upd s.lend.loans } }

/-- The order of two loans of equal deadline: scheduled ones first, by loan number. -/
def tieBefore (a b : LoanKey) : Bool :=
  match a, b with
  | .sched n, .sched m => decide (n < m)
  | .sched _, .demand _ _ _ => true
  | _, _ => false

/-- Whether the engine serves a loan before another: the earlier absolute deadline first, then loans without one in start order (R291). -/
def servesBefore (a b : Loan) : Bool :=
  match a.deadline, b.deadline with
  | some x, some y => decide (a.start + x < b.start + y) || (a.start + x == b.start + y && tieBefore a.key b.key)
  | some _, none => true
  | none, some _ => false
  | none, none => decide (a.start < b.start) || (a.start == b.start && tieBefore a.key b.key)

/-- Whether the engine serves the loan of one key before another's. -/
def servesKey (s : State) (k h : LoanKey) : Bool :=
  match loanOf s k, loanOf s h with
  | some a, some b => servesBefore a b
  | _, _ => false

/-- New work takes its place in a list of waiting work: it goes before the later work of the same engine, which moves back in turn;
all other work keeps its place (R291). -/
def insertServed {α : Type} (before : α → α → Bool) (e : α) : List α → List α
  | [] => [e]
  | p :: rest => if before e p then e :: insertServed before p rest else p :: insertServed before e rest

/-! ### Controllers -/

/-- The controller of a 256 B unit (R270). -/
def mcOf (unit : Nat) : Nat := unit % 80 % 10

/-- The 256 B units that a range touches. -/
def touchedUnits (a n : Nat) : List Nat := (List.range (if n = 0 then 0 else (a + n - 1) / 256 - a / 256 + 1)).map (a / 256 + ·)

/-- Whether GDDR7 serves accesses: the device is neither in D-SLEEP nor in a self-refresh exit (R445). -/
def gddrAwake (s : State) : Bool := regFld s rCPW_DSTATE 0 2 != 0 && regFld s rCPW_DSTATE 2 1 == 0

/-- Whether the memory controllers take an access to a byte range (R445, R462): one that has EN = 0 or DRAIN = 1 refuses it, and the offering
party holds it (R396); during a self-refresh exit it waits. -/
def tierOpen (s : State) (a n : Nat) : Bool :=
  gddrAwake s && ((List.range 10).all (fun m => accepts s (Block.mct.page m))
    || (touchedUnits a n).all fun u => decide (gddrEnd ≤ 256 * u) || accepts s (Block.mct.page (mcOf u)))

/-- A controller with nothing pending. -/
def Ctl.idle : Ctl := { arrivals := [], reads := [], groups := [], rr := 0, cache := [], inited := [] }

/-- Controller m. -/
def State.ctl (s : State) (m : Nat) : Ctl := SMap.get Ctl.idle s.ctls m

/-- Put a controller back. -/
def State.setCtl (s : State) (m : Nat) (c : Ctl) : State := { s with ctls := SMap.set Ctl.idle s.ctls m c }

/-- The loan whose work a unit is. -/
def UnitOwner.loanKey (o : UnitOwner) : Option LoanKey :=
  match o with
  | .loan k => some k
  | .copy k _ => some k
  | _ => none

/-- Whether one owner's loan is served before another's. -/
def loanBefore (s : State) (a b : Option LoanKey) : Bool :=
  match a, b with
  | some k, some h => servesKey s k h
  | _, _ => false

/-- A unit sets out to its controller; the engine's go in the order of their loans (R291). -/
def postUnit (s : State) (u : UnitMsg) : State :=
  let c := s.ctl (mcOf u.unit)
  let before (a b : UnitMsg) := loanBefore s a.owner.loanKey b.owner.loanKey
  s.setCtl (mcOf u.unit) { c with arrivals := insertServed before u c.arrivals }

/-! ### Ledgers -/

/-- A ledger descriptor (R335). -/
structure LedgerFmt where
  fmt : Nat
  x0 : Nat
  init : Bool
  rclr : Bool
  fwd : Bool
  hk : Nat
  hbase : Nat
  deriving DecidableEq, Repr

/-- Decode MCT_LEDGER_FMTn. -/
def decodeLedger (w : Word) : LedgerFmt :=
  { fmt := fld w 0 4, x0 := fld w 4 8, init := bit w 12, rclr := bit w 13, fwd := bit w 14, hk := fld w 15 3,
    hbase := fld w 18 14 }

/-- The ledger that holds a unit: its region entry and descriptor (R307). -/
def ledgerOf (s : State) (unit : Nat) : Option (Nat × LedgerFmt) :=
  match regionAt s (256 * unit) with
  | some (n, r) => if kindOf r.kind == .ledger then some (n, decodeLedger (regRaw s (rMCT_LEDGER_FMT (mcOf unit) n))) else none
  | none => none

/-- MXFP8 ledgers (R308). -/
def LedgerFmt.isMX (l : LedgerFmt) : Bool := l.fmt == 6 || l.fmt == 7

/-- The bytes of a unit that the zero view shows: zeros, and X0 for every MXFP8 scale (R310). -/
def zeroUnit (l : LedgerFmt) : List Byte :=
  if l.isMX then List.replicate 224 0 ++ List.replicate 7 (BitVec.ofNat 8 l.x0) ++ List.replicate 25 0
  else List.replicate 256 0

/-- The bytes of a cached unit; a BF16 element is rounded when it is read (R314, R316). -/
def LUnit.read (u : LUnit) : List Byte :=
  if u.wide then u.held.flatMap fun h => natLe 2 (rne fBF16 (decodeNum fFP32 h.toNat)).1 else u.bytes

/-- The place of a unit in a controller's cache. -/
def Ctl.cached (c : Ctl) (unit : Nat) : Option LUnit := c.cache.find? fun u => u.unit == unit

/-- What GDDR7 and the zero view give for a unit that is not cached (R310). -/
def storedUnit (s : State) (unit : Nat) : List Byte :=
  match ledgerOf s unit with
  | some (_, l) =>
    if l.init && jobRuns s && !(s.ctl (mcOf unit)).inited.contains unit then zeroUnit l else s.gddr.read (256 * unit) 256
  | none => s.gddr.read (256 * unit) 256

/-- The 256 bytes that a read of a unit returns (R310, R314). -/
def unitRead (s : State) (unit : Nat) : List Byte :=
  match (s.ctl (mcOf unit)).cached unit with
  | some u => u.read
  | none => storedUnit s unit

/-- Bytes of GDDR7 as the tiers read them. -/
def tierRead (s : State) (a n : Nat) : List Byte :=
  let u0 := a / 256
  let us := (List.range (if n = 0 then 0 else (a + n - 1) / 256 - u0 + 1)).flatMap fun i => unitRead s (u0 + i)
  (us.drop (a % 256)).take n

/-- Split bytes into granules. -/
def granules (bs : List Byte) : List (List Byte) := chunks ((bs.length + 31) / 32) 32 bs

/-- Whether a unit holds an uncorrectable granule (R271, R297). -/
def unitBad (s : State) (unit : Nat) : Bool := (List.range 8).any fun i => SMap.get Ecc.good s.ecc (8 * unit + i) == .uncorrectable

/-- One uncorrectable error detected at a controller (R297, R305). -/
def countUE (s : State) (mc : Nat) : State := setIstat (satAdd s (rMCT_ECC mc) 16 16 1) (Block.mct.page mc) 2

/-- Corrected granules counted at a controller (R271, R305). -/
def countCE (s : State) (mc n : Nat) : State :=
  if n = 0 then s else setIstat (satAdd s (rMCT_ECC mc) 0 16 n) (Block.mct.page mc) 1

/-- Error states that a read finds are kept in the granules until they are written in full (R271, R300). -/
def recordEcc (s : State) (unit : Nat) (ce ue : List Nat) : State :=
  let soft (m : SMap Ecc) (g : Nat) : SMap Ecc :=
    if SMap.get Ecc.good m (8 * unit + g) == .good then SMap.set Ecc.good m (8 * unit + g) .correctable else m
  let hard (m : SMap Ecc) (g : Nat) : SMap Ecc := SMap.set Ecc.good m (8 * unit + g) .uncorrectable
  { s with ecc := ue.foldl hard (ce.foldl soft s.ecc) }

/-- Correctable granules of a unit. -/
def unitCE (s : State) (unit : Nat) : Nat := (List.range 8).countP fun i => SMap.get Ecc.good s.ecc (8 * unit + i) == .correctable

/-! ### The host tier -/

/-- Whether the host tier is there (R296, R417): HIF_LINK.HOSTTIER. -/
def hostTier (s : State) : Bool := s.host.cacheEn && decide (1 ≤ s.host.mode ∧ s.host.mode ≤ 3)

/-- Whether a request of the host tier meets no host tier (R296): in a PCIe mode, and in a CXL mode without HOSTTIER. While the link is
down, lines are issued and complete as uncorrectable (R416; log entry 84). -/
def hostAbsent (s : State) : Bool := s.host.mode != 0 && !hostTier s

/-- Aperture n: base, end, world, enabled (R417). -/
def aperture (s : State) (n : Nat) : Nat × Nat × Bool × Bool :=
  let base := fld (regRaw s (rHIF_HAP n 0)) 12 20 * 4096 + (regRaw s (rHIF_HAP n 1)).toNat * 2 ^ 32
  let w := regRaw s (rHIF_HAP n 2)
  (base, base + (fld w 0 28 + 1) * 4096, bit w 30, bit w 31)

/-- Whether a host range lies wholly within one enabled aperture that a world may use (R409). -/
def inAperture (s : State) (secure : Bool) (a n : Nat) : Bool :=
  (List.range 8).any fun i =>
    let (lo, hi, w, en) := aperture s i
    en && (secure || !w) && decide (lo ≤ a) && decide (a + n ≤ hi)

/-- Whether a host range lies wholly within one enabled aperture of a world (R286, R409). -/
def inWorldAperture (s : State) (secure : Bool) (a n : Nat) : Bool :=
  (List.range 8).any fun i =>
    let (lo, hi, w, en) := aperture s i
    en && w == secure && decide (lo ≤ a) && decide (a + n ≤ hi)

/-- The lines that a host range covers: first line and count. -/
def lineSpan (a n : Nat) : Nat × Nat := (a / 64, if n = 0 then 0 else (a + n - 1) / 64 - a / 64 + 1)

/-- The loan whose work a host line is. -/
def hostLoan (o : HostOwner) : Option LoanKey :=
  match o with
  | .loan k => some k
  | .replica k => some k
  | .tile _ _ _ => none

/-- The first `room` lines, which are outstanding, and those that wait; an entry that is partly outstanding is split (R295). -/
def splitOut : Nat → List (HostOwner × Nat × Nat) → List (HostOwner × Nat × Nat) × List (HostOwner × Nat × Nat)
  | _, [] => ([], [])
  | room, (o, f, n) :: rest =>
    if n ≤ room then ((o, f, n) :: (splitOut (room - n) rest).1, (splitOut (room - n) rest).2)
    else if room = 0 then ([], (o, f, n) :: rest)
    else ([(o, f, room)], (o, f + room, n - room) :: rest)

/-- Lines asked of the host, in order of arrival (R295); among those that still wait, the engine's go in the order of their loans (R291). -/
def queueLines (s : State) (e : HostOwner × Nat × Nat) : State :=
  let ls := splitOut 512 s.host.lines
  let before (a b : HostOwner × Nat × Nat) := loanBefore s (hostLoan a.1) (hostLoan b.1)
  { s with host := { s.host with lines := ls.1 ++ insertServed before e ls.2 } }

/-- Lines are asked of the host; a host interface that accepts no work refuses them, and whoever asks holds them (R396, R462). -/
def addLines (s : State) (o : HostOwner) (first count : Nat) : State :=
  if count = 0 then s
  else if accepts s (Block.hif.page 0) then queueLines s (o, first, count)
  else { s with host := { s.host with offered := s.host.offered ++ [(o, first, count)] } }

/-- The host interface accepts work again: the lines held are asked for (R396). -/
def takeLines (s : State) : State :=
  s.host.offered.foldl queueLines { s with host := { s.host with offered := [] } }

/-- Whether an owner's line is among the 512 outstanding (R295). -/
def lineOutstanding (o : HostOwner) (line : Nat) : Nat → List (HostOwner × Nat × Nat) → Bool
  | _, [] => false
  | room, (p, f, n) :: rest =>
    if p = o ∧ f ≤ line ∧ line < f + Nat.min n room then true
    else lineOutstanding o line (room - n) rest

/-- The lines without one of an owner's lines. -/
def removeLine (o : HostOwner) (line : Nat) : List (HostOwner × Nat × Nat) → List (HostOwner × Nat × Nat)
  | [] => []
  | (p, f, n) :: rest =>
    if p = o ∧ f ≤ line ∧ line < f + n then
      (if f < line then [(p, f, line - f)] else []) ++ (if line + 1 < f + n then [(p, line + 1, f + n - line - 1)] else []) ++ rest
    else (p, f, n) :: removeLine o line rest

/-- The host sees an uncorrectable line (R296, R297, R417). -/
def countHostUE (s : State) : State := satAdd s rHIF_HOSTUE 0 32 1

/-! ### Rooms -/

/-- A bank after reset: gated (R279). -/
def Bank.off : Bank := { st := .gated, accs := [], held := [], gateAfter := false }

/-- A room after reset. -/
def Room.off : Room := { mem := [], poison := [], banks := [], world := false, offered := [] }

/-- Room n. -/
def State.room (s : State) (n : Nat) : Room := SMap.get Room.off s.rooms n

/-- Put a room back. -/
def State.setRoom (s : State) (n : Nat) (r : Room) : State := { s with rooms := SMap.set Room.off s.rooms n r }

/-- Bank b of a room. -/
def Room.bank (r : Room) (b : Nat) : Bank := SMap.get Bank.off r.banks b

/-- Put a bank back. -/
def Room.setBank (r : Room) (b : Nat) (k : Bank) : Room := { r with banks := SMap.set Bank.off r.banks b k }

/-- Granules of a bank: 512 KiB (R278). -/
def bankGrans : Nat := 16384

/-- The bank of a granule of a room (R278). -/
def bankOf (gran : Nat) : Nat := gran / bankGrans % 16

/-- Whether a gating bank has no write in flight, and first so in cycle c: a write accepted then keeps it powered (R280). -/
def Bank.firstIdle (k : Bank) (c : Nat) : Bool :=
  match k.st with
  | .gating st zero => !k.accs.any (·.write) && (decide (c ≤ st) || zero == some c)
  | _ => false

/-- Whether a bank is gating. -/
def Bank.isGating (k : Bank) : Bool := match k.st with | .gating _ _ => true | _ => false

/-- A read takes its place in a bank: the order is that of arrival (R278), but among the reads that wait with no write after them the
engine's go in the order of their loans (R291). -/
def placeRead (s : State) (a : RoomAcc) (as : List RoomAcc) : List RoomAcc :=
  let n := as.length - (as.reverse.takeWhile fun x => !x.write).length
  as.take n ++ insertServed (fun x y => loanBefore s x.owner.loanKey y.owner.loanKey) a (as.drop n)

/-- A bank with an access that has reached it: while it gates it accepts no new write, but in the cycle in which its count would be 0,
and then it stays powered (R280). -/
def Bank.post (k : Bank) (s : State) (a : RoomAcc) : Bank :=
  if a.write && k.isGating then
    if k.firstIdle s.cycle then { k with st := .powered, accs := k.accs ++ k.held ++ [a], held := [] }
    else { k with held := k.held ++ [a] }
  else if a.write then { k with accs := k.accs ++ [a] }
  else { k with accs := placeRead s a k.accs }

/-- An access takes its place in a room (R278). -/
def queueRoom (n : Nat) (s : State) (a : RoomAcc) : State :=
  let r := s.room n
  s.setRoom n (r.setBank (bankOf a.gran) ((r.bank (bankOf a.gran)).post s a))

/-- An access is offered to a room; one that accepts no work refuses it, and whoever offers it holds it (R396, R462). -/
def postRoom (s : State) (n : Nat) (a : RoomAcc) : State :=
  if accepts s (Block.rdr.page n) then queueRoom n s a
  else s.setRoom n { s.room n with offered := (s.room n).offered ++ [a] }

/-- A room accepts work again: the accesses held reach it (R396). -/
def takeRoom (s : State) (n : Nat) : State :=
  (s.room n).offered.foldl (queueRoom n) (s.setRoom n { s.room n with offered := [] })

/-! ### Posting outcomes -/

/-- Whether a kind can lapse (R175). -/
def ReqKind.canLapse (k : ReqKind) : Bool :=
  match k with
  | .gread | .rread | .hread | .loan | .loanwait | .srecv => true
  | _ => false

/-- Whether a kind writes a landing area (R229). -/
def ReqKind.lands (k : ReqKind) : Bool :=
  match k with
  | .gread | .rread | .hread | .loan | .srecv => true
  | _ => false

/-- Whether a kind reads a source area (R229). -/
def ReqKind.sends (k : ReqKind) : Bool :=
  match k with
  | .gwrite | .rwrite | .hwrite | .accum | .ssend => true
  | _ => false

/-- KIND codes (R175). -/
def ReqKind.code (k : ReqKind) : Nat :=
  match k with
  | .gread => 1 | .gwrite => 2 | .rread => 3 | .rwrite => 4 | .hread => 5 | .hwrite => 6 | .accum => 7 | .loan => 8
  | .loanwait => 9 | .ssend => 10 | .srecv => 11

/-- The kind of a code; none for the reserved codes. -/
def kindOfCode (n : Nat) : Option ReqKind :=
  match n with
  | 1 => some .gread | 2 => some .gwrite | 3 => some .rread | 4 => some .rwrite | 5 => some .hread | 6 => some .hwrite
  | 7 => some .accum | 8 => some .loan | 9 => some .loanwait | 10 => some .ssend | 11 => some .srecv | _ => none

/-- An outcome falls due on a request in cycle c: LAPSED never under NOLAPSE, and LAPSED-POISON then faults the job (R177,
R299). -/
def postOutcome (s : State) (x : Site) (q id : Nat) (o : ReqOutcome) (c : Nat) : State :=
  match (s.tile x).request q id with
  | none => s
  | some r =>
    if !r.mayPost o c then s
    else if r.nolapse && o == .lapsed then s
    else
      let s1 := s.onTile x fun t => t.post q id o c
      if r.nolapse && o == .poison then nolapsePoison s1 x r else s1

/-- The LOANWAITs of a tile for loan n. -/
def Tile.waitsFor (t : Tile) (n : Nat) : List (Nat × Nat) :=
  t.queues.flatMap fun p => (p.2.filter fun r => r.kind == .loanwait && r.target % 2 ^ 16 == n).map fun r => (p.1, r.id)

/-- The outcome of a tile's chunk of loan n is posted: its table entry is written, and its LOANWAITs post (R293). -/
def loanOutcome (s : State) (x : Site) (n : Nat) (o : ReqOutcome) (c : Nat) : State :=
  let s1 := s.onTile x fun t => { t with outcomes := SMap.put t.outcomes (n % 256) (n, o) }
  ((s1.tile x).waitsFor n).foldl (fun s w => postOutcome s x w.1 w.2 o c) s1

/-! ### Delivering to tiles -/

/-- Granules of a request set out to its tile, from granule `idx` on (R229); a fenced tile's are discarded (R264). -/
def deliverReq (s : State) (x : Site) (q id idx : Nat) (data : List (List Byte)) : State :=
  match (s.tile x).request q id with
  | none => if (s.tile x).pwr = .fenced then fencedReturn s x ((data.length + 3) / 4) else s
  | some r =>
    sendTo s x (data.zipIdx.map fun (d, i) =>
      { addr := addr21 (Int.ofNat (r.laddr + 32 * (idx + i))), data := d, owner := .req q id, slip := q, win := 0, off := 0 })

/-- Whether run-time flits still reach the tiles after a job fault: every router and port has discarded them within 16 cycles (R265). A fenced
tile discards those that reach it, and counts them (R264; log entry 9). -/
def flitsGo (s : State) : Bool :=
  s.dev == .faulted && (match s.rgs.fault with | some f => decide (s.cycle ≤ f.at_ + 16) | none => false)

/-- What returns to a fenced tile after a job fault: one flit for up to four granules. -/
def fencedTraffic (s : State) (o : UnitOwner) (n : Nat) : State :=
  match o with
  | .tile x _ _ => if (s.tile x).pwr = .fenced then fencedReturn s x ((n + 3) / 4) else s
  | _ => s

/-- A request meets poison (R299). -/
def poisonReq (s : State) (x : Site) (q id : Nat) : State :=
  match (s.tile x).request q id with
  | none => s
  | some r => if r.posted.isSome then s else s.onTile x fun t => t.setRequest q { r with poisoned := true }

/-- Granules of a request acknowledged at their destination (R175); the flit that says so is discarded at a fenced tile (R264). -/
def ackReq (s : State) (x : Site) (q id n : Nat) : State :=
  match (s.tile x).request q id with
  | none => if (s.tile x).pwr = .fenced then fencedReturn s x 1 else s
  | some r => s.onTile x fun t => t.setRequest q { r with acked := r.acked + n }

/-! ### Loans: delivering -/

/-- The site to which a fault of a loan belongs: the tile of a LOAN, none for a scheduled loan (R393). -/
def LoanKey.site (k : LoanKey) : Site := match k with | .sched _ => noSite | .demand x _ _ => x

/-- Whether a chunk still takes what lands in cycle c: it is open, or it has lapsed in c itself (R306). -/
def ChunkState.takes (st : ChunkState) (c : Nat) : Bool :=
  match st with
  | .open => true
  | .lapsed d => d == c
  | _ => false

/-- One granule of a chunk is written where it goes: it counts, and a chunk whose last granule it is posts DONE in
cycle c, also over a lapse of that cycle (R290, R293, R306). -/
def chunkLanded (s : State) (k : LoanKey) (x : Site) (c : Nat) : State :=
  match loanOf s k with
  | none => s
  | some l =>
    let step (h : Chunk) : Chunk :=
      if h.site = x ∧ h.st.takes c then
        { h with landed := h.landed + 1, st := if h.landed + 1 = h.len then .landed else h.st }
      else h
    let l1 : Loan := { l with chunks := l.chunks.map step }
    let done := l1.chunks.any fun h => h.site == x && h.st == .landed && h.landed == h.len
    let was := l.chunks.any fun h => h.site == x && h.st == .landed
    let s1 := setLoan s l1
    if done && !was then
      match k with
      | .sched n => if x = noSite then s1 else loanOutcome s1 x n .done c
      | .demand _ _ _ => s1
    else s1

/-- Whether a granule of a scheduled loan, written in cycle c, is still wanted at a tile: its chunk is open, or it has lapsed in c itself and
completes in c (R177, R292, R306). -/
def chunkWants (s : State) (n : Nat) (x : Site) (c : Nat) : Bool :=
  match loanOf s (.sched n) with
  | some l => l.chunks.any fun h => h.site == x
      && (h.st == .open || (h.st.takes c && (s.tile x).finishes (· == .loan n) (h.len - h.landed) c))
  | none => false

/-- Object granules `g` on, of a loan's move, go to every open chunk that holds them (R287, R298). -/
def deliverLoan (s : State) (l : Loan) (g : Nat) (data : List (List Byte)) : State :=
  let card := decodeCard l.words
  l.chunks.foldl (fun s h =>
    if h.st != .open then s
    else
      let mine := data.zipIdx.filterMap fun (d, i) =>
        if h.srcGran ≤ g + i ∧ g + i < h.srcGran + h.len then some (g + i - h.srcGran, d) else none
      if h.site = noSite then
        mine.foldl (fun s (p : Nat × List Byte) => postRoom s card.room
          { owner := .loan l.key, write := true, gran := (card.roomOff / 32 + h.srcGran + p.1) % 2 ^ 18, idx := h.srcGran + p.1,
            data := p.2, poison := false }) s
      else
        match l.key with
        | .sched n => sendTo s h.site (mine.map fun p =>
            { addr := 0, data := p.2, owner := .loan n, slip := 0, win := l.win, off := l.off + p.1 })
        | .demand x q id => mine.foldl (fun s (p : Nat × List Byte) => deliverReq s x q id p.1 [p.2]) s) s

/-! ### Copies (R298) -/

/-- A copy of an object. -/
inductive Copy where
  | gddr (addr : Nat) | host (addr : Nat)
  deriving DecidableEq, Repr

/-- The copies from which a poisoned unit is read again, in order. -/
def loanCopies (l : Loan) : List Copy :=
  let card := decodeCard l.words
  (if l.fromRoom && card.gpresent then [.gddr card.gaddr] else [])
    ++ (if card.repl = 1 then [.gddr card.raddr] else if card.repl = 2 then [.host card.raddr] else [])

/-- Granules from `g` on that no read has given clean wait for a re-read (R298). -/
def badGrans (s : State) (k : LoanKey) (g n : Nat) : State :=
  match loanOf s k with
  | none => s
  | some l =>
    let note (m : SMap (Nat × Bool)) (i : Nat) := if (SMap.find m (g + i)).isSome then m else SMap.put m (g + i) (0, false)
    setLoan s { l with bad := (List.range n).foldl note l.bad }

/-- A page-in's bytes are written into the home at an object offset, where the region takes them (R275, R290). -/
def pageInWrite (s : State) (l : Loan) (off : Nat) (data : List Byte) : State :=
  let card := decodeCard l.words
  let a := card.gaddr + off
  match checkAccess s (jobSecure s) .pageIn a with
  | .ok => gddrWrite s a (data.take (32 * card.size - off))
  | .shut n => xlogRegion s .lend true n a
  | .violation k => regionViolation s (mcOf (a / 256)) (a / 256) noSite 0xF k

/-- Address of an object byte in a copy. -/
def Copy.addr (c : Copy) (off : Nat) : Nat := match c with | .gddr a => a + off | .host a => a + off

/-- Key of a 32 B slot of a tier: GDDR7's slots are even, the host's odd. -/
def slotKey (host : Bool) (slot : Nat) : Nat := 2 * slot + (if host then 1 else 0)

/-- The slots of a copy that hold granule g, which lies at 32 × g (R283): two where the copy is not 32 B aligned. -/
def Copy.slots (c : Copy) (g : Nat) : List Nat :=
  let host := match c with | .host _ => true | .gddr _ => false
  let a := c.addr (32 * g)
  slotKey host (a / 32) :: (if a % 32 = 0 then [] else [slotKey host (a / 32 + 1)])

/-- The slots that granule g's re-read brings; none where no re-read of it is on its way. -/
def Loan.rereadSlots (l : Loan) (g : Nat) : List Nat :=
  match SMap.find l.bad g with
  | some (n, true) => match (loanCopies l)[n]? with | some c => c.slots g | none => []
  | _ => []

/-- A granule's re-read: none while it is on its way; then its bytes, or none where a slot is poisoned (R298). -/
def Loan.reread (l : Loan) (g : Nat) : Option (Option (List Byte)) :=
  let parts := (l.rereadSlots g).map fun k => SMap.find l.got k
  if l.rereadSlots g = [] then none
  else if parts.contains (some none) then some none
  else if parts.contains none then none
  else
    let off := match SMap.find l.bad g with
      | some (n, _) => (match (loanCopies l)[n]? with | some c => c.addr 0 % 32 | none => 0)
      | none => 0
    some (some (((parts.flatMap fun p => (p.getD none).getD []).drop off).take 32))

/-- One granule whose re-read may have come: clean data takes the place of the poisoned, in the home during a page-in, else in the open
chunks; for a poisoned one the next copy is due (R298). -/
def rereadGran (k : LoanKey) (s : State) (g : Nat) : State :=
  match loanOf s k with
  | none => s
  | some l => match l.reread g with
    | none => s
    | some none => setLoan s { l with bad := SMap.put l.bad g ((SMap.get (0, false) l.bad g).1 + 1, false) }
    | some (some d) =>
      let l1 : Loan := { l with bad := SMap.del l.bad g }
      if l.stage = .pageIn then pageInWrite (setLoan s l1) l1 (32 * g) d else deliverLoan (setLoan s l1) l1 g [d]

/-- Only what a re-read still waits for is kept. -/
def Loan.keepSlots (l : Loan) : Loan :=
  let need := l.bad.flatMap fun b => l.rereadSlots b.1
  { l with got := l.got.filter fun p => need.contains p.1 }

/-- A re-read brings slots of a copy, clean (their bytes) or poisoned (R298): every granule whose slots are all there is delivered. -/
def rereadSlots (s : State) (k : LoanKey) (host : Bool) (slot : Nat) (data : Option (List (List Byte))) (n : Nat) : State :=
  match loanOf s k with
  | none => s
  | some l =>
    let word (i : Nat) : Option (List Byte) := data.map fun ds => ds.getD i (List.replicate 32 0)
    let l1 : Loan := { l with got := (List.range n).foldl (fun m i => SMap.put m (slotKey host (slot + i)) (word i)) l.got }
    let s1 := (l1.bad.map (·.1)).foldl (rereadGran k) (setLoan s l1)
    match loanOf s1 k with
    | some l2 => setLoan s1 l2.keepSlots
    | none => s1

end Sys2Proof.Machine
end

