-- ==== Sys2Proof/Machine/Writers.lean ====
section
/-! DEFINITION. The units that write on their own cycles: drain rows (R84, R193, R194) and vector beats (R145, R147, R211, R226), in the
order of R147 and R218. -/

namespace Sys2Proof.Machine

/-! ### Drain rows -/

/-- Element j of row i as a drain writes it, with its class (R106 to R111, R121, R126, R128, R135). An element of a scaled tile that
overflowed is ±largest finite under FIXED, whatever the format that the scale applies to; where an MSCALE has set SCALED = 0 since,
nothing is forced: the tile is no scaled output tile (R106, R135; DESIGN CHOICE, log entry 120). For INT8 the negative one is −128, the
limit that R106 gives its conversions, not −127, the largest finite of R133's table (DESIGN CHOICE, log entry 24). -/
def drainElem (d : Drain) (scale i j : Nat) : Nat × Class :=
  let k := 32 * i + j
  let e := SMap.get Elem.zero d.src.elems k
  let draw := (Config.freeBits (d.draw + k)).toNat
  if d.early then (draw % 2 ^ fmtBits d.ofmt, fld (Config.freeBits (d.draw + 1024 + k)) 0 8 % 5)
  else
    let x := e.drainValue d.src.kind d.rm d.part
    if d.src.scaled && e.ovr && !d.scm && (isMX d.ofmt || d.ofmt == fINT8) && !(e.pinf || e.ninf) then
      convertElem d.ofmt 0 true true 0 127 127 (.fin (decide (e.v < 0)) 1 4000 false)
    else convertElem d.ofmt d.rm d.sat false draw scale d.src.osc.toNat x

/-- The block scale of row i (R109, R193). -/
def drainScale (d : Drain) (i : Nat) : Nat :=
  if !isMX d.ofmt then 0
  else if d.early then fld (Config.freeBits (d.draw + 2048 + i)) 0 8
  else blockScale d.ofmt d.scm d.src.osc.toNat ((List.range 32).map fun j =>
    (SMap.get Elem.zero d.src.elems (32 * i + j)).drainValue d.src.kind d.rm d.part)

/-- The elements of row i. -/
def drainRow (d : Drain) (i : Nat) : List (Nat × Class) := (List.range 32).map fun j => drainElem d (drainScale d i) i j

/-- The cycle in which a drain's next row reaches its destination (R84). -/
def Drain.rowAt (d : Drain) : Nat := d.issue + d.row + 5

/-- A drain's next row is written, its values counted (R193, R194, R196). A row and its own scale byte that fall on one byte leave the
scale byte: no rule orders them (DESIGN CHOICE, log entry 105). -/
def Tile.writeRow (t : Tile) (d : Drain) : Tile :=
  let c := d.rowAt
  let xs := drainRow d d.row
  let t1 :=
    if d.toReg then t.writeVec c (xs.zipIdx.map fun p =>
      { reg := d.vr, bit := 2048 * d.ofs + (32 * d.row + p.2) * fmtBits d.ofmt, width := fmtBits d.ofmt, value := p.1.1 })
    else
      let t2 := (t.toWrite c).portWrite c (issueRank d.issue 0) d.draw (drainAddr d d.row)
        (packElems (fmtBits d.ofmt) (xs.map Prod.fst))
      let t3 := if isMX d.ofmt then
          t2.portWrite c (issueRank d.issue 0) d.draw ((d.sbase + d.row) % 2 ^ 21) [BitVec.ofNat 8 (drainScale d d.row)]
        else t2
      t3.noteWrites (d.putsAt c)
  let t4 := t1.countEvents c (xs.flatMap fun x => classEvents d.ofmt x.2)
  { t4 with drains := if d.row = 31 then t4.drains.drop 1 else { d with row := d.row + 1 } :: t4.drains.drop 1 }

/-! ### Vector beats -/

/-- The instruction whose next beat writes first; of two in one cycle the earlier issued (R147). -/
def nextBeatOp (ops : List VOp) (due : VOp → Nat) : Option VOp :=
  ops.foldl (fun b op =>
    match b with
    | none => some op
    | some o => if due op < due o then some op else b) none

/-- The cycle in which the next beat of an instruction writes (R145, R211, R226). -/
def Tile.beatDue (t : Tile) (op : VOp) : Nat := (latchDesc t (op.issue + 3) op).writeAt op.next

/-- The reads of everything up to a write in cycle c: of tile memory those of earlier cycles, since a read of c returns what c writes
(R187, R218); of registers those of c too (R145). -/
def Tile.beforeBeat (t : Tile) (c : Nat) : Tile := ((t.upTo c).latchMem (c - 1)).latchVec c

/-- The writes of one beat, and its census events (R217, R218). -/
def Tile.applyBeat (t : Tile) (op : VOp) (c : Nat) (r : BeatResult) : Tile :=
  let t1 := r.writes.foldl (fun t w => t.vput w.reg w.bit w.width w.value) t
  let t2 := r.stores.foldl (fun (t : Tile) p => t.portWrite c (issueRank op.issue 2) op.draw p.1 p.2) t1
  (t2.noteWrites (r.stores.flatMap fun p => rangeGrans p.1 p.2.length).eraseDups).countEvents c r.events

/-- The instruction one beat further; it leaves after its last. -/
def Tile.passBeat (t : Tile) (op : VOp) : Tile :=
  { t with vops := if op.beats ≤ op.next + 1 then t.vops.filter fun o => o.issue != op.issue
                   else t.vops.map fun o => if o.issue == op.issue then { o with next := op.next + 1 } else o }

/-- The next beat of an instruction writes in cycle c, once it has been read. -/
def Tile.oneBeat (t : Tile) (op : VOp) (c : Nat) : Option Tile :=
  ((t.vops.find? fun o => o.issue == op.issue).bind fun o => o.results[op.next]?).map fun r => (t.applyBeat op c r).passBeat op

/-! ### The order of both (R147, R218) -/

/-- Order of two writes: by cycle, then by issue. -/
def keyBefore (a b : Nat × Nat) : Bool := decide (a.1 < b.1) || (a.1 == b.1 && decide (a.2 < b.2))

/-- The drain rows that come before a write in that order are written. -/
def settleRowsFrom (key : Nat × Nat) : Nat → Tile → Tile
  | 0, t => t
  | n + 1, t =>
    match t.drains with
    | [] => t
    | d :: _ => if keyBefore (d.rowAt, issueRank d.issue 0) key then settleRowsFrom key n (t.writeRow d) else t

/-- Drain rows before a write. -/
def Tile.settleRows (t : Tile) (key : Nat × Nat) : Tile := settleRowsFrom key (32 * t.drains.length) t

/-- The vector beats, and between them the drain rows, that come before a write. -/
def settleWritersFrom (key : Nat × Nat) : Nat → Tile → Tile
  | 0, t => t
  | n + 1, t =>
    match nextBeatOp t.vops t.beatDue with
    | none => t
    | some op =>
      let k := (t.beatDue op, issueRank op.issue 2)
      if keyBefore k key then
        match ((t.settleRows k).beforeBeat k.1).oneBeat op k.1 with
        | some u => settleWritersFrom key n u
        | none => t
      else t

/-- Beats and rows before a write. -/
def Tile.settleWriters (t : Tile) (key : Nat × Nat) : Tile :=
  (settleWritersFrom key (t.vops.foldl (fun n o => n + o.beats) 0) t).settleRows key

/-- Tile memory as a read in cycle c finds it: with every row and beat that is written by the end of c (R187, R218). -/
def Tile.asRead (t : Tile) (c : Nat) : Tile := (t.upTo c).settleWriters (c + 1, 0)

end Sys2Proof.Machine
end

