-- ==== Sys2Proof/Machine/Matrix.lean ====
section
/-! DEFINITION. The matrix slot (R63 to R91, R116 to R136, R186 to R200). -/

namespace Sys2Proof.Machine

/-! ### Issue of a feeding instruction -/

/-- Pairing class of a format (R65, R188); 0 for a format no feeding instruction takes. -/
def pairClass (f : Nat) : Nat :=
  match f with
  | 0x4 => 1 | 0x5 => 1 | 0x6 => 1 | 0x7 => 1 | 0x8 => 1 | 0x9 => 1
  | 0x2 => 2 | 0x3 => 2 | 0xA => 3 | 0xB => 4 | 0x1 => 5 | 0xE => 6 | 0xF => 7 | 0x0 => 8 | _ => 0

/-- The formats that an instruction accepts (R188). -/
def feedFormatsOk (op : FeedOp) (fa fb : Nat) : Bool :=
  let c := pairClass fa
  c == pairClass fb &&
    match op with
    | .mma => decide (1 ≤ c ∧ c ≤ 7)
    | .mconv => decide (1 ≤ c ∧ c ≤ 5)
    | .mdist => c == 4 || c == 2 || c == 8

/-- The modes that an instruction accepts (R88, R188). -/
def feedModeOk (op : FeedOp) (mode : Nat) : Bool :=
  match op with
  | .mdist => decide (1 ≤ mode ∧ mode ≤ 5)
  | _ => mode == 0

/-- The kind that ACC = 0 sets (R116, R188). -/
def feedKind (mode fa : Nat) : AccKind :=
  if isExtremum mode then (if fa = fINT8 then .extremumI else .extremumF)
  else if fa = fINT8 then .integer
  else if isSlice fa then .slice
  else .window

/-- Output tile x. -/
def Tile.acc (t : Tile) (x : Nat) : AccTile := if x = 0 then t.acc0 else t.acc1

/-- Put output tile x back. -/
def Tile.setAcc (t : Tile) (x : Nat) (a : AccTile) : Tile := if x = 0 then { t with acc0 := a } else { t with acc1 := a }

/-- The issue cycle of the last MDRAIN of output tile x. -/
def Tile.drainOf (t : Tile) (x : Nat) : Option Nat := if x = 0 then t.drain0At else t.drain1At

/-- The kind, scale-state and budget rules (R117, R132). -/
def feedKindBad (a : AccTile) (add : Bool) (kind : AccKind) (rb : Nat) : Bool :=
  rb == 3 || (add && decide (0 < rb)) || (add && a.kind != kind)
    || (a.scaled && !(kind == .window || (kind == .integer && a.ofmt == 0xB)))

/-- The fields of a feeding instruction (R186). -/
def fT (w : BitVec 43) : Nat := fld w 42 1
/-- ACC. -/
def fACC (w : BitVec 43) : Bool := bit w 41
/-- FA. -/
def fFA (w : BitVec 43) : Nat := fld w 37 4
/-- FB. -/
def fFB (w : BitVec 43) : Nat := fld w 33 4
/-- RB. -/
def fRB (w : BitVec 43) : Nat := fld w 23 2
/-- MODE. -/
def fMODE (w : BitVec 43) : Nat := fld w 20 3

/-- Issue faults of a feeding instruction (R161, R188, R189, R212). -/
def feedCode (op : FeedOp) (t : Tile) (w : BitVec 43) : Option Nat :=
  firstCode [(fld w 0 20 != 0 || !feedModeOk op (fMODE w), 2),
    (!feedFormatsOk op (fFA w) (fFB w), 4),
    (t.vops.any fun v => v.gen && decide (t.now ≤ t.genEnd v), 7),
    (match t.lastTL with | some tl => decide (t.now + 6 < tl) | none => false, 8),
    (feedKindBad (t.acc (fT w)) (fACC w) (feedKind (fMODE w) (fFA w)) (fRB w), 0x0A)]

/-- The descriptor address that an address register gives (R187). -/
def descAt (v : Word) : Nat := fld v 7 14 * 128

/-- Free values that a feeding instruction may need: three for each element. -/
def feedDraws : Nat := 3072

/-- The feeding instruction that issues in the tile's cycle: t0 = I + 7, or D + 23 after a drain of its tile (R74, R81). Where its
first period begins with bubbles, the freeze is measured from t0: the bubbles follow it (DESIGN CHOICE, log entry 104). -/
def mkFeed (op : FeedOp) (t : Tile) (draw : Nat) (w : BitVec 43) : Feed :=
  let t0 := match t.drainOf (fT w) with | some d => Nat.max (t.now + 7) (d + 23) | none => t.now + 7
  { op := op, acc := fT w, add := fACC w, kind := feedKind (fMODE w) (fFA w), fa := fFA w, fb := fFB w,
    da := descAt (t.areg (fld w 29 4)), db := descAt (t.areg (fld w 25 4)), rb := fRB w, mode := fMODE w,
    issue := t.now, parts := 0, descA := [], descB := [], t0 := t0, periods := [], span := 0, draw := draw, rnd := 0,
    per := 0, off := 0, held := [], scaleA := [], scaleB := [], words := [], reads := [], upset := false, round := 0, slice := 0,
    ovr := false, awaiting := false, closed := false }

/-- The command of a feeding instruction. -/
def feedInstr (op : FeedOp) (site : Site) (w : BitVec 43) : Instr :=
  match op with
  | .mma => .mma site w | .mconv => .mconv site w | .mdist => .mdist site w

/-- MMA, MCONV and MDIST at issue (R116, R189). -/
def issueFeed (op : FeedOp) (site : Site) (w : BitVec 43) (s : State) : State :=
  beginSlot s site .matrix (feedInstr op site w) (fun _ t => feedCode op t w) (fun s t =>
    let f := mkFeed op t s.free w
    let t1 := { t with feeds := t.feeds ++ [f] }
    drew (s.setTile site (if f.add then t1 else t1.setAcc f.acc { t1.acc f.acc with kind := f.kind })) feedDraws)

/-- MMA (R189). -/
def execMma (site : Site) (w : BitVec 43) (s : State) : Host.Outcome State Fault Refusal := .next (issueFeed .mma site w s)

/-- MCONV (R189). -/
def execMconv (site : Site) (w : BitVec 43) (s : State) : Host.Outcome State Fault Refusal := .next (issueFeed .mconv site w s)

/-- MDIST (R88, R189). -/
def execMdist (site : Site) (w : BitVec 43) (s : State) : Host.Outcome State Fault Refusal := .next (issueFeed .mdist site w s)

/-! ### One slice -/

/-- The elements of a lane word with its block scale (R64, R93, R100). -/
def laneNums (f : Nat) (x : Nat × Nat) : List Num :=
  (List.range (dotWidth f)).map fun k =>
    let v := decodeNum f ((x.1 / 2 ^ (k * fmtBits f)) % 2 ^ fmtBits f)
    if isMX f then mxValue v x.2 else v

/-- The signed bytes of an INT8 or slice-format lane word. -/
def laneInts (x : Nat × Nat) : List Int := (List.range 4).map fun k => signed 8 (x.1 / 2 ^ (8 * k))

/-- An element as ACC = 0, or a replayed round, starts it (R82, R119, R134). -/
def startElem (kind : AccKind) (mode : Nat) : Elem :=
  match kind with
  | .extremumF => { Elem.zero with x := extIdentity false (wantsMax mode) }
  | .extremumI => { Elem.zero with x := extIdentity true (wantsMax mode) }
  | _ => Elem.zero

/-- One element after a slice, and whether it counts a LONGSUM event (R85, R119, R126, R127, R89). -/
def sliceElem1 (f : Feed) (fixed : Option Int) (p q : Nat) (xa xb : List Num) (ia ib : List Int) (e : Elem) : Elem × Bool :=
  match f.kind with
  | .window => e.window fixed xa.length ((xa.zip xb).map fun t => term f.mode t.1 t.2)
  | .integer => (e.integer ia.length ((ia.zip ib).map fun t => termI f.mode t.1 t.2), false)
  | .slice => (e.slice (if f.fa = 0xE then 6 else 5) p q ((ia.zip ib).map fun t => t.1 * t.2), false)
  | .extremumF => (e.extremumF (wantsMax f.mode) ((xa.zip xb).map fun t => term f.mode t.1 t.2), false)
  | .extremumI => (e.extremumI (wantsMax f.mode) ((ia.zip ib).map fun t => termI f.mode t.1 t.2), false)
  | .none => (e, false)

/-- An element of unpredictable results (R68, R69): every field free. -/
def freeElem (draw k : Nat) : Elem :=
  let r := Config.freeBits (draw + 3 * k)
  let u := Config.freeBits (draw + 3 * k + 1)
  { v := signed 81 (r.toNat + fld u 0 17 * 2 ^ 64), a := sfld u 17 10, c := fld u 27 16, z := bit u 43, pinf := bit u 44,
    ninf := bit u 45, fresh := false, long := bit u 46, ovr := bit u 47, x := Config.freeBits (draw + 3 * k + 2) }

/-- The elements of a tile, keyed 32i + j, made by a function of the old ones. -/
def mapElems (m : SMap Elem) (g : Nat → Elem → Elem) : SMap Elem :=
  (List.range 1024).filterMap fun k =>
    let e := g k (SMap.get Elem.zero m k)
    if e = Elem.zero then none else some (k, e)

/-- The row segment of logical row i, and its bypass delay: physical rows from d on are one higher, and are reached a cycle later, on
a tile whose row d is bypassed (R72, R76). -/
def rowDelay (bypass i : Nat) : Nat :=
  let b := if bypass < 32 ∧ bypass ≤ i then 1 else 0
  Nat.min ((i + b) / 8) 3 + b

/-- The cycles by which cell (i, j), keyed 32i + j, is later than block (0, 0): r + s + b (R72, R78). -/
def cellDelay (bypass k : Nat) : Nat := rowDelay bypass (k / 32) + k % 32 / 8

/-- One slice folded into an output tile (R63, R82, R85): the tile, and the cells that count a LONGSUM event. -/
def accumulate (f : Feed) (w : SliceWords) (bad : Bool) (t : AccTile) : AccTile × List Nat :=
  let start := f.slice == 0 && (!f.add || decide (0 < f.round))
  let old (k : Nat) : Elem :=
    if start then startElem f.kind f.mode
    else
      let e := SMap.get Elem.zero t.elems k
      if f.slice = 0 then { e with ovr := false } else e
  if bad then ({ t with elems := mapElems t.elems fun k _ => freeElem f.draw k }, [])
  else
    let na := w.a.map (laneNums f.fa)
    let nb := w.b.map (laneNums f.fb)
    let ia := w.a.map laneInts
    let ib := w.b.map laneInts
    let one (k : Nat) : Elem × Bool :=
      match na[k / 32]?, nb[k % 32]? with
      | some xa, some xb =>
        sliceElem1 f (fixedAnchor f.kind t) w.p w.q xa xb (ia.getD (k / 32) []) (ib.getD (k % 32) []) (old k)
      | _, _ => (old k, false)
    ({ t with elems := mapElems t.elems fun k _ => (one k).1 }, (List.range 1024).filter fun k => (one k).2)

/-- The overflow test at the end of a round (R134): every tested element marked, and whether any overflows. -/
def testRound (kind : AccKind) (la lb : Nat) (t : AccTile) : AccTile × Bool :=
  let ovr (k : Nat) (e : Elem) : Bool := decide (k / 32 < la) && decide (k % 32 < lb) && e.overflows kind t
  ({ t with elems := mapElems t.elems fun k e => { e with ovr := ovr k e } },
   (List.range 1024).any fun k => ovr k (SMap.get Elem.zero t.elems k))

/-- Slices of a round. -/
def Feed.slices (f : Feed) : Nat := f.periods.foldl (fun a p => a + p.k) 0

/-- The cycle in which SLICE_ACCUMULATE shows a slice: its accumulate stage in block (0, 0), and no earlier than the cycle after its
period's last read (R73, R224; log entry 11). -/
def SliceWords.shown (w : SliceWords) : Nat := Nat.max w.at_ (w.rdy + 1)

/-- A tile just before the end of cycle c: what is due is in effect, and the reads of earlier cycles are made (R218). -/
def Tile.reach (t : Tile) (c : Nat) : Tile := (t.upTo c).latchMem (c - 1)

/-- The next slice of a tile: the first feeding instruction that still accumulates and does not await a decision, with its next slice
once it is read; everything up to the slice's cycle is in effect. -/
def nextSlice (t : Tile) : Option (Tile × Feed × SliceWords) :=
  match t.feeds.find? fun f => !f.awaiting && !f.closed with
  | none => none
  | some f =>
    let g := latchFeed t (f.issue + 3) f
    match g.periods[g.per]?, g.words with
    | _, w :: _ => some (t.reach w.shown, f, w)
    | some pd, [] =>
      let t1 := t.reach (g.roundAt g.rnd + pd.start + pd.cost)
      match (t1.feeds.find? fun h => h.issue == f.issue).bind fun h => h.words.head? with
      | some w => some (t1.reach w.shown, f, w)
      | none => none
    | none, [] => none

/-- Whether a feeding instruction's descriptors make its results unpredictable (R68, R69). -/
def Feed.bad (f : Feed) : Bool := badFeed f (decodeDesc (f.op != .mma) f.descA) (decodeDesc (f.op != .mma) f.descB)

/-- One slice of feeding instruction g accumulates; each cell counts its LONGSUM event in its own accumulate stage (R72, R123, R217), a
bypassed row's a cycle later: a CENS near it can see the repair, which R59 and R78 say no program detects (DESIGN CHOICE, log entry 116). -/
def Tile.takeSlice (t : Tile) (bypass : Nat) (g : Feed) (w : SliceWords) : Tile :=
  let (a, cells) := accumulate g w g.bad (t.acc g.acc)
  let t1 := cells.foldl (fun t k => t.countEvent (w.at_ + cellDelay bypass k) cLONGSUM) t
  let t2 := { t1 with longsum := t1.longsum || !cells.isEmpty }
  let g1 := { g with words := g.words.drop 1, slice := g.slice + 1 }
  if g1.slice < g1.slices then
    { (t2.setAcc g.acc a) with feeds := t2.feeds.map fun x => if x.issue == g.issue then g1 else x }
  else if a.scaled then
    let (a1, ovr) := testRound g.kind w.a.length w.b.length a
    let g2 := { g1 with ovr := ovr, awaiting := true }
    { (t2.setAcc g.acc a1) with feeds := t2.feeds.map fun x => if x.issue == g.issue then g2 else x }
  else (t2.setAcc g.acc a).endFeed g

/-- SLICE_ACCUMULATE (R73, R85, R119, R126, R127): the accumulate stage of the tile's next slice. With the first slice of a feed whose
descriptors make its results unpredictable the job may fault (R11, R68, R69; log entry 32). -/
def execSliceAccumulate (site : Site) (s : State) : Host.Outcome State Fault Refusal :=
  .next (if s.dev == .run && (s.tile site).pwr == .active then
    match nextSlice (s.tile site) with
    | some (t, f, w) =>
      match t.feeds.find? fun g => g.issue == f.issue with
      | some g =>
        let s1 := (toCycle s w.shown).putTile site (t.takeSlice (SMap.get 32 s.fuse.bypass site) g w)
        if g.bad && g.round == 0 && g.slice == 0 then mayFault s1 else s1
      | none => s
    | none => s
  else s)

/-- REPLAY_DECISION (R134, R135, R200): at t_end,k + 13. Where no further round is needed, the feed's remaining rounds are still read. -/
def execReplayDecision (site : Site) (s : State) : Host.Outcome State Fault Refusal :=
  .next (if s.dev == .run && (s.tile site).pwr == .active then
    match (s.tile site).feeds.find? fun f => f.awaiting with
    | none => s
    | some f =>
      let c := f.roundAt f.round + f.span - 1 + 13
      let t := (s.tile site).toWrite c
      let a := t.acc f.acc
      let t1 :=
        if f.ovr && decide (f.round < f.rb) && decide (a.osc.toNat < 254) then
          { ((t.setAcc f.acc { a with osc := a.osc + 1 }).countEvent c cREPLAY) with
            feeds := t.feeds.map fun x =>
              if x.issue == f.issue then { x with round := f.round + 1, slice := 0, ovr := false, awaiting := false } else x }
        else if f.ovr then ({ (t.countEvent c cOVF) with ovf := true }).endFeed f
        else t.endFeed f
      (toCycle s c).putTile site t1
  else s)

/-! ### MDRAIN -/

/-- Fields of MDRAIN (R192). -/
def dOF (w : BitVec 43) : Nat := fld w 37 4
/-- RM. -/
def dRM (w : BitVec 43) : Nat := fld w 34 3
/-- DST. -/
def dDST (w : BitVec 43) : Bool := bit w 41

/-- Formats that no drain may write (R92, R195). -/
def undrainable (f : Nat) : Bool := f == fTF32 || f == fFP64 || isSlice f

/-- The drain formats that a kind permits (R116). -/
def drainPermits (k : AccKind) (f : Nat) : Bool :=
  match k with
  | .none => false
  | .window => f != fINT64
  | .integer => f == fINT64 || f == fINT8
  | .slice => f == fINT64
  | .extremumF => f == fFP32 || f == fBF16 || f == fFP16 || f == fE4M3 || f == fE5M2
  | .extremumI => f == fINT64

/-- Issue faults of MDRAIN (R161, R103, R192, R194, R195). -/
def drainCode (t : Tile) (w : BitVec 43) : Option Nat :=
  let f := dOF w
  let a := t.acc (fT w)
  let wide := f == fFP32 || f == fBF16 || f == fFP16 || f == fINT64
  firstCode [
    ((if dDST w then fld w 0 22 != 0 else fld w 0 15 != 0 || (!isMX f && fld w 23 4 != 0)) || (bit w 32 && !isMX f), 2),
    (undrainable f || (dDST w && !wide), 4),
    (decide (4 < dRM w), 5),
    (dDST w && !operandFits (fmtBits f) (fld w 22 6) 1024, 6),
    (match t.drainAt with | some d => decide (t.now < d + 32) | none => false, 9),
    (!drainPermits a.kind f || (bit w 31 && a.kind != .slice), 0x0A)]

/-- Free values of a drain: a draw, and a class, for each element, and a scale for each row. -/
def drainDraws : Nat := 2080

/-- The drain that issues in the tile's cycle; early when R75 calls it unpredictable. -/
def mkDrain (t : Tile) (draw : Nat) (w : BitVec 43) : Drain :=
  { src := t.acc (fT w), toReg := dDST w, ofmt := dOF w, rm := dRM w, sat := bit w 33, scm := bit w 32, part := bit w 31,
    base := fld (t.areg (fld w 27 4)) 5 16 * 32, sbase := fld (t.areg (fld w 23 4)) 0 21, pitch := fld w 15 8 + 1,
    vr := fld w 28 3, ofs := fld w 22 6, issue := t.now, draw := draw, row := 0,
    early := match t.accTL (fT w) with | some tl => decide (t.now < tl + 7) | none => false }

/-- MDRAIN at issue (R84, R192 to R196). With one that is too early for R75 the job may fault (R11; log entry 32). -/
def issueDrain (site : Site) (w : BitVec 43) (s : State) : State :=
  beginSlot s site .matrix (.mdrain site w) (fun _ t => drainCode t w) (fun s t =>
    let d := mkDrain t s.free w
    let t1 := { t with drains := t.drains ++ [d], drainAt := some t.now,
                       drain0At := if fT w = 0 then some t.now else t.drain0At,
                       drain1At := if fT w = 0 then t.drain1At else some t.now }
    let s1 := drew (s.setTile site t1) drainDraws
    if d.early then mayFault s1 else s1)

/-- MDRAIN (R84, R192 to R196). -/
def execMdrain (site : Site) (w : BitVec 43) (s : State) : Host.Outcome State Fault Refusal := .next (issueDrain site w s)

/-- DRAIN_ROW_WRITE (R84): the next row of the tile's drain, after every row and beat that is due before it (R147, R218). -/
def execDrainRowWrite (site : Site) (s : State) : Host.Outcome State Fault Refusal :=
  .next (if s.dev == .run && (s.tile site).pwr == .active then
    match (s.tile site).drains with
    | [] => s
    | d :: _ => (toCycle s d.rowAt).putTile site (((s.tile site).settleWriters (d.rowAt, issueRank d.issue 0)).writeRow d)
  else s)

/-! ### MSCALE -/

/-- Issue faults of MSCALE (R136, R161, R198, R199). -/
def mscaleCode (t : Tile) (w : BitVec 43) : Option Nat :=
  let src := bit w 36
  firstCode [((if src then fld w 0 31 != 0 else fld w 0 28 != 0 || fld w 28 8 == 0xFF), 2),
    (decide (fld w 37 4 < 6) || decide (0xB < fld w 37 4), 4),
    (match t.accTL (fT w) with | some tl => decide (t.now ≤ tl + 13) | none => false, 0x0B)]

/-- The OSC that MSCALE sets (R199). -/
def mscaleOSC (t : Tile) (w : BitVec 43) : Nat :=
  if bit w 36 then Nat.min (fld (t.sreg (fld w 31 5)) 0 8) 254 else fld w 28 8

/-- MSCALE at issue (R131, R199): in effect from the cycle after. -/
def issueScale (site : Site) (w : BitVec 43) (s : State) : State :=
  beginSlot s site .matrix (.mscale site w) (fun _ t => mscaleCode t w) (fun s t =>
    let c : ScaleWrite := { at_ := t.now + 1, acc := fT w, osc := BitVec.ofNat 8 (mscaleOSC t w),
                            ofmt := BitVec.ofNat 4 (fld w 37 4), scaled := bit w 41 }
    s.setTile site { t with scaleWrites := t.scaleWrites ++ [c] })

/-- MSCALE (R131, R199). -/
def execMscale (site : Site) (w : BitVec 43) (s : State) : Host.Outcome State Fault Refusal := .next (issueScale site w s)

end Sys2Proof.Machine
end

