-- ==== Sys2Proof/Machine/Vector.lean ====
section
/-! DEFINITION. The vector slot: issue of the vector instructions (R140 to R158, R201 to R214), and VECTOR_BEAT_WRITE. -/

namespace Sys2Proof.Machine

/-! ### Issue faults -/

/-- Vector arithmetic formats with FP64, and without (R203). -/
def vfmt4 (f : Nat) : Bool := f == fFP32 || f == fBF16 || f == fFP16 || f == fFP64
/-- Without FP64. -/
def vfmt3 (f : Nat) : Bool := f == fFP32 || f == fBF16 || f == fFP16

/-- Kinds whose bundle holds VEXT (R167). -/
def needsExt (k : VKind) : Bool :=
  match k with
  | .fma => true | .cmp => true | .sel => true | .cvtPlain => true | .cvtSlice => true | .rec7 => true | .rec6 => true
  | _ => false

/-- Kinds that take one source operand (R203). -/
def oneSource (k : VKind) : Bool :=
  match k with
  | .sqrt => true | .exp => true | .log => true | .rcp => true | .rsqrt => true | .tanh => true | _ => false

/-- Pipes of a kind: arithmetic, special-function, memory (R144). -/
def vPipes (k : VKind) : Bool × Bool × Bool :=
  match k with
  | .div => (false, true, false) | .sqrt => (false, true, false) | .rcp => (false, true, false)
  | .rsqrt => (false, true, false) | .exp => (false, true, false) | .log => (false, true, false)
  | .tanh => (false, true, false) | .ld => (false, false, true) | .st => (false, false, true)
  | .upd => (true, true, false) | _ => (true, false, false)

/-- Whether two kinds need one pipe. -/
def pipesMeet (a b : VKind) : Bool :=
  let (x1, y1, z1) := vPipes a
  let (x2, y2, z2) := vPipes b
  (x1 && x2) || (y1 && y2) || (z1 && z2)

/-- The last cycle in which an instruction occupies its pipes (R144, R226). -/
def Tile.opEnd (t : Tile) (op : VOp) : Nat :=
  if op.gen then t.genEnd op + (if op.kind = .st then 1 else 0) else op.issue + op.beats - 1

/-- AMODE of VLD and VST. -/
def vAMODE (w : BitVec 43) : Nat := fld w 12 2

/-- Whether a PLAIN conversion has an MX side. -/
def plainMX (w : BitVec 43) (e : BitVec 26) : Bool := isMX (vF w) || isMX (xDF e)

/-- Registers that a form of VUPD uses, of H, L, G, M, V (R156). -/
def updUses (form : Nat) : Nat := if form = 0 then 3 else if form = 2 then 5 else 4

/-- Code 0x02: a reserved bit, or an unassigned value (R161, R202, R204, R209, R210, R213). -/
def vReserved (k : VKind) (w : BitVec 43) (e : BitVec 26) : Bool :=
  match k with
  | .fma => fld e 0 17 != 0
  | .sel => fld e 0 17 != 0
  | .cmp => fld e 0 23 != 0 || decide (5 < fld e 23 3)
  | .cvtPlain => fld e 0 10 != 0 || (!plainMX w e && fld w 0 9 != 0)
  | .cvtSlice => fld e 0 10 != 0
  | .rec7 => fld e 0 10 != 0
  | .rec6 => fld e 0 10 != 0
  | .red => fld w 0 3 != 0 || decide (2 < fld w 6 3)
  | .ld => fld w 0 11 != 0 || vAMODE w == 3 || (bit w 11 && vAMODE w != 0)
  | .st => fld w 0 11 != 0 || vAMODE w == 3 || (bit w 11 && vAMODE w != 0)
  | .upd => bit w 39 || bit w 0 || (List.range 5).any fun i => decide (updUses (uFORM w) ≤ i) && uReg w i != 0
  | _ => oneSource k && fld w 0 9 != 0

/-- Code 0x04: formats (R92, R203, R205, R206, R211). -/
def vFormatBad (k : VKind) (w : BitVec 43) (e : BitVec 26) : Bool :=
  let f := vF w
  let df := xDF e
  match k with
  | .rcp => !vfmt3 f
  | .rsqrt => !vfmt3 f
  | .tanh => !vfmt3 f
  | .ld => isSlice f
  | .st => isSlice f
  | .upd => false
  | .cvtPlain =>
    isSlice f || isSlice df || (isMX f && isMX df) || (xSCM e && !isMX df)
      || (xSS e != 0 && !(df == fINT8 || (isMX df && !xSCM e)))
  | .cvtSlice => f != fFP64 || !isSlice df || (!xSCM e && xSS e != 0)
  | .rec7 => f != fINT64 || df != fFP64 || xSCM e
  | .rec6 => f != fINT64 || df != fFP64 || xSCM e
  | _ => !vfmt4 f

/-- The segment length of VRED (R209). -/
def redLs (w : BitVec 43) : Nat := 2 ^ (fld w 3 3 + 5)

/-- Code 0x06: an operand outside its register, or another operand rule (R141, R152, R156, R202, R206 to R209, R213). -/
def vOperandBad (k : VKind) (w : BitVec 43) (e : BitVec 26) : Bool :=
  let n := vN w
  let b := fmtBits (vF w)
  let fits (width ofs m : Nat) : Bool := operandFits width ofs m
  match k with
  | .cvtPlain =>
    !fits b (vOA w) n || !fits (fmtBits (xDF e)) (vOD w) n
      || (plainMX w e && (n % 32 != 0 || !fits 8 (vOB w) (n / 32)))
  | .cvtSlice =>
    decide (2048 < n) || !fits 64 (vOA w) n
      || decide (4096 < 64 * vOD w + 16 * ceilDiv n 64 * (if xDF e = 0xE then 7 else 6))
  | .rec7 => decide (2048 < n) || !fits 64 (vOA w) n || !fits 64 (vOB w) n || !fits 64 (vOD w) n
  | .rec6 => decide (2048 < n) || !fits 64 (vOA w) n || !fits 64 (vOB w) n || !fits 64 (vOD w) n
  | .red =>
    n % redLs w != 0 || !fits b (vOA w) n
      || !fits (if fld w 6 3 = 0 ∧ vF w ≠ fFP64 then 32 else b) (vOD w) (n / redLs w)
  | .ld => !fits b (vOD w) n
  | .st => !fits b (vOD w) n
  | .upd =>
    let used := (List.range (updUses (uFORM w))).map (uReg w)
    uBASE w == 0 || decide (24 < uBASE w) || used.eraseDups.length != used.length || !fits 16 (uOFS w) n
      || !fits (if bit w 40 then 16 else 32) (uOFS w) n || (decide (3 < updUses (uFORM w)) && !fits 32 (uOFS w) n)
  | _ =>
    !fits b (vOA w) n || !fits b (vOD w) n || (!oneSource k && !fits b (vOB w) n)
      || ((k == .fma || k == .sel) && !fits b (xOC e) n)

/-- Code 0x07: a pipe, or for a generator mode a generator, is occupied (R144, R212). -/
def vBusy (t : Tile) (k : VKind) (w : BitVec 43) : Bool :=
  (t.vops.any fun op => pipesMeet op.kind k && decide (t.now ≤ t.opEnd op))
    || ((k == .ld || k == .st) && vAMODE w != 0
        && match t.lastTL with | some tl => decide (t.now ≤ tl) | none => false)

/-- Issue faults of a vector instruction (R185). -/
def vectorCode (k : VKind) (t : Tile) (w : BitVec 43) (x : Option (BitVec 26)) : Option Nat :=
  let e := x.getD 0
  let ok := needsExt k == x.isSome
  firstCode [((ok || !needsExt k) && vReserved k w e, 2), (!ok, 3), (vFormatBad k w e, 4),
    (match k with
      | .cvtPlain => decide (4 < xRM e) | .cvtSlice => decide (4 < xRM e) | .rec7 => decide (4 < xRM e)
      | .rec6 => decide (4 < xRM e) | _ => false, 5),
    (vOperandBad k w e, 6), (vBusy t k w, 7)]

/-! ### Issue -/

/-- Free values that a vector instruction may need: one for each element and one more, or one for each word. -/
def vectorDraws : Nat := 4160

/-- The instruction as it issues: scalar operands and addresses as read in the issue cycle, a
descriptor's from bits [20:7] (R145, R157, R187, R205, R211). -/
def mkVOp (b0 : Bool) (k : VKind) (t : Tile) (draw : Nat) (w : BitVec 43) (e : BitVec 26) : VOp :=
  let mem := k == .ld || k == .st
  let gen := mem && vAMODE w != 0
  let beats := vBeats k w e
  { kind := k, fmt := vF w, n := vN w, w := w, vext := e, scalar := if needsExt k then t.sreg (xSS e) else 0,
    params := if k = .upd then (List.range 8).map fun i => t.sreg (uBASE w + i) else [],
    base := if gen then fld (t.areg (fld w 14 4)) 7 14 * 128 else fld (t.areg (fld w 14 4)) 5 16 * 32,
    gen := gen, issue := t.now, beats := beats, lat := vLat b0 k w e, parts := 0, desc := [], draw := draw, latched := 0,
    off := 0, held := [], reads := [], upset := false,
    next := if k = .cvtSlice ∧ !xSCM e then beats / 2 else 0, seen := [], results := [] }

/-- The tile after a vector instruction issues; INC advances the address register (R211). -/
def Tile.startVector (t : Tile) (op : VOp) (w : BitVec 43) : Tile :=
  let t1 := { t with vops := t.vops ++ [op] }
  if (op.kind == .ld || op.kind == .st) && bit w 11 then
    t1.writeInc (t.now + 1) (fld w 14 4) (t.areg (fld w 14 4) + BitVec.ofNat 32 (32 * ceilDiv (vWords w) 8))
  else t1

/-- The command of each vector kind. -/
def vectorInstr (k : VKind) (x : Site) (w : BitVec 43) (e : Option (BitVec 26)) : Instr :=
  match k with
  | .add => .vadd x w e | .sub => .vsub x w e | .mul => .vmul x w e | .fma => .vfma x w e | .vmin => .vmin x w e
  | .vmax => .vmax x w e | .cmp => .vcmp x w e | .sel => .vsel x w e | .cvtPlain => .vcvtPlain x w e
  | .cvtSlice => .vcvtSlice x w e | .rec7 => .vcvtRecombine7 x w e | .rec6 => .vcvtRecombine6 x w e | .red => .vred x w e
  | .div => .vdiv x w e | .sqrt => .vsqrt x w e | .rcp => .vrcp x w e | .rsqrt => .vrsqrt x w e | .exp => .vexp x w e
  | .log => .vlog x w e | .tanh => .vtanh x w e | .ld => .vld x w e | .st => .vst x w e | .upd => .vupd x w e

/-- Whether an instruction's scalar operand makes its results unpredictable: a supplied exponent out of range (R207). -/
def VOp.outOfRange (op : VOp) : Bool := op.kind == .cvtSlice && xSCM op.vext && badExp (sfld op.scalar 0 12)

/-- What a vector instruction does as it issues. With an operand that makes its results unpredictable the job may fault (R11, R207; log
entry 32). -/
def startOp (k : VKind) (site : Site) (w : BitVec 43) (e : BitVec 26) (s : State) (t : Tile) : State :=
  let op := mkVOp s.fuse.b0 k t s.free w e
  let s1 := drew (s.setTile site (t.startVector op w)) vectorDraws
  if op.outOfRange then mayFault s1 else s1

/-- A vector instruction issues, one to a bundle (R144, R163). With VEXT it fills the control slot too, and closes the bundle (R167). -/
def issueVector (k : VKind) (site : Site) (w : BitVec 43) (x : Option (BitVec 26)) (s : State) : State :=
  match x with
  | none => beginSlot s site .vector (vectorInstr k site w none) (fun _ t => vectorCode k t w none) (startOp k site w 0)
  | some e =>
    if (s.tile site).slotTaken .vector then s
    else closeSlot s site (fun _ t => vectorCode k t w (some e)) (startOp k site w e)

/-- A VCVT of a form: a VEXT of another form spells another command. -/
def issueCvt (k : VKind) (form : Nat) (site : Site) (w : BitVec 43) (x : Option (BitVec 26)) (s : State) : State :=
  match x with
  | none => issueVector k site w x s
  | some e => if xFORM e = form then issueVector k site w x s else s

/-- VADD (R148, R203). -/
def execVadd (site : Site) (w : BitVec 43) (vext : Option (BitVec 26)) (s : State) : Host.Outcome State Fault Refusal :=
  .next (issueVector .add site w vext s)

/-- VSUB (R148, R203). -/
def execVsub (site : Site) (w : BitVec 43) (vext : Option (BitVec 26)) (s : State) : Host.Outcome State Fault Refusal :=
  .next (issueVector .sub site w vext s)

/-- VMUL (R148, R203). -/
def execVmul (site : Site) (w : BitVec 43) (vext : Option (BitVec 26)) (s : State) : Host.Outcome State Fault Refusal :=
  .next (issueVector .mul site w vext s)

/-- VFMA (R148, R203, R204). -/
def execVfma (site : Site) (w : BitVec 43) (vext : Option (BitVec 26)) (s : State) : Host.Outcome State Fault Refusal :=
  .next (issueVector .fma site w vext s)

/-- VMIN (R148, R203). -/
def execVmin (site : Site) (w : BitVec 43) (vext : Option (BitVec 26)) (s : State) : Host.Outcome State Fault Refusal :=
  .next (issueVector .vmin site w vext s)

/-- VMAX (R148, R203). -/
def execVmax (site : Site) (w : BitVec 43) (vext : Option (BitVec 26)) (s : State) : Host.Outcome State Fault Refusal :=
  .next (issueVector .vmax site w vext s)

/-- VCMP (R149, R204). -/
def execVcmp (site : Site) (w : BitVec 43) (vext : Option (BitVec 26)) (s : State) : Host.Outcome State Fault Refusal :=
  .next (issueVector .cmp site w vext s)

/-- VSEL (R149, R204; the mask by its bits, log entry 21). -/
def execVsel (site : Site) (w : BitVec 43) (vext : Option (BitVec 26)) (s : State) : Host.Outcome State Fault Refusal :=
  .next (issueVector .sel site w vext s)

/-- VCVT, PLAIN (R205, R206). -/
def execVcvtPlain (site : Site) (w : BitVec 43) (vext : Option (BitVec 26)) (s : State) : Host.Outcome State Fault Refusal :=
  .next (issueCvt .cvtPlain 0 site w vext s)

/-- VCVT, SLICE (R207). -/
def execVcvtSlice (site : Site) (w : BitVec 43) (vext : Option (BitVec 26)) (s : State) : Host.Outcome State Fault Refusal :=
  .next (issueCvt .cvtSlice 1 site w vext s)

/-- VCVT, RECOMBINE7 (R208). -/
def execVcvtRecombine7 (site : Site) (w : BitVec 43) (vext : Option (BitVec 26)) (s : State) : Host.Outcome State Fault Refusal :=
  .next (issueCvt .rec7 2 site w vext s)

/-- VCVT, RECOMBINE6 (R208). -/
def execVcvtRecombine6 (site : Site) (w : BitVec 43) (vext : Option (BitVec 26)) (s : State) : Host.Outcome State Fault Refusal :=
  .next (issueCvt .rec6 3 site w vext s)

/-- VRED (R152, R209). -/
def execVred (site : Site) (w : BitVec 43) (vext : Option (BitVec 26)) (s : State) : Host.Outcome State Fault Refusal :=
  .next (issueVector .red site w vext s)

/-- VDIV (R150, R203). -/
def execVdiv (site : Site) (w : BitVec 43) (vext : Option (BitVec 26)) (s : State) : Host.Outcome State Fault Refusal :=
  .next (issueVector .div site w vext s)

/-- VSQRT (R150, R203). -/
def execVsqrt (site : Site) (w : BitVec 43) (vext : Option (BitVec 26)) (s : State) : Host.Outcome State Fault Refusal :=
  .next (issueVector .sqrt site w vext s)

/-- VRCP (R150, R203). -/
def execVrcp (site : Site) (w : BitVec 43) (vext : Option (BitVec 26)) (s : State) : Host.Outcome State Fault Refusal :=
  .next (issueVector .rcp site w vext s)

/-- VRSQRT (R150, R203). -/
def execVrsqrt (site : Site) (w : BitVec 43) (vext : Option (BitVec 26)) (s : State) : Host.Outcome State Fault Refusal :=
  .next (issueVector .rsqrt site w vext s)

/-- VEXP (R150, R203). -/
def execVexp (site : Site) (w : BitVec 43) (vext : Option (BitVec 26)) (s : State) : Host.Outcome State Fault Refusal :=
  .next (issueVector .exp site w vext s)

/-- VLOG (R150, R203). -/
def execVlog (site : Site) (w : BitVec 43) (vext : Option (BitVec 26)) (s : State) : Host.Outcome State Fault Refusal :=
  .next (issueVector .log site w vext s)

/-- VTANH (R150, R203). -/
def execVtanh (site : Site) (w : BitVec 43) (vext : Option (BitVec 26)) (s : State) : Host.Outcome State Fault Refusal :=
  .next (issueVector .tanh site w vext s)

/-- VLD (R211, R226). -/
def execVld (site : Site) (w : BitVec 43) (vext : Option (BitVec 26)) (s : State) : Host.Outcome State Fault Refusal :=
  .next (issueVector .ld site w vext s)

/-- VST (R211, R226). -/
def execVst (site : Site) (w : BitVec 43) (vext : Option (BitVec 26)) (s : State) : Host.Outcome State Fault Refusal :=
  .next (issueVector .st site w vext s)

/-- VUPD (R156 to R158, R213, R214). -/
def execVupd (site : Site) (w : BitVec 43) (vext : Option (BitVec 26)) (s : State) : Host.Outcome State Fault Refusal :=
  .next (issueVector .upd site w vext s)

/-! ### Beats -/

/-- Whether the first beat of an instruction shows a descriptor of unpredictable results (R68, R226). -/
def VOp.misled (op : VOp) : Bool := op.gen && op.next == 0 && genBad (decodeDesc true op.desc) (vWords op.w)

/-- VECTOR_BEAT_WRITE (R145, R147, R207, R211, R226): the beat that is due first, after every drain row that is due before it. With the
first beat of a descriptor of unpredictable results the job may fault (R11; log entry 32). -/
def execVectorBeatWrite (site : Site) (s : State) : Host.Outcome State Fault Refusal :=
  let t := s.tile site
  .next (if s.dev == .run && t.pwr == .active then
    match nextBeatOp t.vops t.beatDue with
    | none => s
    | some op =>
      let c := t.beatDue op
      match ((t.settleRows (c, issueRank op.issue 2)).beforeBeat c).oneBeat op c with
      | some u =>
        let s1 := (toCycle s c).putTile site u
        if (latchDesc t (op.issue + 3) op).misled then mayFault s1 else s1
      | none => s
  else s)

end Sys2Proof.Machine
end

