-- ==== Sys2Proof/Machine/Waiting.lean ====
section
/-! DEFINITION. The matrix and vector slots of a bundle whose queue instruction stalled issue when it retires (R164); the bundle that
fetch reads at the program counter (R44, R159). -/

namespace Sys2Proof.Machine

/-- A matrix or vector command of a bundle begins. -/
def beginCommand (i : Instr) (s : State) : State :=
  match i with
  | .mma x w => issueFeed .mma x w s | .mconv x w => issueFeed .mconv x w s | .mdist x w => issueFeed .mdist x w s
  | .mdrain x w => issueDrain x w s | .mscale x w => issueScale x w s
  | .nop x k w => if k == .control then s else beginSlot s x k (.nop x k w) (fun _ _ => nopCode k w) (fun s _ => s)
  | .vadd x w e => issueVector .add x w e s | .vsub x w e => issueVector .sub x w e s | .vmul x w e => issueVector .mul x w e s
  | .vmin x w e => issueVector .vmin x w e s | .vmax x w e => issueVector .vmax x w e s | .vred x w e => issueVector .red x w e s
  | .vdiv x w e => issueVector .div x w e s | .vsqrt x w e => issueVector .sqrt x w e s | .vrcp x w e => issueVector .rcp x w e s
  | .vrsqrt x w e => issueVector .rsqrt x w e s | .vexp x w e => issueVector .exp x w e s | .vlog x w e => issueVector .log x w e s
  | .vtanh x w e => issueVector .tanh x w e s | .vld x w e => issueVector .ld x w e s | .vst x w e => issueVector .st x w e s
  | .vupd x w e => issueVector .upd x w e s
  | .vfma x w e => issueVector .fma x w e s | .vcmp x w e => issueVector .cmp x w e s | .vsel x w e => issueVector .sel x w e s
  | .vcvtPlain x w e => issueVector .cvtPlain x w e s | .vcvtSlice x w e => issueVector .cvtSlice x w e s
  | .vcvtRecombine7 x w e => issueVector .rec7 x w e s | .vcvtRecombine6 x w e => issueVector .rec6 x w e s
  | _ => s

/-- The matrix and vector slots that have waited with a stalled queue instruction issue in the tile's cycle (R164). -/
def issueWaiting (s : State) (x : Site) : State :=
  let b := (s.tile x).bundle
  (b.matrix.toList ++ b.vector.toList).foldl (fun s i => beginCommand i s) (s.onTile x fun t => { t with bundle := Bundle.empty })

/-- The bundle at an address of tile memory, as a number (R159). -/
def Tile.bundleAt (t : Tile) (a : Nat) : BitVec 128 := BitVec.ofNat 128 (leNat (t.readMem a 16))

/-- The commands that the bundle at the tile's program counter spells (R44, R159). -/
def fetched (s : State) (x : Site) : List Instr := decodeBundle x ((s.tile x).bundleAt (s.tile x).pc)

end Sys2Proof.Machine
end

