-- ==== Sys2Proof/Machine/Queue.lean ====
section
/-! DEFINITION. Queue traffic of a tile: QREQ and QWAIT (R29, R174 to R178), sending reads (R222), landing writes (R45),
outcomes (R177, R299), acknowledgements and stage streams (R326 to R329). -/

namespace Sys2Proof.Machine

/-! ### Request records (R174, R175, R272) -/

/-- The eight words of a record. -/
def recordAt (t : Tile) (a : Nat) : List Word := leWords 8 (t.readMem a 32)

/-- TARGET of a record. -/
def recTarget (ws : List Word) : Nat := (wordAt ws 4).toNat + (wordAt ws 5).toNat * 2 ^ 32

/-- Whether a TARGET has a bit outside the form of its kind (R272). -/
def targetBad (k : ReqKind) (v : Nat) : Bool :=
  match k with
  | .gread | .gwrite | .accum => decide (2 ^ 41 ≤ v) || v % 32 != 0
  | .rread | .rwrite => decide (2 ^ 29 ≤ v) || v % 32 != 0
  | .hread | .hwrite => v % 32 != 0
  | .loan => decide (2 ^ 19 ≤ v)
  | .loanwait => decide (2 ^ 16 ≤ v)
  | .ssend | .srecv => v != 0

/-- A reserved KIND or a reserved record bit (R175). -/
def recordBad (ws : List Word) : Bool :=
  match kindOfCode (fld (wordAt ws 0) 0 4) with
  | none => true
  | some k =>
    fld (wordAt ws 1) 21 11 != 0 || (k != .loanwait && fld (wordAt ws 1) 0 5 != 0) || fld (wordAt ws 2) 16 16 != 0
      || fld (wordAt ws 3) 24 8 != 0 || fld (wordAt ws 6) 14 18 != 0 || wordAt ws 7 != 0 || targetBad k (recTarget ws)

/-- The request that a good record makes in cycle c; an on-demand LOAN without a deadline takes its card's class (R294). -/
def mkRequest (s : State) (t : Tile) (ws : List Word) (c : Nat) : Request :=
  let w0 := wordAt ws 0
  let kind := (kindOfCode (fld w0 0 4)).getD .gread
  let dl := fld (wordAt ws 3) 0 24
  let entry := schedEntry s (jobFolio s) (recTarget ws)
  { id := t.nextReq, kind := kind, rg := fld w0 4 3,
    nolapse := kind.canLapse && (bit w0 7 || (kind == .loanwait && entry.nolapse)),
    stream := fld w0 8 8, tag := fld w0 16 16, laddr := fld (wordAt ws 1) 0 21,
    len := if kind = .loanwait then 0 else fld (wordAt ws 2) 0 16,
    deadline := if kind = .loan ∧ dl = 0 then classDeadline s (decodeCard (cardWords s (recTarget ws))) else dl,
    target := recTarget ws, worker := fld (wordAt ws 6) 0 14, start := c, ready := c, pc := t.pc, landed := 0, sent := 0, acked := 0,
    poisoned := false, posted := none }

/-! ### Checks at retirement -/

/-- Thinning factor of a group (R323, R337). -/
def thinFactor (s : State) (g : Nat) : Nat := regFld s (rRGS_THIN (g / 4)) (8 * (g % 4)) 6 + 1

/-- Whether an ACCUM of a group may retire (R323). -/
def thinOk (s : State) (g : Nat) : Bool :=
  let n := thinFactor s g
  if inTrain s (superstep s) then (((regRaw s rRGS_MICROSTEP).toNat + 1) % n == 0) else n == 1

/-- The key under which a stream of this job is kept: SSEND's or SRECV's. -/
def streamKey (s : State) (r : Request) : Nat :=
  if r.kind = .srecv ∨ r.worker = ownWid s then r.stream else 256 * (r.worker + 1) + r.stream

/-- Whether a stream request is routed as this device's folio declares; an SSEND to another worker is held to that worker's folio
there (R326; log entry 109). -/
def streamRouted (s : State) (x : Site) (r : Request) : Bool :=
  if r.kind = .srecv then
    match streamDecl s r.stream with
    | some (t, _, _) => folioTile s x == some t
    | none => false
  else if r.worker = ownWid s then
    match streamDecl s r.stream with
    | some (_, w, t) => w == ownWid s && folioTile s x == some t
    | none => false
  else workerInJob s r.worker

/-- The job fault that a request meets in the cycle it retires: reason and detail (R293 to R296, R323, R326). -/
def retireFault (s : State) (x : Site) (r : Request) : Option (Nat × Nat) :=
  match r.kind with
  | .accum => if thinOk s r.rg then none else some (0x0F, r.rg)
  | .loan => if r.target < catalogSize s then none else some (0x09, 0)
  | .loanwait =>
    if r.target < schedCount s
        && (match folioTile s x with | some t => (schedEntry s (jobFolio s) r.target).names t | none => false) then none
    else some (0x08, 0)
  | .hread | .hwrite =>
    if hostAbsent s then some (0x0B, 0)
    else if inAperture s (jobSecure s) r.target (32 * r.grans) then none else some (0x0A, 0)
  | .ssend | .srecv => if streamRouted s x r then none else some (0x10, r.stream)
  | _ => none

/-! ### Debug states of an area (R231) -/

/-- The hazards of an area that a QREQ names in cycle c, and its granules' new state; reads of earlier cycles are checked before. -/
def areaHazards (s : State) (x : Site) (c : Nat) (r : Request) : State :=
  if !debugJob s || r.kind == .loanwait then s
  else
    let gs := rangeGrans r.laddr (32 * r.grans)
    let t := (s.tile x).latchMem (c - 1)
    let again := (gs.filter fun g => t.granState g == .pending || t.granState g == .sending).map fun g => (2, 32 * g)
    let meets := if r.kind.lands && r.kind != .srecv then
        (match gs.find? (fun g => t.anyWindow (32 * g)) with | some g => [(3, 32 * g)] | none => []) else []
    s.putTile x { t with
      found := t.found ++ again ++ meets,
      gran := gs.foldl (fun m g => SMap.set Gran.free m g (if r.kind.lands then .pending else .sending)) t.gran }

/-! ### Stage streams (R326 to R329) -/

/-- A stream that nothing has used. -/
def Stream.empty : Stream := { sendSite := none, recvSite := none, sends := [], recvs := [], readies := 0, asks := [], acks := 0 }

/-- A stream of the job. -/
def State.stream (s : State) (k : Nat) : Stream := SMap.get Stream.empty s.streams k

/-- The declared ends of a stream on this device: source site, receiver site. -/
def streamSites (s : State) (x : Site) (k : Nat) : Option Site × Option Site :=
  if 256 ≤ k then (some x, none)
  else match streamDecl s k with
    | some (rt, w, st) => (if w = ownWid s then placedSite s st else none, placedSite s rt)
    | none => (none, none)

/-- A stream with one more SSEND or SRECV. -/
def Stream.join (st : Stream) (send : Bool) (e : StreamEnd) : Stream :=
  if send then { st with sends := st.sends ++ [e] } else { st with recvs := st.recvs ++ [e] }

/-- One more end joins stream k: where its partner is already there and differs in TAG or LEN, the job faults, with the receiver's
site (R327); and where a halted tile of this device leaves one without a partner (R329). -/
def addEnd (s : State) (k : Nat) (st : Stream) (send : Bool) (e : StreamEnd) : State :=
  let s1 : State := { s with streams := SMap.set Stream.empty s.streams k (st.join send e) }
  let s2 := match (if send then st.recvs[st.sends.length]? else st.sends[st.recvs.length]?) with
    | some p => if p.tag = e.tag ∧ p.len = e.len then s1 else raiseFault s1 0x11 (k % 256) (if send then p.site else e.site)
    | none => s1
  ([st.sendSite, st.recvSite].filterMap id).foldl (fun s y => faultUnmatched s (· == k) y) s2

/-- An SSEND or SRECV joins its stream (R327). An SSEND to another worker is announced there (log entry 109); an SRECV from another
worker sends it a ready message, which names the source tile and whether the SRECV must have a partner (R329). -/
def joinStream (s : State) (x : Site) (q : Nat) (r : Request) : State :=
  let k := streamKey s r
  let (ss, rs) := streamSites s x k
  let s1 := addEnd s k { s.stream k with sendSite := ss, recvSite := rs } (r.kind == .ssend)
    { site := x, q := q, id := r.id, tag := r.tag, len := r.len, seen := 0 }
  if r.kind = .ssend then
    if r.worker = ownWid s then s1
    else linkSend s1 { dest := r.worker, src := ownWid s, vc := 9, what := "streamOpen",
                       words := [r.stream, x, (folioTile s x).getD 0, r.tag, r.len] }
  else if ss = none then
    match streamDecl s r.stream with
    | some (_, w, t) => linkSend s1 { dest := w, src := ownWid s, vc := 9, what := "streamReady",
                                      words := [r.stream, x, t, if r.deadline = 0 ∨ r.nolapse then 1 else 0] }
    | none => s1
  else s1

/-! ### Starting a request -/

/-- The 256 B units of a range of granules from an address: unit, first granule in it, granules, first index (R270). -/
def unitsOf (a n : Nat) : List (Nat × Nat × Nat × Nat) :=
  let g0 := a / 32
  let u0 := g0 / 8
  (List.range (if n = 0 then 0 else (g0 + n - 1) / 8 - u0 + 1)).map fun i =>
    let lo := Nat.max g0 (8 * (u0 + i))
    let hi := Nat.min (g0 + n) (8 * (u0 + i + 1))
    (u0 + i, lo % 8, hi - lo, lo - g0)

/-- The loan that an on-demand LOAN starts (R294). -/
def demandLoan (x : Site) (q : Nat) (r : Request) : Loan :=
  { key := .demand x q r.id, start := r.start, deadline := if r.nolapse ∨ r.deadline = 0 then none else some r.deadline,
    card := r.target, words := [], dest := 2, fromRoom := false, win := 0, off := 0, nolapse := r.nolapse, stage := .waiting,
    chunks := [{ site := x, srcGran := 0, len := r.grans, landed := 0, st := .open }], bad := [], got := [], lost := false,
    poisoned := false }

/-- What a request sets going in the cycle it retires (R175). -/
def startRequest (s : State) (x : Site) (q : Nat) (r : Request) : State :=
  match r.kind with
  | .gread => (unitsOf r.target r.grans).foldl (fun s u =>
      postUnit s { owner := .tile x q r.id, kind := .gread, secure := jobSecure s, rg := 0, unit := u.1, first := u.2.1,
                   count := u.2.2.1, idx := u.2.2.2, data := [] }) s
  | .rread => (List.range r.grans).foldl (fun s i =>
      postRoom s (r.target / 2 ^ 23 % 64)
        { owner := .tile x q r.id, write := false, gran := (r.target % 2 ^ 23 / 32 + i) % 2 ^ 18, idx := i, data := [], poison := false }) s
  | .hread =>
    let (f, n) := lineSpan r.target (32 * r.grans)
    addLines s (.tile x q r.id) f n
  | .loan => { s with lend := { s.lend with started := s.lend.started ++ [demandLoan x q r] } }
  | .loanwait =>
    match SMap.find (s.tile x).outcomes (r.target % 256) with
    | some (n, o) => if n = r.target then postOutcome s x q r.id o r.start else s
    | none => s
  | .ssend => joinStream s x q r
  | .srecv => joinStream s x q r
  | _ => s

/-- The eight words of a record as QREQ reads them in cycle c, through the bank's read port (R174, R221). -/
def recordRead (s : State) (t : Tile) (a c : Nat) : List Word :=
  leWords 8 ((t.asRead c).portRead (t.foreseen.readsAt c) c s.free a 32)

/-- A QREQ retires in cycle c with a good record: its request takes a slot of the queue and starts (R174, R229). -/
def placeRequest (s : State) (x : Site) (q a c : Nat) : State :=
  let t := s.tile x
  let r := mkRequest s t (recordRead s t a c) c
  match retireFault s x r with
  | some (reason, detail) => raiseFault s reason detail x
  | none =>
    let t1 := { t with upset := t.upset || bankMeets (t.foreseen.readsAt c) (granOf a) }.usePort
      { cycle := c, write := false, rank := 0, addr := a, len := 32 } |>.noteReads (rangeGrans a 32)
    let s1 := areaHazards ((drew s 1).putTile x t1) x c r
    startRequest (s1.onTile x fun t => { t.setQueue q (t.queue q ++ [r]) with nextReq := t.nextReq + 1 }) x q r

/-- The record's address: bits [20:5] of AR (R43, R174). -/
def recordAddr (t : Tile) (w : BitVec 26) : Nat := fld (t.areg (fld w 18 4)) 5 16 * 32

/-- Slots of a queue (R29). -/
def queueSlots : Nat := 8

/-- QREQ's issue faults: code 0x12 only where it retires in this cycle (R161, R175). -/
def qreqCode (s : State) (t : Tile) (c : Nat) (w : BitVec 26) : Option Nat :=
  firstCode [(fld w 0 18 != 0, 2),
    (decide ((t.queue (fld w 22 4)).length < queueSlots) && recordBad (recordRead s t (recordAddr t w) c), 0x12)]

/-- QREQ (R29, R174): a full queue stalls it. -/
def execQreq (site : Site) (w : BitVec 26) (s : State) : Host.Outcome State Fault Refusal :=
  let q := fld w 22 4
  .next (closeOrStall s site (fun s t => qreqCode s t t.now w)
    (fun t => if (t.queue q).length < queueSlots then none else some (.qreq q (recordAddr t w)))
    (fun s t => placeRequest s site q (recordAddr t w) t.now))

/-- The tile of a stalled bundle in the cycle in which it retires. -/
def Tile.retireIn (t : Tile) (c : Nat) : Tile := { t with stall := .none, now := c }

/-- QREQ_RETIRE (R29, R164, R174): a slot has freed; the bundle's other slots issue in the cycle in which it retires. -/
def execQreqRetire (site : Site) (s : State) : Host.Outcome State Fault Refusal :=
  let t0 := s.tile site
  .next (match t0.stall with
    | .qreq q a =>
      if s.dev == .run && decide ((t0.queue q).length < queueSlots) then
        closeSlot (issueWaiting (s.onTile site (·.retireIn (Nat.max t0.now s.cycle))) site) site
          (fun s t => firstCode [(recordBad (recordRead s t a t.now), 0x12)])
          (fun s t => placeRequest s site q a t.now)
      else s
    | _ => s)

/-! ### QWAIT -/

/-- Outcome codes (R176). -/
def ReqOutcome.code (o : ReqOutcome) : Nat :=
  match o with
  | .done => 0 | .lapsed => 1 | .poison => 2

/-- The oldest request of queue q is consumed in cycle c: its slot frees, the outcome goes to SD, the census counts it, and in
debug mode its granules become FREE or STALE (R176, R229, R231, R330). -/
def consume (s : State) (x : Site) (q sd c : Nat) (r : Request) (o : ReqOutcome) : State :=
  let t := s.tile x
  let t1 := (t.setQueue q (t.queue q).tail).writeReg (c + 1) (.s sd) (BitVec.ofNat 32 o.code)
  let t2 := match o with
    | .lapsed => t1.countEvent c cLAPSED
    | .poison => t1.countEvent c cPOISON
    | .done => t1
  let mark (m : SMap Gran) (g : Nat) : SMap Gran := SMap.set Gran.free m g (if o = .done then .free else .stale)
  if debugJob s && r.kind != .loanwait then
    let t3 := t2.latchMem (c - 1)
    s.putTile x { t3 with gran := (rangeGrans r.laddr (32 * r.grans)).foldl mark t3.gran }
  else s.setTile x t2

/-- The cycle from which the oldest request of a queue lets QWAIT retire, with its outcome (R176). -/
def Tile.oldestPosted (t : Tile) (q : Nat) : Option (Request × ReqOutcome × Nat) :=
  match t.queue q with
  | [] => none
  | r :: _ => match r.posted with
    | some (o, p) => some (r, o, p)
    | none => none

/-- The oldest request of queue q is consumed in the tile's cycle. -/
def consumeOldest (s : State) (x : Site) (q sd : Nat) (t : Tile) : State :=
  match t.oldestPosted q with
  | some (r, o, _) => consume s x q sd t.now r o
  | none => s

/-- QWAIT (R30, R176). -/
def execQwait (site : Site) (w : BitVec 26) (s : State) : Host.Outcome State Fault Refusal :=
  let q := fld w 22 4
  let sd := fld w 17 5
  .next (closeOrStall s site (fun _ t => firstCode [(fld w 0 17 != 0, 2), ((t.queue q).isEmpty, 0x11)])
    (fun t => match t.oldestPosted q with
      | some (_, _, p) => if p < t.now then none else some (.qwait q sd)
      | none => some (.qwait q sd))
    (fun s t => consumeOldest s site q sd t))

/-- QWAIT_RETIRE (R164, R176): in cycle max(I, P + 1), in which the bundle's other slots issue. -/
def execQwaitRetire (site : Site) (s : State) : Host.Outcome State Fault Refusal :=
  let t0 := s.tile site
  .next (match t0.stall with
    | .qwait q sd =>
      match t0.oldestPosted q with
      | some (_, _, p) =>
        if s.dev == .run then
          closeSlot (issueWaiting (s.onTile site (·.retireIn (Nat.max t0.now (p + 1)))) site) site (fun _ _ => none)
            (fun s t => consumeOldest s site q sd t)
        else s
      | none => s
    | _ => s)

/-! ### Sending reads (R222) -/

/-- Whether an SSEND's granules may leave: its matched SRECV's ready message has arrived (R327). -/
def streamMaySend (s : State) (x : Site) (q : Nat) (r : Request) : Bool :=
  let st := s.stream (streamKey s r)
  decide ((st.sends.findIdx fun e => e.site == x && e.q == q && e.id == r.id) < st.readies)

/-- Whether a request has a source granule to read. -/
def sendable (s : State) (x : Site) (q : Nat) (r : Request) : Bool :=
  r.kind.sends && r.posted.isNone && decide (r.sent < r.grans) && (r.kind != .ssend || streamMaySend s x q r)

/-- The request whose next source granule became ready first (R222). -/
def nextSend (s : State) (x : Site) : Option (Nat × Request) :=
  let all := (s.tile x).queues.flatMap fun p => (p.2.filter (sendable s x p.1)).map fun r => (p.1, r)
  all.foldl (fun b (p : Nat × Request) => match b with
    | some o => if p.2.ready < o.2.ready ∨ (p.2.ready = o.2.ready ∧ p.2.id < o.2.id) then some p else some o
    | none => some p) none

/-- A tile as the clients that rank last find it: with its descriptors, and its arrivals checked as the windows stand (R222, R254). -/
def Tile.ranked (t : Tile) : Tile := t.foreseen.checkArrivals (t.arrivals.foldl (fun m a => Nat.max m a.entry) 0)

/-- The cycle in which a request's next source granule is read: the first that leaves its bank's read port free of scheduled clients and of
ADDF arrivals (R222, R254). -/
def sendCycle (s : State) (x : Site) (r : Request) : Nat :=
  (s.tile x).ranked.sendFree (granOf (r.laddr + 32 * r.sent)) (Nat.max s.cycle r.ready)

/-- The granules of a request in the send buffer. -/
def Tile.sendOf (t : Tile) (q id : Nat) : List SendGran := t.sendBuf.filter fun g => g.q == q && g.id == id

/-- Take a request's granules out of the send buffer. -/
def Tile.dropSend (t : Tile) (q id : Nat) : Tile := { t with sendBuf := t.sendBuf.filter fun g => !(g.q == q && g.id == id) }

/-- The granules of a request leave the send buffer as soon as they make what the destination takes: a 256 B unit, a 64 B line,
or one granule (R222, R270, R278, R295, R327). -/
def flushSend (s : State) (x : Site) (q : Nat) (r : Request) : State :=
  let gs := (s.tile x).sendOf q r.id
  let first := (gs.headD { q := q, id := r.id, idx := 0, data := [] }).idx
  let last := decide (r.sent = r.grans)
  let endAddr := r.target + 32 * r.sent
  let out := s.onTile x fun t => t.dropSend q r.id
  match r.kind with
  | .rwrite => gs.foldl (fun s g => postRoom s (r.target / 2 ^ 23 % 64)
      { owner := .tile x q r.id, write := true, gran := (r.target % 2 ^ 23 / 32 + g.idx) % 2 ^ 18, idx := g.idx, data := g.data, poison := false }) out
  | .hwrite =>
    if last ∨ endAddr % 64 = 0 then
      let line := (r.target + 32 * first) / 64
      let o := HostOwner.tile x q r.id
      let s1 := addLines out o line 1
      { s1 with host := { s1.host with wlines := s1.host.wlines ++ [(o, line, gs.flatMap (·.data))] } }
    else s
  | .ssend =>
    if r.worker = ownWid s then
      let st := s.stream (streamKey s r)
      match st.recvs[st.sends.findIdx fun e => e.site == x && e.q == q && e.id == r.id]? with
      | some e =>
        match (s.tile e.site).request e.q e.id with
        | some rr => sendTo out e.site (gs.map fun g =>
            { addr := addr21 (Int.ofNat (rr.laddr + 32 * g.idx)), data := g.data, owner := .stream r.stream e.q e.id, slip := 0,
              win := 0, off := 0 })
        | none => out
      | none => out
    else gs.foldl (fun s g => linkSend s
      { dest := r.worker, src := ownWid s, vc := 8, what := "streamData",
        words := [r.stream, x, (s.stream (streamKey s r)).sends.findIdx fun e => e.site == x && e.q == q && e.id == r.id, g.idx,
                  if jobSecure s then 1 else 0] ++ g.data.map (·.toNat) }) out
  | _ =>
    if last ∨ endAddr % 256 = 0 then
      let a := r.target + 32 * first
      postUnit out { owner := .tile x q r.id, kind := r.kind, secure := jobSecure s, rg := r.rg, unit := a / 256,
                     first := a / 32 % 8, count := gs.length, idx := first, data := gs.map (·.data) }
    else s

/-- SENDING_READ (R222): the source granule that became ready first goes into the 4 KiB send buffer, in the first cycle in which its
bank's read port is free. -/
def execSendingRead (site : Site) (s : State) : Host.Outcome State Fault Refusal :=
  .next (match nextSend s site with
    | some (q, r) =>
      if s.dev == .run && decide ((s.tile site).sendBuf.length < 128) then
        let c := sendCycle s site r
        let a := r.laddr + 32 * r.sent
        let t := (s.tile site).upTo c
        let r1 : Request := { r with sent := r.sent + 1 }
        let t1 := (t.setRequest q r1).usePort { cycle := c, write := false, rank := 0, addr := a, len := 32 }
        flushSend ((toCycle s c).setTile site
          { t1 with sendBuf := t1.sendBuf ++ [{ q := q, id := r.id, idx := r.sent, data := (t.asRead c).readMem a 32 }] }) site q r1
      else s
    | none => s)

/-! ### Landing writes (R45) -/

/-- Whether the granule at the head of the landing buffer is still wanted in cycle c (R177, R292). -/
def landingWanted (s : State) (x : Site) (l : Landing) (c : Nat) : Bool :=
  match l.owner with
  | .req q id => (s.tile x).wantsAt q id c
  | .stream _ q id => (s.tile x).wantsAt q id c
  | .loan n => chunkWants s n x c

/-- A granule of a request has been written in cycle c: the last one posts DONE (R176, R229). -/
def countLanded (s : State) (x : Site) (q id c : Nat) : State :=
  match (s.tile x).request q id with
  | none => s
  | some r =>
    let r1 : Request := { r with landed := r.landed + 1 }
    let s1 := s.onTile x fun t => t.setRequest q r1
    let s2 := if r.kind = .loan then chunkLanded s1 (.demand x q id) x c else s1
    if r1.landed = r1.grans then postOutcome s2 x q id .done c else s2

/-- A granule of the j-th SSEND of worker w on a stream has been written or discarded: with the last one the acknowledgement returns (R328).
-/
def granuleSeen (s : State) (n j w x : Nat) : State :=
  let st := s.stream n
  match st.sends[j]? with
  | some e =>
    let e1 : StreamEnd := { e with seen := e.seen + 1 }
    let s1 : State := { s with streams := SMap.set Stream.empty s.streams n { st with sends := st.sends.set j e1 } }
    if e1.seen = e.len + 1 then linkSend s1 { dest := w, src := ownWid s, vc := 9, what := "streamAck", words := [n, x] } else s1
  | none => s

/-- A granule of another device's SSEND has been written or discarded at its SRECV (R328). -/
def streamSeen (s : State) (n : Nat) (x : Site) (q id : Nat) : State :=
  let st := s.stream n
  let j := st.recvs.findIdx fun e => e.site == x && e.q == q && e.id == id
  match st.sendSite, streamDecl s n with
  | none, some (_, w, _) => granuleSeen s n j w x
  | _, _ => s

/-- The granules of the landing buffer that come first in their banks, with their places (R222). -/
def bankHeads (ls : List Landing) : List (Nat × Landing) :=
  (ls.zipIdx.filter fun p => (ls.take p.2).all fun m => granOf m.addr % 14 != granOf p.1.addr % 14).map fun p => (p.2, p.1)

/-- The cycle in which a granule leaves the landing buffer: one that is written, in the first that leaves its bank's write port free of
scheduled clients and of arrivals (R45, R222, R254); one that is discarded, at once. -/
def landingCycle (s : State) (x : Site) (l : Landing) : Nat :=
  if landingWanted s x l s.cycle then (s.tile x).ranked.landFree (granOf l.addr) s.cycle else s.cycle

/-- The granule that leaves the landing buffer next, with its place and its cycle. -/
def nextLanding (s : State) (x : Site) : Option (Nat × Landing × Nat) :=
  (bankHeads (s.tile x).landing).foldl (fun b p =>
    let c := landingCycle s x p.2
    match b with
    | some o => if c < o.2.2 then some (p.1, p.2, c) else some o
    | none => some (p.1, p.2, c)) none

/-- LANDING_WRITE (R45, R222, R229, R236): what the call slips allow enters the landing buffer; then the granule that is due first is
written, or discarded where its outcome is posted; its call slip takes it back, and what the slips now allow follows. In the cycle in
which the job faults what is due in it still happens, and a violation is still recorded (R244). -/
def execLandingWrite (site : Site) (s : State) : Host.Outcome State Fault Refusal :=
  .next (if jobRuns s || faultedNow s then
      let s0 := pump s site
      match nextLanding s0 site with
      | none => s0
      | some (i, l, c) =>
        if faultedNow s && c != s.cycle then s0 else
        let t0 := s0.tile site
        let t := { t0 with landing := t0.landing.eraseIdx i }
        let f := t.slip l.slip
        let t1 := (t.setSlip l.slip { f with flight := f.flight - 1 }).grantSlips
        let s1 := toCycle s0 c
        let s2 :=
          if landingWanted s1 site l c then
            let s2 := s1.setTile site (t1.writeMem c l.addr l.data)
            match l.owner with
            | .req q id => countLanded s2 site q id c
            | .stream _ q id => countLanded s2 site q id c
            | .loan n => chunkLanded s2 (.sched n) site c
          else s1.setTile site t1
        pump (match l.owner with | .stream n q id => streamSeen s2 n site q id | _ => s2) site
    else s)

/-! ### Outcomes -/

/-- Granules of a chunk that has lapsed or been poisoned are no more sent (R292). -/
def dropTransit (t : Tile) (p : Owner → Bool) : Tile := { t with transit := t.transit.filter fun l => !p l.owner }

/-- Whether an outcome falls on a chunk in cycle c: it is open, or it has lapsed in c itself and is now poisoned (R306). -/
def ChunkState.yields (st : ChunkState) (o : ReqOutcome) (c : Nat) : Bool := st == .open || (o == .poison && st.takes c)

/-- A chunk that has taken an outcome. -/
def chunkClosed (o : ReqOutcome) (c : Nat) : ChunkState := if o = .poison then .poisoned c else .lapsed c

/-- The open chunks of a loan take an outcome in cycle c, and it is posted on every destination (R292, R293, R298). -/
def closeChunks (s : State) (k : LoanKey) (pick : Chunk → Bool) (o : ReqOutcome) (c : Nat) : State :=
  match loanOf s k with
  | none => s
  | some l =>
    let on (h : Chunk) : Bool := h.st.yields o c && pick h
    let s1 := setLoan s { l with chunks := l.chunks.map fun h => if on h then { h with st := chunkClosed o c } else h }
    (l.chunks.filter on).foldl (fun s h =>
      if h.site = noSite then s
      else match k with
        | .sched n => loanOutcome (s.onTile h.site fun t => dropTransit t (fun w => w == .loan n)) h.site n o c
        | .demand x q id => postOutcome s x q id o c) s1

/-- REQUEST_LAPSED (R177): a request that can lapse posts LAPSED in cycle start + deadline. -/
def execRequestLapsed (site : Site) (q req : Nat) (s : State) : Host.Outcome State Fault Refusal :=
  .next (match (s.tile site).request q req with
    | some r =>
      if (s.dev == .run || s.dev == .drain) && r.kind.canLapse && r.kind != .loanwait && !r.nolapse && r.deadline != 0
          && r.posted.isNone then
        let c := r.start + r.deadline
        let s1 := toCycle s c
        if r.kind = .loan then closeChunks s1 (.demand site q req) (fun _ => true) .lapsed c
        else postOutcome s1 site q req .lapsed c
      else s
    | none => s)

/-- POISON_POSTED (R177, R299): a tile request that has met poison posts LAPSED-POISON, also over a LAPSED of the same cycle, or the job
faults under NOLAPSE. -/
def execPoisonPosted (site : Site) (q req : Nat) (s : State) : Host.Outcome State Fault Refusal :=
  .next (match (s.tile site).request q req with
    | some r =>
      if (s.dev == .run || s.dev == .drain) && r.poisoned && r.kind.canLapse && r.kind != .loan && r.mayPost .poison s.cycle then
        postOutcome s site q req .poison s.cycle
      else s
    | none => s)

/-- ACKNOWLEDGEMENT_RETURN (R175): every granule of a GWRITE, RWRITE or ACCUM is acknowledged, and the request posts DONE. -/
def execAcknowledgementReturn (site : Site) (q req : Nat) (s : State) : Host.Outcome State Fault Refusal :=
  .next (match (s.tile site).request q req with
    | some r =>
      if (s.dev == .run || s.dev == .drain) && (r.kind == .gwrite || r.kind == .rwrite || r.kind == .accum)
          && decide (r.grans ≤ r.acked) && r.posted.isNone then
        (postOutcome s site q req .done s.cycle).onTile site fun t =>
          if r.kind = .accum then { t with ackAt := s.cycle } else t
      else s
    | none => s)

/-! ### Stream messages -/

/-- The SSEND that a stream's next ready message releases may send from now on (R222, R327). -/
def readySend (s : State) (st : Stream) : State :=
  match st.sends[st.readies]? with
  | some e => s.onTile e.site fun t =>
      match t.request e.q e.id with
      | some r => t.setRequest e.q { r with ready := Nat.max r.ready s.cycle }
      | none => t
  | none => s

/-- Whether a ready message comes from another device of a job whose part on this device has ended, for an SRECV that must have a partner and
has none (R329; log entry 129). -/
def lateReady (s : State) (stream : Nat) (st : Stream) (must : Bool) : Bool :=
  decide (256 ≤ stream) && must && !takesTraffic s && s.rgs.past.contains (stream / 256 - 1) && decide (st.sends.length ≤ st.readies)

/-- STREAM_READY (R327, R329): the ready message of a stream's next SRECV arrives at the source; for a stream within the device there
is such an SRECV, and from another device the message names the source tile and whether the SRECV must have a partner. One that comes after
this
device's part of the job has ended tells the other device that its SRECV is unmatched (log entry 129). -/
def execStreamReady (stream tile : Nat) (must : Bool) (s : State) : Host.Outcome State Fault Refusal :=
  let st := s.stream stream
  .next (if lateReady s stream st must then
      linkSend s { dest := stream / 256 - 1, src := ownWid s, vc := 9, what := "streamUnmatched", words := [stream % 256] }
    else if takesTraffic s && (decide (256 ≤ stream) || (decide (st.readies < st.recvs.length) && st.sendSite.isSome)) then
      let s1 := readySend s st
      let asks := if 256 ≤ stream then st.asks ++ [(tile, must)] else st.asks
      let s2 : State := { s1 with streams := SMap.set Stream.empty s1.streams stream { st with readies := st.readies + 1, asks := asks } }
      if 256 ≤ stream then match placedSite s tile with | some y => faultUnmatched s2 (· == stream) y | none => s2 else s2
    else s)

/-- Whether every granule of a local stream transfer has been written or discarded at the receiver (R328). -/
def streamDrained (s : State) (n : Nat) (e : StreamEnd) : Bool :=
  let t := s.tile e.site
  !((t.transit ++ t.landing).any fun l => l.owner == .stream n e.q e.id)

/-- STREAM_ACK (R328): the last acknowledgement of the oldest unacknowledged SSEND returns, and it posts DONE. -/
def execStreamAck (stream : Nat) (s : State) : Host.Outcome State Fault Refusal :=
  let st := s.stream stream
  .next (match st.sends[st.acks]? with
    | some e =>
      match (s.tile e.site).request e.q e.id with
      | some r =>
        let there := if 256 ≤ stream then true else
          match st.recvs[st.acks]? with
          | some v => streamDrained s stream v
          | none => false
        if (s.dev == .run || s.dev == .drain) && decide (r.sent = r.grans) && ((s.tile e.site).sendOf e.q e.id).isEmpty && there then
          postOutcome { s with streams := SMap.set Stream.empty s.streams stream { st with acks := st.acks + 1 } }
            e.site e.q e.id .done s.cycle
        else s
      | none => s
    | none => s)

end Sys2Proof.Machine
end

