-- ==== Sys2Proof/Machine/Ledger.lean ====
section
/-! DEFINITION. The ledger adders: cache (R314), arithmetic (R316, R317, R319), counters (R330), LEDGER_ADD and
LEDGER_FORWARD (R311, R312, R318). -/

namespace Sys2Proof.Machine

/-! ### The ledger cache (R314) -/

/-- Places a unit takes: two for a widened BF16 unit. -/
def LUnit.places (u : LUnit) : Nat := if u.wide then 2 else 1

/-- Places of a cache. -/
def cachePlaces : Nat := 8192

/-- Write a unit back to GDDR7 if it is dirty. -/
def writeBack (s : State) (u : LUnit) : State := if u.dirty then gddrWrite s (256 * u.unit) u.read else s

/-- Split a cache, most recently used first, into what fits in `n` places and what does not. -/
def fitCache : Nat → List LUnit → List LUnit × List LUnit
  | _, [] => ([], [])
  | n, u :: us =>
    if u.places ≤ n then
      let (keep, out) := fitCache (n - u.places) us
      (u :: keep, out)
    else ([], u :: us)

/-- Put a unit first in its controller's cache; victims are written back, least recently used first. -/
def cacheUnit (s : State) (u : LUnit) : State :=
  let m := mcOf u.unit
  let c := s.ctl m
  let (keep, out) := fitCache cachePlaces (u :: c.cache.filter fun v => v.unit != u.unit)
  out.reverse.foldl writeBack (s.setCtl m { c with cache := keep })

/-- A unit of an INIT region is no more in the zero view (R310). -/
def markInited (s : State) (unit : Nat) : State :=
  let c := s.ctl (mcOf unit)
  if c.inited.contains unit then s else s.setCtl (mcOf unit) { c with inited := c.inited ++ [unit] }

/-- The unit as the cache would hold it: cached, or fetched. -/
def fetchUnit (s : State) (unit : Nat) (l : LedgerFmt) : LUnit :=
  match (s.ctl (mcOf unit)).cached unit with
  | some u => u
  | none =>
    let bs := storedUnit s unit
    if l.fmt = fBF16 then
      { unit := unit, wide := true, bytes := [], dirty := false,
        held := (List.range 128).map fun e => BitVec.ofNat 32 (leNat ((bs.drop (2 * e)).take 2) * 2 ^ 16) }
    else { unit := unit, wide := false, bytes := bs, held := [], dirty := false }

/-! ### Ledger arithmetic -/

/-- A result written in a ledger: its bits, and the census classes it counts beside TOTAL (R111, R316). -/
abbrev Added := Nat × List Class

/-- One element of an FP32 ledger. -/
def addFP32 (e c : Nat) : Added :=
  let (r, k) := rne fFP32 (Num.add (decodeNum fFP32 e) (decodeNum fFP32 c))
  (r, [k])

/-- One element of a BF16 ledger: the held FP32 value; classified as the BF16 value to which it rounds. -/
def addBF16 (h c : Nat) : Added :=
  let r := (rne fFP32 (Num.add (decodeNum fFP32 h) (decodeNum fBF16 c))).1
  (r, [(rne fBF16 (decodeNum fFP32 r)).2])

/-- One element of an INT64 ledger. -/
def addINT64 (e c : Nat) : Added :=
  let (r, k) := roundToInt 64 0 0 (Num.ofInt (signed 64 e + signed 64 c))
  (r, [k])

/-- Replace a slice of a list. -/
def splice {α : Type} (xs : List α) (at_ : Nat) (new : List α) : List α := xs.take at_ ++ new ++ xs.drop (at_ + new.length)

/-- An MXFP8 rounding of R319: to nearest even, above the largest finite value to ±maxfin. Whether an infinite result counts as above maxfin
the spec does not say: in E5M2, which has infinities, it stays infinite, and is not counted (DESIGN CHOICE, log entry 126). -/
def rndMX (f : Nat) (x : Num) : Nat × Class := roundTo f 0 true true 0 x

/-- Whether a finite value, at a scale, rounds above maxfin with an unbounded exponent (R319). -/
def exceedsMX (f : Nat) (scale : Nat) (x : Num) : Bool :=
  match Num.scale (127 - Int.ofNat scale) x with
  | .fin s m e st =>
    if m == 0 then false
    else let (r, q) := roundMag f 0 0 s m e st; aboveMax f r q
  | _ => false

/-- The fewest places r by which the scale is raised (R319). -/
def raiseBy (f x : Nat) (xs : List Num) : Nat → Nat → Nat
  | 0, r => r
  | n + 1, r => if x + r < 254 && xs.any (exceedsMX f (x + r)) then raiseBy f x xs n (r + 1) else r

/-- One block of an MXFP8 unit (R319): scale and elements after the addition, and the number of RESCALE events. An element that the
rescale flushed and to which nothing was added is written as zero from a value that was not: FLUSH (R111; log entry 46). -/
def addBlock (f x : Nat) (es : List Nat) (y : Nat) (cs : List Nat) : Nat × List Added × Nat :=
  if x = 0xFF then (x, es.map fun _ => (nanBits f, [1]), 0)
  else
    let en := es.map (decodeNum f)
    let cn := cs.map fun c => if y = 0xFF then Num.nan else decodeNum f c
    let sums := (en.zip cn).map fun p => Num.add (Num.scale (Int.ofNat x - 127) p.1) (Num.scale (Int.ofNat y - 127) p.2)
    let r := raiseBy f x sums 255 0
    let x1 := x + r
    let shifted := if r = 0 then es.map fun e => (e, 0) else en.map fun e => rndMX f (Num.scale (- Int.ofNat r) e)
    (x1, (shifted.zip cn).map fun p =>
      let (b, k) := rndMX f (Num.add (decodeNum f p.1.1) (Num.scale (Int.ofNat y - Int.ofNat x1) p.2))
      (b, [if p.1.2 = 3 ∧ k = 0 ∧ b % 128 = 0 then 3 else k]), r)

/-- Element bytes of a ledger format. -/
def ledgerElem (f : Nat) : Nat := match f with | 0x2 => 2 | 0xD => 8 | _ => 4

/-- Counters of a ledger format, L of R330. -/
def ledgerIndex (f : Nat) : Nat := match f with | 0x0 => 0 | 0x2 => 1 | 0x6 => 2 | 0x7 => 3 | _ => 4

/-- A contribution added into a unit: the unit after it, what was written, and the RESCALE events. `at_` is the first byte. -/
def addUnit (l : LedgerFmt) (u : LUnit) (at_ : Nat) (data : List Byte) : LUnit × List Added × Nat :=
  if l.isMX then
    let blocks := (List.range 7).map fun j =>
      addBlock l.fmt (u.bytes.getD (224 + j) 0).toNat ((u.bytes.drop (32 * j)).take 32 |>.map (·.toNat))
        (data.getD (224 + j) 0).toNat ((data.drop (32 * j)).take 32 |>.map (·.toNat))
    let out := blocks.flatMap (·.2.1)
    let bytes := out.map (fun a => BitVec.ofNat 8 a.1) ++ blocks.map (fun b => BitVec.ofNat 8 b.1) ++ List.replicate 25 0
    ({ u with bytes := bytes, dirty := true }, out, blocks.foldl (fun n b => n + b.2.2) 0)
  else if l.fmt = fBF16 then
    let n := data.length / 2
    let out := (List.range n).map fun i =>
      addBF16 (u.held.getD (at_ / 2 + i) 0).toNat (leNat ((data.drop (2 * i)).take 2))
    ({ u with held := splice u.held (at_ / 2) (out.map fun a => BitVec.ofNat 32 a.1), dirty := true }, out, 0)
  else
    let w := ledgerElem l.fmt
    let out := (List.range (data.length / w)).map fun i =>
      let e := leNat ((u.bytes.drop (at_ + w * i)).take w)
      let c := leNat ((data.drop (w * i)).take w)
      if l.fmt = fINT64 then addINT64 e c else addFP32 e c
    ({ u with bytes := splice u.bytes at_ (out.flatMap fun a => natLe w a.1), dirty := true }, out, 0)

/-- Count what an add wrote (R330). -/
def countAdded (m : SMap Nat) (f : Nat) (out : List Added) (rescales : Nat) : SMap Nat :=
  let i := 256 + 8 * ledgerIndex f
  let m1 := out.foldl (fun m a => a.2.foldl (fun m k => if k = 0 then m else bumpCount m (i + k)) (bumpCount m i)) m
  (List.range rescales).foldl (fun m _ => bumpCount m 296) m1

/-- The NaN flag of a region in a controller (R317, R335). -/
def flagNaN (s : State) (mc n : Nat) : State :=
  let off := rMCT_LEDGER_NAN mc (n / 32)
  let s1 := setFld s off (n % 32) 1 1
  if regFld s off (n % 32) 1 = 1 then s1 else setIstat s1 (Block.mct.page mc) 8

/-- The site of a unit's owner, 0xFFF where no tile of this device carried it (R393). -/
def UnitOwner.site (o : UnitOwner) : Site := match o with | .tile x _ _ => x | _ => noSite

/-- The acknowledgement of a contribution (R314). -/
def ackUnit (s : State) (u : UnitMsg) : State :=
  match u.owner with
  | .tile x q id => ackReq s x q id u.count
  | .remote w => linkSend s { dest := w, src := ownWid s, vc := u.rg, what := "ledgerAck", words := [256 * u.unit + 32 * u.first, u.count] }
  | _ => s

/-- A read that the cache serves makes its unit the most recently used (R314; log entry 46). -/
def touchUnit (s : State) (unit : Nat) : State :=
  match (s.ctl (mcOf unit)).cached unit with
  | some u => s.setCtl (mcOf unit) { (s.ctl (mcOf unit)) with cache := u :: (s.ctl (mcOf unit)).cache.filter fun v => v.unit != unit }
  | none => s

/-- The units of a range of GDDR7 that a host read or the engine has read. -/
def touchRange (s : State) (a n : Nat) : State :=
  if n = 0 then s else (List.range ((a + n - 1) / 256 - a / 256 + 1)).foldl (fun s i => touchUnit s (a / 256 + i)) s

/-- A unit of GDDR7 as the Registrar, the lending engine or a command reads it, in one access: a cached ledger unit comes from the cache
(R314), corrected granules are counted each and an uncorrectable error once (R271, R297). Gives the state, and whether all was good. -/
def unitFetched (p : State × Bool) (unit : Nat) : State × Bool :=
  if ((p.1.ctl (mcOf unit)).cached unit).isSome then (touchUnit p.1 unit, p.2)
  else
    let s1 := countCE p.1 (mcOf unit) (unitCE p.1 unit)
    if unitBad s1 unit then (countUE s1 (mcOf unit), false) else (s1, p.2)

/-- A range of GDDR7 read so. -/
def bytesFetched (s : State) (a n : Nat) : State × Bool := (touchedUnits a n).foldl unitFetched (s, true)

/-- The granules of a range that lie in good units, by their offset in it: the others are never written into tile memory (R297). -/
def goodParts (s : State) (a n : Nat) : List (Nat × List Byte) :=
  ((List.range (n / 32)).filter fun i => !unitBad s ((a + 32 * i) / 256)).map fun i => (32 * i, tierRead s (a + 32 * i) 32)

/-- Groups that have a unit waiting at a controller. -/
def Ctl.group (c : Ctl) (g : Nat) : List UnitMsg := SMap.get [] c.groups g

/-- The group that the round robin serves next (R312). -/
def Ctl.nextGroup (c : Ctl) : Option Nat := ((List.range 8).map fun i => (c.rr + i) % 8).find? fun g => !(c.group g).isEmpty

/-- A unit that is not cached is fetched for an add: what the cells give is counted, corrected granules each and an uncorrectable error
once (R271, R318). Gives the state, and whether the unit was good. -/
def fetchChecked (s : State) (mc unit : Nat) (l : LedgerFmt) (ce ue : List Nat) : State × Bool :=
  if ((s.ctl mc).cached unit).isSome || (l.init && jobRuns s && !(s.ctl mc).inited.contains unit) then (s, true)
  else
    let s1 := recordEcc s unit ce ue
    let s2 := countCE s1 mc (unitCE s1 unit)
    if unitBad s2 unit then (countUE s2 mc, false) else (s2, true)

/-- A contribution is accepted by its controller's adder (R313, R316, R318). -/
def addContribution (s : State) (mc : Nat) (u : UnitMsg) (ce ue : List Nat) : State :=
  match ledgerOf s u.unit with
  | none => s
  | some (n, l) =>
    let (s0, good) := fetchChecked s mc u.unit l ce ue
    if !good then raiseFault s0 0x0E mc u.owner.site
    else
      let (v, out, rescales) := addUnit l (fetchUnit s0 u.unit l) (32 * u.first) u.data.flatten
      let s1 := markInited (cacheUnit s0 v) u.unit
      let s2 := { s1 with cen := { s1.cen with ledger := countAdded s1.cen.ledger l.fmt out rescales } }
      let s3 := if out.any (fun a => a.2.contains 1) then flagNaN s2 mc n else s2
      ackUnit s3 u

/-- Whether a unit comes from another device of a job whose part on this device has ended (log entry 129). -/
def lateUnit (s : State) (u : UnitMsg) : Bool :=
  match u.owner with
  | .remote w => !jobRuns s && s.rgs.past.contains w
  | _ => false

/-- Every dirty unit of a controller's cache is written back. -/
def writeBackCtl (s : State) (mc : Nat) : State :=
  let s1 := (s.ctl mc).cache.reverse.foldl writeBack s
  s1.setCtl mc { s1.ctl mc with cache := (s1.ctl mc).cache.map fun u => { u with dirty := false } }

/-- A late unit is added as though the job still ran here, and written back (R310, R311; log entry 129). -/
def lateAdd (s : State) (mc : Nat) (u : UnitMsg) (ce ue : List Nat) : State :=
  let s1 := addContribution { s with dev := .drain } mc u ce ue
  writeBackCtl { s1 with dev := s.dev, rgs := s.rgs } mc

/-- LEDGER_ADD (R312 to R319): the adder takes the next unit of the round robin; `ce` and `ue` name the granules that the cells give so
where the unit is fetched. -/
def execLedgerAdd (mc : Nat) (ce ue : List Nat) (s : State) : Host.Outcome State Fault Refusal :=
  let c := s.ctl mc
  .next (match c.nextGroup with
    | some g =>
      match c.group g with
      | u :: rest =>
        let s1 := s.setCtl mc { c with groups := SMap.set [] c.groups g rest, rr := (g + 1) % 8 }
        if jobRuns s then addContribution s1 mc u ce ue else if lateUnit s u then lateAdd s1 mc u ce ue else s
      | [] => s
    | none => s)

/-- The home worker of a unit of a forwarded region (R311). -/
def homeOf (l : LedgerFmt) (unit : Nat) : Nat := l.hbase + 256 * unit / 2 ^ 20 % 2 ^ l.hk

/-- The home of the next forwarded unit. -/
def forwardHome (s : State) (u : UnitMsg) : Nat := match ledgerOf s u.unit with | some (_, l) => homeOf l u.unit | none => 0

/-- LEDGER_FORWARD (R311): the oldest forwarded unit leaves for its home; or one arrives from another worker, in the world of
the sending job, and is checked at its controller, also where it comes before this device enters RUN (R378) or after its part of the job has
ended (log entry 129). -/
def execLedgerForward (f : Forward) (s : State) : Host.Outcome State Fault Refusal :=
  .next (match f with
    | .send =>
      match (if jobRuns s then s.forward else []) with
      | [] => s
      | u :: rest =>
        let owner := match u.owner with | .tile x q id => [x, q, id] | _ => [noSite, 0, 0]
        linkSend { s with forward := rest, forwarded := s.forwarded ++ [u] }
          { dest := forwardHome s u, src := ownWid s, vc := u.rg, what := "ledgerUnit",
            words := [256 * u.unit + 32 * u.first, u.count] ++ owner ++ [if u.secure then 1 else 0] ++ u.data.flatten.map (·.toNat) }
    | .receive w secure addr group data =>
      let u : UnitMsg := { owner := .remote w, kind := .accum, secure := secure, rg := group % 8, unit := addr / 256,
                           first := addr / 32 % 8, count := data.length / 32, idx := 0, data := granules data }
      if takesTraffic s || s.rgs.past.contains w then postUnit s u else s)

/-! ### Clearing reads (R310) -/

/-- What the granules of a unit hold after an RCLR read: zeros, or a zero unit for MXFP8. -/
def clearedUnit (l : LedgerFmt) (bs : List Byte) (first count : Nat) : List Byte :=
  if l.isMX then zeroUnit { l with init := false } else splice bs (32 * first) (List.replicate (32 * count) 0)

/-- A tile's GREAD of an RCLR region leaves its granules reading zero (R310). -/
def clearRead (s : State) (unit first count : Nat) : State :=
  match ledgerOf s unit with
  | some (_, l) =>
    if !l.rclr then s
    else
      match (s.ctl (mcOf unit)).cached unit with
      | some u =>
        let v : LUnit := if u.wide then { u with held := splice u.held (16 * first) (List.replicate (16 * count) 0), dirty := true }
                         else { u with bytes := clearedUnit l u.bytes first count, dirty := true }
        cacheUnit s v
      | none =>
        let bs := clearedUnit l (storedUnit s unit) first count
        if l.init && jobRuns s && !(s.ctl (mcOf unit)).inited.contains unit then gddrWrite (markInited s unit) (256 * unit) bs
        else if l.isMX then gddrWrite s (256 * unit) bs
        else gddrWrite s (256 * unit + 32 * first) ((bs.drop (32 * first)).take (32 * count))
  | none => s

/-- Every dirty ledger unit is written back, and the caches are invalidated: the job's end (R314, R379, R391). What has left the zero view
stays known until the next job's start, for late units. -/
def flushLedgers (s : State) : State :=
  let s1 := (List.range 10).foldl (fun s m => (s.ctl m).cache.reverse.foldl writeBack s) s
  { s1 with ctls := s1.ctls.foldl (fun m p => SMap.set Ctl.idle m p.1 { p.2 with cache := [] }) [] }

end Sys2Proof.Machine
end

