-- ==== Sys2Proof/Machine/Tiers.lean ====
section
/-! DEFINITION. The memory controllers (R269 to R277, R297, R311, R356, R358) and the reading rooms (R278 to R281, R304). -/

namespace Sys2Proof.Machine

/-! ### Annex writes and their mirror (R356 to R358) -/

/-- The local range: base, slot size; none where mirroring is disabled or the worker has no buddy (R356, R370). -/
def localRange (s : State) : Option (Nat × Nat) :=
  let size := regFld s rLNK_SHARD 0 14
  if size = 0 ∨ regFld s rLNK_BUDDY 14 1 = 0 then none
  else some (regFld s rLNK_LOCAL 0 17 * regionUnit, size * regionUnit)

/-- The slot of the local range that holds an address (R356). -/
def localSlot (s : State) (a : Nat) : Option Nat :=
  match localRange s with
  | some (b, n) => if b ≤ a ∧ a < b + 2 * n then some ((a - b) / n) else none
  | none => none

/-- Whether a sealed epoch lies above COMMIT (R358). -/
def aboveCommit (s : State) (e : Nat) : Bool :=
  let c := (regRaw s rLNK_CKPT).toNat
  c == 0xFFFFFFFF || decide (c < e)

/-- Whether a mirrored GWRITE into a slot is held: the other slot is sealed with an epoch above COMMIT (R358). -/
def mirrorHeld (s : State) (slot : Nat) : Bool :=
  match SMap.find s.ckpt.sealedAt (1 - slot) with
  | some e => aboveCommit s e
  | none => false

/-- After a write of a slot's header: an epoch whose SEAL is 1 is recorded (R357, R358). -/
def noteSeal (s : State) (slot : Nat) : State :=
  match localRange s with
  | some (b, n) =>
    let h := b + slot * n
    if gddrWord s (h + 8) = 1 then
      { s with ckpt := { s.ckpt with sealedAt := SMap.put s.ckpt.sealedAt slot (gddrWord s h).toNat } }
    else s
  | none => s

/-- A GWRITE unit is carried out: written, and mirrored to the buddy where it lies in the local range. A mirrored granule is
acknowledged when the buddy answers (R356). -/
def annexWrite (s : State) (u : UnitMsg) : State :=
  let a := 256 * u.unit + 32 * u.first
  let s1 := gddrWrite s a u.data.flatten
  match u.owner with
  | .tile x q id =>
    match localSlot s a, localRange s with
    | some slot, some (b, n) =>
      let s2 := if a - (b + slot * n) < 32 then noteSeal s1 slot else s1
      linkSend { s2 with ckpt := { s2.ckpt with mirrored := s2.ckpt.mirrored ++ [u] } }
                  { dest := regFld s rLNK_BUDDY 0 14, src := ownWid s, vc := 11, what := "mirror",
                    words := [a - b, u.count, x, q, id, if u.secure then 1 else 0] ++ u.data.flatten.map (·.toNat) }
    | _, _ => ackReq s1 x q id u.count
  | _ => s1

/-- A GWRITE unit that its controller has accepted: written now, or held (R358). -/
def acceptWrite (s : State) (u : UnitMsg) : State :=
  match localSlot s (256 * u.unit) with
  | some slot => if mirrorHeld s slot then { s with ckpt := { s.ckpt with heldUnits := s.ckpt.heldUnits ++ [u] } } else annexWrite s u
  | none => annexWrite s u

/-- Held writes that COMMIT releases are carried out, in order (R358). -/
def releaseHeld (s : State) : State :=
  s.ckpt.heldUnits.foldl acceptWrite { s with ckpt := { s.ckpt with heldUnits := [] } }

/-! ### Units at their controller -/

/-- The access that a unit makes (R275). -/
def UnitMsg.access (u : UnitMsg) : Access :=
  match u.kind with
  | .gread => .gread | .gwrite => .gwrite | .accum => .accum | _ => .objRead

/-- KIND of MCT_RFAULT: the request's kind, 0xF for an engine (R305). -/
def UnitMsg.kindCode (u : UnitMsg) : Nat := match u.owner with | .loan _ => 0xF | .copy _ _ => 0xF | _ => u.kind.code

/-- The source of a unit in the cross-world logs (R437). -/
def UnitMsg.source (u : UnitMsg) : XSource :=
  match u.owner with
  | .tile _ _ _ => .tile
  | .loan _ => .lend
  | .copy _ _ => .lend
  | .remote _ => .link

/-- Zeros in place of a unit's granules. -/
def UnitMsg.zeros (u : UnitMsg) : List (List Byte) := List.replicate u.count (List.replicate 32 0)

/-- Granules of a unit reach whoever asked for them. -/
def deliverUnit (s : State) (u : UnitMsg) (data : List (List Byte)) : State :=
  match u.owner with
  | .tile x q id => deliverReq s x q id u.idx data
  | .loan k => match loanOf s k with | some l => deliverLoan s l u.idx data | none => s
  | .copy k _ => rereadSlots s k false (8 * u.unit + u.first) (some data) u.count
  | .remote _ => s

/-- A non-secure access to the secure world: zeros, or discarded and acknowledged; logged (R424). -/
def shutUnit (s : State) (u : UnitMsg) (n : Nat) : State :=
  let s1 := xlogRegion s u.source (u.kind == .gwrite || u.kind == .accum) n (256 * u.unit + 32 * u.first)
  if u.kind = .gwrite ∨ u.kind = .accum then ackUnit s1 u else deliverUnit s1 u u.zeros

/-- Whether a unit's request covers whole 256 B units: the whole request's TARGET and LEN, from its first unit on (R309, R310). -/
def wholeUnits (s : State) (u : UnitMsg) : Bool :=
  let own := u.first == 0 && u.count == 8
  match u.owner with
  | .tile x q id => match (s.tile x).request q id with | some r => r.target % 256 == 0 && r.grans % 8 == 0 | none => own
  | _ => own

/-- A unit fills its place: a read is pending, a write is carried out, a contribution is queued or forwarded (R276, R297,
R309 to R312). -/
def acceptUnit (s : State) (mc : Nat) (u : UnitMsg) : State :=
  let c := s.ctl mc
  let pend (s : State) : State := s.setCtl mc { (s.ctl mc) with reads := (s.ctl mc).reads ++ [u] }
  match u.kind, ledgerOf s u.unit with
  | .accum, some (_, l) =>
    let isRemote := match u.owner with | .remote _ => true | _ => false
    if l.isMX && !wholeUnits s u then raiseFault s 0x0C mc u.owner.site
    else if l.fwd && isRemote then regionViolation s mc u.unit noSite u.kind.code (match regionAt s (256 * u.unit) with | some (_, r) => r.kind | none => 7)
    else if l.fwd && homeOf l u.unit != ownWid s then
      if workerInJob s (homeOf l u.unit) then { s with forward := s.forward ++ [u] } else raiseFault s 0x0D mc u.owner.site
    else s.setCtl mc { c with groups := SMap.set [] c.groups u.rg (c.group u.rg ++ [u]) }
  | .accum, none => s
  | .gread, some (_, l) => if l.rclr && l.isMX && !wholeUnits s u then raiseFault s 0x0C mc u.owner.site else pend s
  | .gwrite, _ => acceptWrite s u
  | _, _ => pend s

/-- Whether an earlier unit of the same request has yet to be checked, at any controller (R276). -/
def unitBehind (s : State) (u : UnitMsg) : Bool :=
  (List.range 10).any fun m => (s.ctl m).arrivals.any fun v => v.owner == u.owner && decide (v.idx < u.idx)

/-- Whether a unit cannot be taken yet: units of its request come before it, or its group's queue of 64 is full (R276, R312). -/
def unitBlocked (s : State) (mc : Nat) (u : UnitMsg) : Bool :=
  unitBehind s u || (u.kind == .accum && decide (64 ≤ ((s.ctl mc).group u.rg).length))

/-- Take the first element that a test accepts out of a list. -/
def takeFirst {α : Type} (p : α → Bool) : List α → Option (α × List α)
  | [] => none
  | x :: xs => if p x then some (x, xs) else match takeFirst p xs with | some (y, ys) => some (y, x :: ys) | none => none

/-- One pending read is served (R297): its granules, or poison; a cached unit becomes the most recently used (R314). -/
def serveRead (bad : Bool) (s : State) (u : UnitMsg) : State :=
  if bad then
    match u.owner with
    | .tile x q id => poisonReq s x q id
    | .loan k => badGrans s k u.idx u.count
    | .copy k _ => rereadSlots s k false (8 * u.unit + u.first) none u.count
    | .remote _ => s
  else
    let bs := unitRead s u.unit
    let s1 := touchUnit (deliverUnit s u (granules ((bs.drop (32 * u.first)).take (32 * u.count)))) u.unit
    match u.owner with
    | .tile _ _ _ => clearRead s1 u.unit u.first u.count
    | _ => s1

/-- A controller's access to a unit: every read of it that is pending is served (R297); corrected granules are counted each, an
uncorrectable error once (R271). A cached unit is served from the cache (R314). Whether a read of a unit in its zero view (R310), which
needs no cell of it, meets an uncorrectable error of its cells, the spec does not say: the cells are read all the same and poison the read,
while the first add starts from zeros and does not meet them (DESIGN CHOICE, log entry 125). -/
def accessUnit (s : State) (mc unit : Nat) (ce ue : List Nat) : State :=
  let c := s.ctl mc
  let mine := c.reads.filter fun u => u.unit == unit
  let s1 := s.setCtl mc { c with reads := c.reads.filter fun u => u.unit != unit }
  if mine.isEmpty then s
  else if (c.cached unit).isSome then mine.foldl (serveRead false) s1
  else
    let s2 := recordEcc s1 unit ce ue
    let s3 := countCE s2 mc (unitCE s2 unit)
    let bad := unitBad s3 unit
    mine.foldl (serveRead bad) (if bad then countUE s3 mc else s3)

/-- A read that a controller serves after the job's fault returns to a fenced tile alone (R264, R265). -/
def accessLate (s : State) (mc unit : Nat) : State :=
  let c := s.ctl mc
  (c.reads.filter fun u => u.unit == unit).foldl (fun s u => fencedTraffic s u.owner u.count)
    (s.setCtl mc { c with reads := c.reads.filter fun u => u.unit != unit })

/-- GDDR7_ACCESS (R271, R297): `ce` and `ue` name the granules that the cells give so. -/
def execGddr7Access (mc unit : Nat) (ce ue : List Nat) (s : State) : Host.Outcome State Fault Refusal :=
  .next (if jobRuns s then accessUnit s mc unit ce ue else if flitsGo s then accessLate s mc unit else s)

/-- What a request's units that a controller took ahead of a violating one do: reads are served, contributions are added (R276). -/
def completeAt (o : UnitOwner) (s : State) (m : Nat) : State :=
  let s1 := ((s.ctl m).reads.filter fun u => u.owner == o).foldl (fun s u => accessUnit s m u.unit [] []) s
  let mine := (s1.ctl m).groups.flatMap fun g => g.2.filter fun u => u.owner == o
  let rest := (s1.ctl m).groups.foldl (fun r g => SMap.set [] r g.1 (g.2.filter fun u => u.owner != o)) ([] : SMap (List UnitMsg))
  mine.foldl (fun s u => addContribution s m u [] []) (s1.setCtl m { (s1.ctl m) with groups := rest })

/-- The units ahead of a violating one complete (R276). -/
def completeAhead (s : State) (o : UnitOwner) : State := (List.range 10).foldl (completeAt o) s

/-- A unit at its controller: what its check gives (R275, R276, R424). -/
def checkedUnit (s : State) (mc : Nat) (u : UnitMsg) : State :=
  match checkAccess s u.secure u.access (256 * u.unit) with
  | .violation k => regionViolation (completeAhead s u.owner) mc u.unit u.owner.site u.kindCode k
  | .shut n => shutUnit s u n
  | .ok => acceptUnit s mc u

/-- CONTROLLER_UNIT_ARRIVAL (R276): the oldest unit that is not held back is checked, and queued; a controller that accepts no work refuses
it,
and it is held (R396, R462). In the cycle in which the job has
faulted, another violation is recorded too (R306). -/
def execControllerUnitArrival (mc : Nat) (s : State) : Host.Outcome State Fault Refusal :=
  let c := s.ctl mc
  .next (match (if accepts s (Block.mct.page mc) then takeFirst (fun u => !unitBlocked s mc u) c.arrivals else none) with
    | none => s
    | some (u, rest) =>
      let s1 := s.setCtl mc { c with arrivals := rest }
      if jobRuns s || lateUnit s u then checkedUnit s1 mc u
      else if faultedNow s then
        match checkAccess s u.secure u.access (256 * u.unit) with
        | .violation k => regionViolation s1 mc u.unit u.owner.site u.kindCode k
        | _ => s1
      else s)

/-! ### Reading rooms -/

/-- Whether a bank serves accesses: powered, gating or waiting for its writes (R280, R281). -/
def BankState.serves (b : BankState) : Bool :=
  match b with
  | .powered | .gating _ _ | .stuck => true
  | _ => false

/-- A write granule has reached a gated or waking bank (R281, R304). -/
def lateWrite (s : State) (room : Nat) (a : RoomAcc) : State :=
  let s1 := if regFld s (rRDR_LATE room) 31 1 = 1 then s
    else setReg s (rRDR_LATE room) (BitVec.ofNat 32 (a.gran % 2 ^ 18 + a.owner.site % 2 ^ 12 * 2 ^ 18 + 2 ^ 31))
  raiseFault (setIstat s1 (Block.rdr.page room) 2) 6 room a.owner.site

/-- A read has reached a gated or waking bank (R281). -/
def gatedRead (s : State) (room : Nat) (a : RoomAcc) : State :=
  raiseFault (setIstat s (Block.rdr.page room) 4) 7 room a.owner.site

/-- A write granule in a room: a poisoned one leaves its poison bit, another its bytes (R278, R297). -/
def roomWrite (s : State) (room : Nat) (a : RoomAcc) : State :=
  let r := s.room room
  if a.poison then s.setRoom room { r with poison := SMap.set false r.poison a.gran true }
  else
    let s1 := s.setRoom room { r with mem := r.mem.write (32 * a.gran) a.data, poison := SMap.set false r.poison a.gran false }
    match a.owner with
    | .tile x q id => ackReq s1 x q id 1
    | .loan k => chunkLanded s1 k noSite s.cycle
    | _ => s1

/-- One granule of an access to a room that serves (R278, R297). -/
def roomServe (s : State) (room : Nat) (a : RoomAcc) : State :=
  let r := s.room room
  if a.write then roomWrite s room a
  else if SMap.get false r.poison a.gran then
    match a.owner with
    | .tile x q id => poisonReq s x q id
    | .loan k => badGrans s k a.idx 1
    | _ => s
  else
    let data := r.mem.read (32 * a.gran) 32
    match a.owner with
    | .tile x q id => deliverReq s x q id a.idx [data]
    | .loan k => match loanOf s k with | some l => deliverLoan s l a.idx [data] | none => s
    | _ => s

/-- One granule of an access reaches its bank. -/
def roomAccess (room bank : Nat) (s : State) (a : RoomAcc) : State :=
  if ((s.room room).bank bank).st.serves then roomServe s room a
  else if a.write then lateWrite s room a else gatedRead s room a

/-- The accesses at the head of a bank's queue that make one 64 B unit (R278). -/
def headUnit (as : List RoomAcc) : List RoomAcc :=
  match as with
  | a :: b :: _ => if b.write == a.write && b.gran / 2 == a.gran / 2 then [a, b] else [a]
  | xs => xs

/-- A gating bank that has written the last write in flight: the cycle in which its count is 0 (R280). -/
def Bank.wrote (k : Bank) (c : Nat) : Bank :=
  match k.st with
  | .gating st _ => if k.accs.any (·.write) then k else { k with st := .gating st (some c) }
  | _ => k

/-- ROOM_BANK_ACCESS (R278, R281): the bank serves the 64 B unit at the head of its queue. -/
def execRoomBankAccess (room bank : Nat) (s : State) : Host.Outcome State Fault Refusal :=
  let r := s.room room
  let k := r.bank bank
  let h := headUnit k.accs
  let k1 : Bank := { k with accs := k.accs.drop h.length }
  .next (if h.isEmpty then s
    else if flitsGo s then h.foldl (fun s a => if a.write then s else fencedTraffic s a.owner 1) (s.setRoom room (r.setBank bank k1))
    else if !jobRuns s then s
    else h.foldl (roomAccess room bank) (s.setRoom room (r.setBank bank (if h.any (·.write) then k1.wrote s.cycle else k1))))

/-- A bank holds nothing once it is gated (R279): its bytes and poison bits go. -/
def Room.clearBank (r : Room) (b : Nat) : Room :=
  { r with mem := r.mem.clear (b * 0x80000) ((b + 1) * 0x80000),
           poison := r.poison.filter fun p => bankOf p.1 != b }

/-- Gate a bank at once: what it held is gone; writes it had not accepted then reach a gated bank (R279, R280). -/
def Room.gate (r : Room) (b : Nat) : Room :=
  let k := r.bank b
  (r.clearBank b).setBank b { k with st := .gated, accs := k.accs ++ k.held, held := [], gateAfter := false }

/-- Cycles of a bank wake and of a gate wait (R280). -/
def wakeCycles : Nat := 1600
/-- The gate wait. -/
def gateWait : Nat := 8192

/-- BANK_WAKE_DONE (R280, R306): the bank is powered 1,600 cycles after its start; a GATE that came with the WAKE acts now. -/
def execBankWakeDone (room bank : Nat) (s : State) : Host.Outcome State Fault Refusal :=
  let r := s.room room
  let k := r.bank bank
  .next (match k.st with
    | .waking st =>
      let c := st + wakeCycles
      let k1 : Bank := { k with st := if k.gateAfter then .gating c none else .powered, gateAfter := false }
      (toCycle s c).setRoom room (r.setBank bank k1)
    | _ => s)

/-- BANK_GATE (R280): no write is in flight, and the bank gates in the first such cycle. -/
def execBankGate (room bank : Nat) (s : State) : Host.Outcome State Fault Refusal :=
  let r := s.room room
  let k := r.bank bank
  .next (match k.st with
    | .gating st zero => if k.accs.any (·.write) then s else (toCycle s (zero.getD st)).setRoom room (r.gate bank)
    | _ => s)

/-- GATE_TIMEOUT (R280): writes are still in flight 8,192 cycles after the start; the bank stays powered until the job's end. -/
def execGateTimeout (room bank : Nat) (s : State) : Host.Outcome State Fault Refusal :=
  let r := s.room room
  let k := r.bank bank
  .next (match k.st with
    | .gating st _ =>
      if k.accs.any (·.write) then
        let k1 : Bank := { k with st := .stuck, accs := k.accs ++ k.held, held := [] }
        setIstat ((toCycle s (st + gateWait)).setRoom room (r.setBank bank k1)) (Block.rdr.page room) 1
      else s
    | _ => s)

/-- A WAKE entry starts in cycle c (R280). -/
def wakeBanks (s : State) (room mask c : Nat) : State :=
  s.setRoom room ((List.range 16).foldl (fun r b =>
    if mask / 2 ^ b % 2 = 1 ∧ (r.bank b).st = .gated then r.setBank b { (r.bank b) with st := .waking c } else r) (s.room room))

/-- A GATE entry starts in cycle c; a waking bank gates after its wake (R280, R306). -/
def gateBanks (s : State) (room mask c : Nat) : State :=
  s.setRoom room ((List.range 16).foldl (fun r b =>
    if mask / 2 ^ b % 2 = 1 then
      match (r.bank b).st with
      | .powered => r.setBank b { (r.bank b) with st := .gating c none }
      | .waking _ => r.setBank b { (r.bank b) with gateAfter := true }
      | _ => r
    else r) (s.room room))

end Sys2Proof.Machine
end

