-- ==== Sys2Proof/Machine/Lending.lean ====
section
/-! DEFINITION. The lending engine (R282 to R298, R303, R306, R484) and the completion of host lines (R295, R296). -/

namespace Sys2Proof.Machine

/-! ### The card cache (R285) -/

/-- Ways of a set. -/
def cardWays : Nat := 8

/-- A card becomes its set's most recently used; a ninth card of a set evicts the least recently used. -/
def cacheCard (s : State) (i : Nat) (ws : List Word) : State :=
  let rest := s.lend.cards.filter fun p => p.1 != i
  let mine := (rest.filter fun p => p.1 % 1024 == i % 1024).take (cardWays - 1)
  let others := rest.filter fun p => p.1 % 1024 != i % 1024
  { s with lend := { s.lend with cards := (i, ws) :: (mine ++ others) } }

/-- The cached words of a card. -/
def cachedCard (s : State) (i : Nat) : Option (List Word) := (s.lend.cards.find? fun p => p.1 == i).map (·.2)

/-- Write a card's GPRESENT in a world: its first granule in full, from the cached copy, and the cached copy (R271, R285). The write is
checked like every access (R275): in the other world it is discarded, and logged (R424, R429). -/
def writeGpresent (s : State) (secure : Bool) (i : Nat) (ws : List Word) (v : Bool) : State :=
  let a := cardAddr s i
  let ws1 := splice ws 0 [putFld (wordAt ws 0) 2 1 (if v then 1 else 0)]
  match checkAccess s secure .gpresent a with
  | .violation k => regionViolation s (mcOf (a / 256)) (a / 256) noSite 0xF k
  | .shut n => xlogRegion s .lend true n a
  | .ok => cacheCard (gddrWrite s a (wordsLe (ws1.take 8))) i ws1

/-- A card as the engine has it in a world (R275, R285): cached, or fetched from GDDR7 in one access of its unit, whose errors are counted.
DEDUCED: the engine makes its card fetches one at a time (R291), so none of them is merged with another. Gives the state, and the card's
words; none where a violation or an uncorrectable error left it unread. -/
def cardFor (s : State) (secure : Bool) (i : Nat) : State × Option (List Word) :=
  match cachedCard s i with
  | some ws => (cacheCard s i ws, some ws)
  | none =>
    let a := cardAddr s i
    match checkAccess s secure .card a with
    | .violation k => (regionViolation s (mcOf (a / 256)) (a / 256) noSite 0xF k, none)
    | .shut n => (xlogRegion s .lend false n a, some (List.replicate 16 0))
    | .ok =>
      let (s1, good) := bytesFetched s a 64
      if good then (cacheCard s1 i (cardWords s1 i), some (cardWords s1 i)) else (s1, none)

/-! ### Starting loans (R33, R287, R289) -/

/-- The chunks of a scheduled loan (R287). -/
def schedChunks (s : State) (e : SchedEntry) : List Chunk :=
  if e.dest = 1 then [{ site := noSite, srcGran := e.srcoff, len := e.pt, landed := 0, st := .open }]
  else if e.dest = 2 then
    (List.range e.nt).filterMap fun k => (placedSite s (e.t0 + k)).map fun x =>
      { site := x, srcGran := e.srcoff + (if e.bcast then 0 else k * e.pt), len := e.pt, landed := 0, st := .open }
  else []

/-- The loan that entry n starts in cycle c; with NOLAPSE it has no deadline (R292). DESIGN CHOICE: a card's class n > 0 whose
LND_DCLASS.CYCLES is 0 gives no deadline, as class 0 does (log entry 124). -/
def schedLoan (s : State) (n c : Nat) (e : SchedEntry) : Loan :=
  let card := fld e.word2 0 19
  let dl := if e.deadline = 0 then classDeadline s (decodeCard (cardWords s card)) else e.deadline
  { key := .sched n, start := c, deadline := if e.nolapse ∨ dl = 0 then none else some dl, card := card, words := [],
    dest := e.dest, fromRoom := e.src, win := e.win, off := e.woff, nolapse := e.nolapse, stage := .waiting,
    chunks := schedChunks s e, bad := [], got := [], lost := false, poisoned := false }

/-- One schedule entry starts in cycle c (R280, R289). WAKEs act before GATEs of the same bell (R306). -/
def startEntry (c : Nat) (wakes : Bool) (s : State) (n : Nat) : State :=
  let e := schedEntry s (jobFolio s) n
  let room := fld e.word2 0 6
  let mask := fld e.word2 16 16
  match e.ty, wakes with
  | 0, true => { s with lend := { s.lend with started := s.lend.started ++ [schedLoan s n c e] } }
  | 2, true => wakeBanks s room mask c
  | 1, false => gateBanks s room mask c
  | _, _ => s

/-- Every entry of START k starts in cycle c (R289); the units of the schedule that hold them are read (R271). -/
def startEntries (s : State) (k c : Nat) : State :=
  match s.rgs.job with
  | none => s
  | some j =>
    let mine := ((List.range (schedCount s)).drop j.nextLoan).takeWhile fun n => (schedEntry s j.folio n).start ≤ k
    let due := mine.filter fun n => (schedEntry s j.folio n).start = k
    let s0 := (bytesFetched s ((sectionAt s j.folio 2).1 + 32 * j.nextLoan) (32 * mine.length)).1
    let s1 := due.foldl (startEntry c false) (due.foldl (startEntry c true) s0)
    { s1 with rgs := { s1.rgs with job := some { j with nextLoan := j.nextLoan + mine.length } } }

/-! ### Stages (R290) -/

/-- The granules of the object that a loan's chunks ask for: first, count. -/
def moveSpan (l : Loan) : Nat × Nat :=
  match l.chunks with
  | [] => (0, 0)
  | h :: hs =>
    let lo := hs.foldl (fun a c => Nat.min a c.srcGran) h.srcGran
    let hi := hs.foldl (fun a c => Nat.max a (c.srcGran + c.len)) (h.srcGran + h.len)
    (lo, hi - lo)

/-- Whether every chunk has finished. -/
def Loan.closed (l : Loan) : Bool := l.chunks.all fun h => h.st != .open

/-- The Move stage begins: the range is read from the staging room or from the home; it is skipped for a home, or where every
chunk has lapsed (R289, R290). -/
def startMove (s : State) (l : Loan) : State :=
  let card := decodeCard l.words
  let (lo, n) := moveSpan l
  if l.dest = 0 ∨ l.closed then setLoan s { l with stage := .ovr }
  else
    let s1 := setLoan s { l with stage := .move }
    if l.fromRoom then
      (List.range n).foldl (fun s i => postRoom s card.room
        { owner := .loan l.key, write := false, gran := (card.roomOff / 32 + lo + i) % 2 ^ 18, idx := lo + i, data := [],
          poison := false }) s1
    else
      (unitsOf (card.gaddr + 32 * lo) n).foldl (fun s u =>
        postUnit s { owner := .loan l.key, kind := .loan, secure := jobSecure s, rg := 0, unit := u.1, first := u.2.1,
                     count := u.2.2.1, idx := lo + u.2.2.2, data := [] }) s1

/-- The Page-in stage begins: the object's host lines are asked for, under the host tier's rules (R290, R295, R296). -/
def startPageIn (s : State) (l : Loan) : State :=
  let card := decodeCard l.words
  if hostAbsent s then raiseFault s 0x0B 0 noSite
  else if !inAperture s (jobSecure s) card.haddr (32 * card.size) then raiseFault s 0x0A 0 noSite
  else
    let (f, n) := lineSpan card.haddr (32 * card.size)
    addLines (setLoan s { l with stage := .pageIn }) (.loan l.key) f n

/-- The loan's card is in the cache: an on-demand LOAN's card is checked (R294, R484), and the next stage begins. -/
def afterCard (s : State) (l : Loan) (ws : List Word) : State :=
  let l1 : Loan := { l with words := ws }
  let card := decodeCard ws
  let grans := (l.chunks.headD { site := noSite, srcGran := 0, len := 0, landed := 0, st := .open }).len
  match l.key with
  | .demand x q id =>
    if !card.valid || !(card.gpresent || card.hvalid) || decide (card.size < grans) then raiseFault (setLoan s l1) 9 0 x
    else if !jobSecure s && card.secure then
      let n := match regionAt s card.gaddr with | some (n, _) => n | none => 0x3F
      deliverReq (xlogRegion (setLoan s { l1 with stage := .move }) .tile false n card.gaddr) x q id 0
        (List.replicate grans (List.replicate 32 0))
    else if card.gpresent then startMove (setLoan s l1) l1 else startPageIn (setLoan s l1) l1
  | .sched _ =>
    if l.fromRoom || card.gpresent then startMove (setLoan s l1) l1 else startPageIn (setLoan s l1) l1

/-- Loans in flight at most (R289). -/
def maxLoans : Nat := 4096

/-- Show the number of loans in flight, and the job's peak (R303). -/
def countLoans (s : State) : State :=
  let n := s.lend.loans.length
  setFld (setFld s rLND_LOANS 0 13 n) rLND_LOANS 13 13 (Nat.max (regFld s rLND_LOANS 13 13) n)

/-- Whether the engine accepts no LOAN of a key's queue yet: an earlier on-demand loan of that queue is held (R289). -/
def queueShut (ls : List Loan) : LoanKey → Bool
  | .sched _ => false
  | .demand x q _ => ls.any fun m => m.stage == .held && (match m.key with | .demand y p _ => y == x && p == q | .sched _ => false)

/-- The oldest started loan that is not yet held and whose queue is not shut (R289). -/
def nextHeld (ls : List Loan) : Option Loan := ls.find? fun l => l.stage == .waiting && !queueShut ls l.key

/-- Whether a loan can retire: every chunk has finished, and no stage is left to run (R290). -/
def Loan.canRetire (l : Loan) : Bool :=
  l.closed && (match l.stage with
    | .move | .ovr => true
    | .card => l.lost && l.poisoned
    | _ => false)

/-- A loan's place is free. -/
def retire (s : State) (k : LoanKey) : State :=
  countLoans { s with lend := { s.lend with loans := s.lend.loans.filter fun m => !decide (m.key = k) } }

/-- The oldest started loan is in flight: its Card stage begins, and ends at once where the cache holds the card. -/
def admitLoan (s : State) : State :=
  match s.lend.started with
  | [] => s
  | l :: rest =>
    let l1 : Loan := { l with stage := .card }
    let s1 := countLoans { s with lend := { s.lend with started := rest, loans := s.lend.loans ++ [l1] } }
    match cachedCard s1 l.card with
    | some ws => afterCard (cacheCard s1 l.card ws) l1 ws
    | none => s1

/-- A loan finds 4,096 in flight (R289). -/
def holdLoan (s : State) (l : Loan) : State :=
  let s1 := setLoan s { l with stage := .held }
  let s2 := setFld s1 rLND_LOANS 26 1 1
  let s3 := if regFld s rLND_LOANS 26 1 = 1 then s2 else setIstat s2 (Block.lnd.page 0) 4
  hazard s3 5 noSite 0

/-- LOAN_ADMIT (R289): the oldest started loan is admitted; where 4,096 are in flight, in the place of one that retires in the same cycle
(R306), or else the oldest that is not yet held is held. A disabled lending engine takes no loan (R462). -/
def execLoanAdmit (s : State) : Host.Outcome State Fault Refusal :=
  .next (if !jobRuns s || !accepts s (Block.lnd.page 0) then s
    else if s.lend.loans.length < maxLoans then admitLoan s
    else
      match s.lend.loans.find? (·.canRetire) with
      | some r => if s.lend.started.isEmpty then s else admitLoan (retire s r.key)
      | none => match nextHeld s.lend.started with
        | none => s
        | some l => holdLoan s l)

/-- The loan of a key among those in flight. -/
def inFlight (s : State) (k : LoanKey) : Option Loan := s.lend.loans.find? fun l => l.key = k

/-- Whether the engine serves no other loan's Card stage before this one's (R291). -/
def firstCard (s : State) (l : Loan) : Bool :=
  l.stage == .card && !l.lost && s.lend.loans.all fun m => !(m.stage == .card && !m.lost && servesBefore m l)

/-- CARD_FETCH_DONE (R285, R291, R484): the missed card of the loan that is served next is in the cache, or could not be read. -/
def execCardFetchDone (key : LoanKey) (ue : Bool) (s : State) : Host.Outcome State Fault Refusal :=
  .next (if !jobRuns s then s
    else match inFlight s key with
    | none => s
    | some l =>
      if !firstCard s l then s
      else
        let a := cardAddr s l.card
        match cardFor (if ue && (cachedCard s l.card).isNone then recordEcc s (a / 256) [] [a % 256 / 32] else s) (jobSecure s) l.card with
        | (s1, some ws) => afterCard s1 l ws
        | (s1, none) => setLoan s1 { l with lost := true })

/-! ### Copies (R298) -/

/-- Whether no clean copy of a granule remains. -/
def Loan.spent (l : Loan) (b : Nat × Nat × Bool) : Bool := !b.2.2 && decide ((loanCopies l).length ≤ b.2.1)

/-- The object granules of which no clean copy remains. -/
def Loan.gone (l : Loan) : List Nat := (l.bad.filter l.spent).map (·.1)

/-- The poisoned granules of an object unit that wait for a re-read, with the copies tried. -/
def Loan.due (l : Loan) (u : Nat) : List (Nat × Nat) :=
  l.bad.filterMap fun b => if b.1 / 8 = u ∧ b.2.2 = false then some (b.1, b.2.1) else none

/-- Granules whose re-read sets out. -/
def Loan.ask (l : Loan) (gs : List (Nat × Nat)) : Loan :=
  { l with bad := gs.foldl (fun m g => SMap.put m g.1 (g.2, true)) l.bad }

/-- The re-read of an object unit sets out to a copy: its units of GDDR7, or its host lines (R295, R298). -/
def issueReread (s : State) (l : Loan) (u n : Nat) (gs : List (Nat × Nat)) (c : Copy) : State :=
  let grans := Nat.min 8 ((decodeCard l.words).size - 8 * u)
  let s1 := satAdd (setLoan s (l.ask gs)) rLND_ERR 0 16 1
  match c with
  | .gddr base =>
    let off := (base + 256 * u) % 32
    (unitsOf (base + 256 * u - off) (if off = 0 then grans else grans + 1)).foldl (fun s v => postUnit s
      { owner := .copy l.key n, kind := .loan, secure := jobSecure s, rg := 0, unit := v.1, first := v.2.1, count := v.2.2.1,
        idx := 8 * u + v.2.2.2, data := [] }) s1
  | .host base =>
    if hostAbsent s then raiseFault s 0x0B 0 noSite
    else if !inAperture s (jobSecure s) (base + 256 * u) (32 * grans) then raiseFault s 0x0A 0 noSite
    else
      let (f, k) := lineSpan (base + 256 * u) (32 * grans)
      addLines s1 (.replica l.key) f k

/-- REPLICA_REREAD (R298): an object unit with poisoned granules is read from the next copy; LND_ERR.RETRY counts it. -/
def execReplicaReread (key : LoanKey) (unit : Nat) (s : State) : Host.Outcome State Fault Refusal :=
  .next (if !jobRuns s then s
    else match inFlight s key with
    | none => s
    | some l =>
      match l.due unit with
      | [] => s
      | g :: gs =>
        let n := gs.foldl (fun m h => Nat.min m h.2) g.2
        match (loanCopies l)[n]? with
        | none => s
        | some c => issueReread s l unit n ((g :: gs).filter fun h => h.2 == n) c)

/-- Whether a chunk contains an object unit. -/
def Chunk.holdsUnit (h : Chunk) (u : Nat) : Bool := decide (h.srcGran < 8 * u + 8) && decide (8 * u < h.srcGran + h.len)

/-- The poisoned granules of a room's chunk set out to it, and leave their poison bits there (R297). -/
def poisonRoom (s : State) (l : Loan) (h : Chunk) : State :=
  let card := decodeCard l.words
  (l.gone.filter fun g => decide (h.srcGran ≤ g ∧ g < h.srcGran + h.len)).foldl (fun s g => postRoom s card.room
    { owner := .loan l.key, write := true, gran := (card.roomOff / 32 + g) % 2 ^ 18, idx := g, data := [], poison := true }) s

/-- Whether a loan has posted LAPSED-POISON. -/
def Loan.hasPoison (l : Loan) : Bool := l.chunks.any fun h => match h.st with | .poisoned _ => true | _ => false

/-- LOAN_POISON (R298, R299, R303): no clean copy of a unit remains; every chunk that contains it posts LAPSED-POISON, for which
LND_ERR.POISON counts the loan once and a NOLAPSE loan faults the job; a loan to a home, which has no chunk, is counted and faults so too. -/
def execLoanPoison (key : LoanKey) (s : State) : Host.Outcome State Fault Refusal :=
  .next (if !jobRuns s then s
    else match inFlight s key with
    | none => s
    | some l =>
      let pick (h : Chunk) : Bool := l.lost || l.gone.any fun g => h.holdsUnit (g / 8)
      let hit := l.chunks.filter fun h => h.st.yields .poison s.cycle && pick h
      if !(l.lost || !l.gone.isEmpty) || (l.poisoned && hit.isEmpty) then s
      else
        let s1 := setLoan s { l with poisoned := true }
        if hit.isEmpty && !l.chunks.isEmpty then s1
        else
          let s2 := if l.hasPoison then s1 else setIstat (satAdd s1 rLND_ERR 16 16 1) (Block.lnd.page 0) 2
          let s3 := closeChunks ((hit.filter fun h => h.site == noSite).foldl (fun s h => poisonRoom s l h) s2) key pick .poison s.cycle
          match key with
          | .sched _ => if l.nolapse then raiseFault s3 5 0 noSite else s3
          | .demand _ _ _ => s3)

/-- LOAN_LAPSE (R289, R292): at start + deadline every chunk that has not landed lapses, admitted or not. -/
def execLoanLapse (key : LoanKey) (s : State) : Host.Outcome State Fault Refusal :=
  .next (if !jobRuns s then s
    else match loanOf s key with
    | none => s
    | some l => match l.deadline with
      | none => s
      | some d => closeChunks (toCycle s (l.start + d)) key (fun _ => true) .lapsed (l.start + d))

/-- Whether a loan's page-in still waits for a line or a re-read. -/
def pageInWaits (s : State) (l : Loan) : Bool :=
  ((s.host.lines ++ s.host.offered).any fun p => hostLoan p.1 == some l.key) || (!l.bad.isEmpty && !(l.poisoned && l.bad.all l.spent))

/-- PAGE_IN_DONE (R285, R290): every host line has completed; GPRESENT is set where the home holds the whole object, and the loan
moves on. A card that has left the cache is fetched first; one that cannot be read leaves the loan as R298 says of a unit with no clean
copy. -/
def execPageInDone (key : LoanKey) (s : State) : Host.Outcome State Fault Refusal :=
  .next (if !jobRuns s then s
    else match inFlight s key with
    | none => s
    | some l =>
      if l.stage != .pageIn || pageInWaits s l then s
      else if l.bad.isEmpty then
        match cardFor s (jobSecure s) l.card with
        | (s1, none) => setLoan s1 { l with stage := .card, lost := true }
        | (s1, some ws) =>
          let s2 := writeGpresent s1 (jobSecure s) l.card ws true
          let l1 : Loan := { l with words := (cachedCard s2 l.card).getD l.words }
          startMove (setLoan s2 l1) l1
      else startMove s l)

/-- LOAN_RETIRE (R290): every chunk has landed, lapsed or been poisoned, and the loan's place is free. -/
def execLoanRetire (key : LoanKey) (s : State) : Host.Outcome State Fault Refusal :=
  .next (if !jobRuns s then s
    else match inFlight s key with
    | none => s
    | some l => if l.canRetire then retire s key else s)

/-! ### Host lines (R295, R296) -/

/-- The granules of a request that a line holds: first index and count. -/
def lineGrans (r : Request) (line : Nat) : Nat × Nat :=
  let g0 := r.target / 32
  let lo := Nat.max g0 (2 * line)
  let hi := Nat.min (g0 + r.grans) (2 * line + 2)
  (lo - g0, hi - lo)

/-- A line of a tile request completes: HREAD's data sets out to the tile, or is poison; HWRITE's line is written, and its last
line posts DONE. -/
def tileLine (s : State) (x : Site) (q id line : Nat) (ok : Bool) (data : List Byte) : State :=
  match (s.tile x).request q id with
  | none => if flitsGo s then fencedTraffic s (.tile x q id) 1 else s
  | some r =>
    let (i, n) := lineGrans r line
    if r.kind = .hwrite then
      let o := HostOwner.tile x q id
      let mine := s.host.wlines.filter fun p => p.1 = o ∧ p.2.1 = line
      let s0 : State := { s with host := { s.host with wlines := s.host.wlines.filter fun p => !decide (p.1 = o ∧ p.2.1 = line) } }
      let s1 := if ok then { s0 with host := { s0.host with data := (mine.headD (o, line, [])).2.2, poison := false } }
        else countHostUE s0
      let s2 := ackReq s1 x q id n
      if r.acked + n = r.grans then postOutcome s2 x q id .done s.cycle else s2
    else if ok then
      let bs := (data ++ List.replicate 64 0).take 64
      deliverReq s x q id i (granules ((bs.drop (32 * ((r.target / 32 + i) % 2))).take (32 * n)))
    else poisonReq (countHostUE s) x q id

/-- The granules of an object that a host line at an offset holds: first, count. -/
def objGrans (l : Loan) (off : Nat) : Nat × Nat := (off / 32, Nat.min 2 ((decodeCard l.words).size - off / 32))

/-- A line of a page-in completes (R290, R298). -/
def loanLine (s : State) (k : LoanKey) (line : Nat) (ok : Bool) (data : List Byte) : State :=
  match inFlight s k with
  | none => s
  | some l =>
    let off := 64 * line - (decodeCard l.words).haddr
    let (g, n) := objGrans l off
    if ok then pageInWrite s l off ((data ++ List.replicate 64 0).take 64) else badGrans (countHostUE s) k g n

/-- A line of a host replica completes (R298). -/
def replicaLine (s : State) (k : LoanKey) (line : Nat) (ok : Bool) (data : List Byte) : State :=
  if ok then rereadSlots s k true (2 * line) (some (granules ((data ++ List.replicate 64 0).take 64))) 2
  else rereadSlots (countHostUE s) k true (2 * line) none 2

/-- A host line completes; `ok` is false where it counts as uncorrectable. -/
def completeLine (s : State) (owner : HostOwner) (line : Nat) (ok : Bool) (data : List Byte) : State :=
  let s1 : State := { s with host := { s.host with lines := removeLine owner line s.host.lines } }
  match owner with
  | .tile x q id => tileLine s1 x q id line ok data
  | .loan k => loanLine s1 k line ok data
  | .replica k => replicaLine s1 k line ok data

/-- HOST_LINE_COMPLETE (R295): one of the 512 outstanding lines completes; `ok` is false for a data error, a poisoned line or a
completion timeout (R296), and no line is good while the link is down (R416). -/
def execHostLineComplete (owner : HostOwner) (line : Nat) (ok : Bool) (data : List Byte) (s : State) : Host.Outcome State Fault Refusal :=
  .next (if !lineOutstanding owner line 512 s.host.lines then s
    else completeLine s owner line (ok && s.host.mode != 0) data)

/-- Every line in flight or waiting completes as uncorrectable (R416). -/
def failLines (s : State) : State :=
  s.host.lines.foldl (fun s p => (List.range p.2.2).foldl (fun s i => completeLine s p.1 (p.2.1 + i) false []) s) s

/-! ### LND_CMD (R286) -/

/-- A card as LND_CMD finds it: the cached copy, or the one in GDDR7 (R285). -/
def cardNow (s : State) (i : Nat) : List Word := (cachedCard s i).getD (cardWords s i)

/-- The region-table units of a card's home, by their first addresses (R274). -/
def homeUnits (c : Card) : List Nat :=
  let last := c.gaddr + 32 * c.size - 1
  (List.range (last / regionUnit - c.gaddr / regionUnit + 1)).map fun k => (c.gaddr / regionUnit + k) * regionUnit

/-- The region entry of an address below the end of GDDR7. -/
def regionOf (s : State) (a : Nat) : Option (Nat × Region) := if a < gddrEnd then regionAt s a else none

/-- Whether a PAGEIN or PAGEOUT is refused for what its card says: card, host copy, home region, aperture, host tier (R286). -/
def lndRefused (s : State) (pageIn : Bool) (i : Nat) : Bool :=
  let c := decodeCard (cardNow s i)
  let bytes := 32 * c.size
  let kinds := (homeUnits c).map fun a => match regionOf s a with | some (_, r) => kindOf r.kind | none => .none
  !c.valid || !c.hvalid || decide (gddrEnd < c.gaddr + bytes) || kinds.any (fun k => k == .none || k == .system || (pageIn && k == .ledger))
    || !inWorldAperture s c.secure c.haddr bytes || hostAbsent s

/-- STATUS of LND_CMD; leaving busy is an event (R303, R470), and the idle delay starts (R445). -/
def lndStatus (s : State) (v : Nat) : State :=
  let s1 := setFld s rLND_CMD 29 2 v
  if regFld s rLND_CMD 29 2 = 1 ∧ v ≠ 1 then setIstat (stir s1) (Block.lnd.page 0) 1 else s1

/-- Whether a command may go on to its card: in SLEEP or ARMED, with the block enabled, and for a card of the catalogue (R286, R461). -/
def lndOpen (s : State) (i : Nat) : Bool :=
  (s.dev == .sleep || s.dev == .armed) && accepts s (Block.lnd.page 0) && decide (i < catalogSize s)

/-- Whether the fetch of a command's card is going to fail (R285, R297). -/
def cardBad (s : State) (i : Nat) : Bool := (cachedCard s i).isNone && unitBad s (cardAddr s i / 256)

/-- A command is written to LND_CMD with GO: 1 pages in, 2 pages out. The card is read under the checks of R275 in the world of the
command; what the card says may refuse it (R286; log entry 50). -/
def lndCommand (s : State) (secure : Bool) (op i : Nat) : State :=
  if op = 0 ∨ op = 3 ∨ s.lend.cmd.isSome then s
  else
    let s1 := setFld (setFld s rLND_CMD 0 19 i) rLND_CMD 19 2 op
    let a := cardAddr s i
    if !lndOpen s i then lndStatus s1 2
    else match checkAccess s secure .card a with
    | .violation k => lndStatus (regionViolation s1 (mcOf (a / 256)) (a / 256) noSite 0xF k) 2
    | .shut n => lndStatus (xlogRegion s1 .lend false n a) 2
    | .ok =>
      if !cardBad s i && lndRefused s (op == 1) i then lndStatus s1 2
      else { lndStatus s1 1 with lend := { s.lend with cmd := some (op, i, secure) } }

/-- Error states that a command meets, by absolute granule number. -/
def noteGrans (s : State) (ce ue : List Nat) : State :=
  let s1 := ce.foldl (fun s g => recordEcc s (g / 8) [g % 8] []) s
  ue.foldl (fun s g => recordEcc s (g / 8) [] [g % 8]) s1

/-- The region entry through which a command of the other world meets a home (R424). -/
def homeShut (s : State) (secure write : Bool) (c : Card) : Option Nat :=
  (homeUnits c).findSome? fun a => match regionOf s a with
    | some (n, r) => if crossWorld s secure write n r then some n else none
    | none => none

/-- Host lines of a command counted as uncorrectable (R296, R297): those named, or every one while the link is down (R416). -/
def badHostLines (s : State) (c : Card) (bad : List Nat) : List Nat :=
  (List.range (lineSpan c.haddr (32 * c.size)).2).filter fun k => s.host.mode == 0 || bad.contains k

/-- The lines of a PAGEIN that came in good are in the home. -/
def pageInLines (s : State) (c : Card) (data : List Byte) (bad : List Nat) : State :=
  if bad.isEmpty then gddrWrite s c.gaddr ((data ++ List.replicate (32 * c.size - data.length) 0).take (32 * c.size))
  else ((List.range (lineSpan c.haddr (32 * c.size)).2).filter fun k => !bad.contains k).foldl (fun s k =>
    gddrWrite s (c.gaddr + 64 * k) ((((data.drop (64 * k)) ++ List.replicate 64 0).take 64).take (32 * c.size - 64 * k))) s

/-- The end of a PAGEIN (R286): GPRESENT is 1, or after a bad line 0. -/
def endPageIn (s : State) (secure : Bool) (i : Nat) (ws : List Word) (data : List Byte) (bad : List Nat) : State :=
  let c := decodeCard ws
  let dead := badHostLines s c bad
  let s1 := dead.foldl (fun s _ => countHostUE s) s
  let s2 := match homeShut s secure true c with
    | some n => xlogRegion s1 .lend true n c.gaddr
    | none => pageInLines s1 c data dead
  lndStatus (writeGpresent s2 secure i ws dead.isEmpty) (if dead.isEmpty then 0 else 3)

/-- The end of a PAGEOUT (R286): the home's bytes are the host's; GPRESENT is cleared for a SHELVED or ANNEX home, and stays after a bad
granule or line. -/
def endPageOut (s : State) (secure : Bool) (i : Nat) (ws : List Word) (bad : List Nat) : State :=
  let c := decodeCard ws
  let n := 32 * c.size
  let keep : Bool := match regionAt s c.gaddr with | some (_, r) => kindOf r.kind == .ledger | none => true
  let dead := badHostLines s c bad
  match homeShut s secure false c with
  | some e => lndStatus { xlogRegion s .lend false e c.gaddr with host := { s.host with data := List.replicate n 0, poison := false } } 0
  | none =>
    let (s1, good) := bytesFetched s c.gaddr (32 * c.size)
    let s2 := dead.foldl (fun s _ => countHostUE s) s1
    if !good || !dead.isEmpty then lndStatus (cacheCard s2 i ws) 3
    else
      let s3 : State := { touchRange s2 c.gaddr n with host := { s2.host with data := tierRead s c.gaddr n, poison := false } }
      lndStatus (if keep then cacheCard s3 i ws else writeGpresent s3 secure i ws false) 0

/-- The end of a command (R285, R286): its card is fetched, and the object has moved as far as its host lines and granules came in good. -/
def finishLndCmd (s : State) (cmd : Nat × Nat × Bool) (data : List Byte) (bad : List Nat) : State :=
  let s0 : State := { s with lend := { s.lend with cmd := none } }
  match cardFor s0 cmd.2.2 cmd.2.1 with
  | (s1, none) => lndStatus s1 3
  | (s1, some ws) =>
    if !(decodeCard ws).valid then lndStatus s1 2
    else if cmd.1 = 1 then endPageIn s1 cmd.2.2 cmd.2.1 ws data bad
    else endPageOut s1 cmd.2.2 cmd.2.1 ws bad

/-- LND_CMD_DONE (R285, R286): the object has moved. `data` is the host copy of a PAGEIN, `bad` the host lines that complete as
uncorrectable, `ce` and `ue` the granules of the card and of the home that the cells give so. A controller that accepts nothing holds the
command up (R462). -/
def execLndCmdDone (data : List Byte) (bad ce ue : List Nat) (s : State) : Host.Outcome State Fault Refusal :=
  .next (match s.lend.cmd with
    | none => s
    | some cmd =>
      let c := decodeCard (cardNow s cmd.2.1)
      if !(tierOpen s (cardAddr s cmd.2.1) 64 && tierOpen s c.gaddr (32 * c.size)) then s
      else finishLndCmd (noteGrans s ce ue) cmd data bad)

end Sys2Proof.Machine
end

