-- ==== Sys2Proof/Machine/Bell.lean ====
section
/-! DEFINITION. The bell and the superstep (R19 to R24, R36, R37, R259, R260, R354), overruns (R37, R334, R389, R390) and
the census fold (R331, R332, R336). -/

namespace Sys2Proof.Machine

/-! ### Arrival -/

/-- Whether every remote accumulate that a waiting tile issued has been acknowledged (R20). -/
def Tile.accumsAcked (t : Tile) : Bool := t.queues.all fun p => p.2.all fun r => !(r.kind == .accum && r.posted.isNone)

/-- Whether a tile has arrived at the bell in progress. -/
def Tile.atBell (t : Tile) : Bool := t.phase == .waiting && t.arrived.isSome

/-- Whether every participating tile of this device has arrived. -/
def allArrived (s : State) : Bool := (jobSites s).all fun x => (s.tile x).atBell

/-- The cycle of this device's last arrival. -/
def lastArrival (s : State) : Nat := (jobSites s).foldl (fun m x => Nat.max m ((s.tile x).arrived.getD 0)) 0

/-- The bell root of a job: its lowest worker ID (R354). -/
def bellRoot (s : State) : Nat := minOf (ownWid s) s.rgs.workers

/-- A message to every other device of the job. -/
def toOthers (s : State) (what : String) (words : List Nat) : State :=
  (s.rgs.workers.filter (· != ownWid s)).foldl (fun s w =>
    linkSend s { dest := w, src := ownWid s, vc := 10, what := what, words := words }) s

/-- The longest exchange phase that this device's tiles ask for at the bell (R37). -/
def longestL (s : State) : Nat := (jobSites s).foldl (fun m x => Nat.max m (s.tile x).bellL) 0

/-- A device has arrived at the root, with the longest exchange phase that it asks for: with the last one, the root sends RELEASE to every
other device, with the job's longest (R37, R354; log entry 110). -/
def rootArrival (s : State) (w len : Nat) : State :=
  let got := if s.rgs.arrivedFrom.contains w then s.rgs.arrivedFrom else s.rgs.arrivedFrom ++ [w]
  let s1 : State := { s with rgs := { s.rgs with arrivedFrom := got, lmax := Nat.max s.rgs.lmax len } }
  if s.rgs.workers.all got.contains && !s.rgs.workers.all s.rgs.arrivedFrom.contains then toOthers s1 "release" [s1.rgs.lmax] else s1

/-- This device has arrived: ARRIVE goes to the root (R354). -/
def deviceArrival (s : State) : State :=
  if !jobSpans s || s.rgs.arriveSent || !allArrived s then s
  else
    let s1 : State := { s with rgs := { s.rgs with arriveSent := true } }
    if bellRoot s = ownWid s then rootArrival s1 (ownWid s) (longestL s)
    else linkSend s1 { dest := bellRoot s, src := ownWid s, vc := 10, what := "arrive", words := [longestL s] }

/-- BELL_ARRIVE (R20): the tile has executed BELL and its accumulates are acknowledged. -/
def execBellArrive (site : Site) (s : State) : Host.Outcome State Fault Refusal :=
  let t := s.tile site
  .next (if s.dev == .run && inJob s site && t.phase == .waiting && t.arrived.isNone && t.accumsAcked then
      let c := Nat.max t.bellAt t.ackAt
      let s1 := toCycle s c
      deviceArrival (s1.setTile site { t with arrived := some c, arrTime := cycleTime s1 c })
    else s)

/-- ARRIVE (R354): another device's message reaches the root. -/
def execArrive (worker len : Nat) (s : State) : Host.Outcome State Fault Refusal :=
  .next (if s.dev == .run && jobSpans s && bellRoot s == ownWid s && s.rgs.workers.contains worker then rootArrival s worker len else s)

/-! ### Release -/

/-- Snapshot buffers of a tile (R331). -/
def snapBuffers : Nat := 2

/-- Counters added together. -/
def addCounts (a b : SMap Nat) : SMap Nat := b.foldl (fun m p => SMap.set 0 m p.1 (SMap.get 0 m p.1 + p.2)) a

/-- A tile's census at the release of bell k in cycle c: the events before c are frozen, those of c and later count in superstep k + 1
(R36, R217, R331). -/
def Tile.freeze (t : Tile) (k c : Nat) : Tile :=
  let old := (t.events.filter fun e => decide (e.1 < c)).foldl (fun m e => bumpCount m e.2) t.census
  let snaps := if t.snaps.length < snapBuffers then t.snaps ++ [{ first := k, span := 1, counts := old }]
    else t.snaps.zipIdx.map fun (n, i) =>
      if i + 1 = t.snaps.length then { n with span := n.span + 1, counts := addCounts n.counts old } else n
  { t with census := [], events := t.events.filter fun e => !decide (e.1 < c), snaps := snaps }

/-- A tile is released in cycle c: its exchange phase begins, and its next bundle issues (R22, R179). -/
def Tile.release (t : Tile) (k c : Nat) : Tile :=
  let t1 := ((t.upTo c).latchMem (c - 1)).freeze k c
  { t1 with phase := if t.bellL = 0 then .compute else .exchange, exEnd := c + t.bellL, now := c + (t.now - (t.bellAt + 1)),
            arrived := none, granArrived := [] }

/-- The frame of the census entry that the bell of superstep k adds (R331, R332). -/
def freezeDevice (s : State) (k : Nat) : State :=
  let micro : Word := if inTrain s k then regRaw s rRGS_MICROSTEP else 0xFFFFFFFF
  let eval : Bool := match mapAt s k with | some (_, e) => e.eval | none => false
  let n := s.cen.snaps.length
  let snaps := if n < snapBuffers then
      s.cen.snaps ++ [{ first := k, span := 1, micro := micro, sec := s.chron.sec, ns := s.chron.ns, eval := eval, ledger := s.cen.ledger }]
    else s.cen.snaps.zipIdx.map fun (e, i) =>
      if i + 1 = n then { e with span := e.span + 1, sec := s.chron.sec, ns := s.chron.ns, eval := e.eval || eval,
                                 ledger := addCounts e.ledger s.cen.ledger } else e
  { s with cen := { ledger := [], snaps := snaps } }

/-- The evaluation segments that begin with superstep k + 1, or end with superstep k (R334). -/
def evalEdges (s : State) (k begin : Nat) : State :=
  let ends : Option (Nat × Nat × Nat) := match mapAt s k with
    | some (i, e) => if e.eval && k + 1 == e.start + e.p then some (i, s.rgs.evalStart, begin) else s.rgs.evalDone
    | none => s.rgs.evalDone
  let starts : Nat := match mapAt s (k + 1) with
    | some (_, e) => if e.eval && k + 1 == e.start then begin else s.rgs.evalStart
    | none => s.rgs.evalStart
  { s with rgs := { s.rgs with evalDone := ends, evalStart := starts } }

/-- Release of the bell in progress in the state's cycle (R21 to R23, R33, R36, R37, R322). -/
def releaseBell (s : State) : State :=
  let c := s.cycle
  let k := superstep s
  let next := (k + 1) % 2 ^ 32
  let begin := c + Nat.max (longestL s) s.rgs.lmax
  let s1 := (jobSites s).foldl (fun s x => s.onTile x fun t => t.release k c) (freezeDevice s k)
  let s2 := if endsMicrostep s k then setReg s1 rRGS_MICROSTEP (regRaw s1 rRGS_MICROSTEP + 1) else s1
  let s3 := evalEdges (setReg s2 rRGS_SUPERSTEP (BitVec.ofNat 32 next)) k begin
  let s4 : State := { s3 with rgs := { s3.rgs with prev := some (k, s.rgs.sk, begin), sk := begin, arrivedFrom := [], arriveSent := false, lmax := 0 } }
  startEntries s4 next c

/-- Cycles from the last arrival to the release (R21). -/
def bellCycles : Nat := 120

/-- Whether this device may release its tiles without a message: every tile has arrived and, where the job spans devices, it is
the root and every device has (R21, R354). -/
def mayRelease (s : State) : Bool :=
  allArrived s && !(jobSites s).isEmpty
    && (!jobSpans s || (bellRoot s == ownWid s && s.rgs.workers.all s.rgs.arrivedFrom.contains))

/-- BELL_RELEASE (R21). -/
def execBellRelease (s : State) : Host.Outcome State Fault Refusal :=
  .next (if s.dev == .run && mayRelease s then releaseBell (toCycle s (lastArrival s + bellCycles)) else s)

/-- RELEASE (R354): the root's message releases the tiles of this device in one cycle; it brings the job's longest exchange phase (R37). -/
def execRelease (len : Nat) (s : State) : Host.Outcome State Fault Refusal :=
  .next (if s.dev == .run && jobSpans s && bellRoot s != ownWid s && s.rgs.arriveSent then
      releaseBell { s with rgs := { s.rgs with lmax := len } }
    else s)

/-- EXCHANGE_PHASE_END (R22): the tile's exchange phase has run its length. -/
def execExchangePhaseEnd (site : Site) (s : State) : Host.Outcome State Fault Refusal :=
  let t := s.tile site
  .next (if s.dev == .run && t.phase == .exchange then (toCycle s t.exEnd).setTile site { t with phase := .compute } else s)

/-! ### Time limits -/

/-- The earliest arrival at the bell in progress, as a time. -/
def firstArrival (s : State) : Option Nat :=
  (jobSites s).foldl (fun m x =>
    let t := s.tile x
    if t.atBell then some (Nat.min t.arrTime (m.getD t.arrTime)) else m) none

/-- BELL_TIMEOUT (R24): no release has occurred within the bell timeout after a tile's arrival. A release that is due no later
comes first. -/
def execBellTimeout (s : State) : Host.Outcome State Fault Refusal :=
  .next (match s.rgs.job, firstArrival s with
    | some j, some a =>
      let due := a + j.bellTo * usTicks
      let release := cycleTime s (lastArrival s + bellCycles)
      if s.dev == .run && !(mayRelease s && decide (release ≤ due)) then raiseFault (toTime s due) 2 0 noSite else s
    | _, _ => s)

/-- Whether every tile of the job on this device is halted: no further bell of it comes (R32, R37). -/
def allHalted (s : State) : Bool := (jobSites s).all fun x => (s.tile x).halted

/-- The superstep that is over its bound and not yet flagged, with its last cycle within the bound (R37, R389). The last one is measured
to the cycle in which the last tile halts. -/
def overrunDue (s : State) : Option (Nat × Nat) :=
  let past : Option (Nat × Nat) := match s.rgs.prev with
    | some (k, sk, e) => match boundOf s k with
      | some b => if decide (sk + b < e) && !s.rgs.flagged.contains k then some (k, sk + b) else none
      | none => none
    | none => none
  match past with
  | some p => some p
  | none => match boundOf s (superstep s) with
    | some b =>
      if s.rgs.flagged.contains (superstep s) || (allHalted s && decide (s.rgs.haltedAt ≤ s.rgs.sk + b)) then none
      else some (superstep s, s.rgs.sk + b)
    | none => none

/-- SUPERSTEP_OVERRUN (R37, R389): in the cycle after Sk + Bk the overrun is counted, k recorded, the interrupt raised. -/
def execSuperstepOverrun (s : State) : Host.Outcome State Fault Refusal :=
  .next (if s.dev == .run then
      match overrunDue s with
      | some (k, last) =>
        let s1 := satAdd (toCycle s (last + 1)) rRGS_OVERRUN 0 16 1
        let s2 := setReg s1 rRGS_OVK (BitVec.ofNat 32 k)
        setIstat { s2 with rgs := { s2.rgs with flagged := s2.rgs.flagged ++ [k] } } (Block.rgs.page 0) 8
      | none => s
    else s)

/-- The evaluation segment that is over its BOUND and not yet recorded: map entry and last cycle within the bound (R334). -/
def evalDue (s : State) : Option (Nat × Nat) :=
  let done (i : Nat) : Bool := s.rgs.evalSeen.contains i
  let past : Option (Nat × Nat) := match s.rgs.evalDone with
    | some (i, a, e) =>
      let b := (mapEntry s (jobFolio s) i).bound
      if decide (a + b < e) && !done i then some (i, a + b) else none
    | none => none
  match past with
  | some p => some p
  | none => match mapAt s (superstep s) with
    | some (i, e) => if e.eval && !done i then some (i, s.rgs.evalStart + e.bound) else none
    | none => none

/-- EVAL_OVERRUN (R334, R337): the segment is recorded in RGS_EVAL and the overrun interrupt raised. -/
def execEvalOverrun (s : State) : Host.Outcome State Fault Refusal :=
  .next (if s.dev == .run then
      match evalDue s with
      | some (i, last) =>
        let s0 := toCycle s (last + 1)
        let s1 := satAdd { s0 with rgs := { s0.rgs with evalSeen := s0.rgs.evalSeen ++ [i] } } rRGS_EVAL 0 16 1
        setIstat (setFld (setFld s1 rRGS_EVAL 16 8 i) rRGS_EVAL 31 1 1) (Block.rgs.page 0) 8
      | none => s
    else s)

/-- JOB_LATE (R390): the device has not reached DRAIN within the job's deadline. -/
def execJobLate (s : State) : Host.Outcome State Fault Refusal :=
  .next (match s.rgs.job with
    | some j =>
      if s.dev == .run && j.deadline != 0 && regFld s rRGS_OVERRUN 16 1 == 0 then
        setIstat (setFld (toTime s (s.rgs.runTime + j.deadline * usTicks)) rRGS_OVERRUN 16 1 1) (Block.rgs.page 0) 8
      else s
    | none => s)

/-! ### The census fold (R331, R332) -/

/-- log2 of the entries of the census table; 0 disables folding. -/
def cenDepth (s : State) : Nat := regFld s rCEN_TABLE 20 4

/-- A counter of an entry: 32 bits, saturating. -/
def satWord (n : Nat) : Word := BitVec.ofNat 32 (Nat.min n 0xFFFFFFFF)

/-- The counters of an entry: the tiles' first buffers summed, and the ledger counters. -/
def foldCounts (s : State) (e : CenSnap) : List Word :=
  let tiles := (jobSites s).map fun x => ((s.tile x).snaps.headD { first := 0, span := 0, counts := [] }).counts
  let sum := tiles.foldl addCounts []
  (List.range 448).map fun i => satWord (if i < 256 then SMap.get 0 sum i else SMap.get 0 e.ledger i)

/-- The 512 words of a census entry. -/
def censusEntry (s : State) (e : CenSnap) : List Word :=
  let ovr := s.rgs.flagged.any fun k => decide (e.first ≤ k) && decide (k < e.first + e.span)
  let entry := match s.rgs.job with | some j => j.entry | none => 0
  let flags := 1 + (if debugJob s then 2 else 0) + (if ovr then 4 else 0) + (if e.eval then 8 else 0)
  [BitVec.ofNat 32 e.first, e.micro, BitVec.ofNat 32 e.sec, BitVec.ofNat 32 e.ns,
   BitVec.ofNat 32 ((jobSites s).length + Nat.min (e.span - 1) 255 * 2 ^ 16), BitVec.ofNat 32 flags,
   BitVec.ofNat 32 (ownWid s), BitVec.ofNat 32 entry] ++ List.replicate 56 0 ++ foldCounts s e

/-- The oldest frozen counts are summed and written as one entry (R331, R332, R336). -/
def foldOldest (s : State) : State :=
  match s.cen.snaps with
    | [] => s
    | e :: rest =>
      if cenDepth s == 0 then s
      else
        let a := regFld s rCEN_TABLE 0 20 * 0x200000 + e.first % 2 ^ cenDepth s * 2048
        let s1 := gddrWrite s a (wordsLe (censusEntry s e))
        let s2 := (jobSites s).foldl (fun s x => s.onTile x fun t => { t with snaps := t.snaps.drop 1 }) s1
        let s3 : State := { s2 with cen := { s2.cen with snaps := rest } }
        let s4 := setFld (setReg s3 rCEN_LAST (BitVec.ofNat 32 e.first)) rCEN_STAT 0 1 1
        let s5 := setIstat s4 (Block.cen.page 0) 1
        if 1 < e.span then
          let s6 := setFld s5 rCEN_STAT 1 1 1
          if regFld s5 rCEN_STAT 1 1 = 1 then s6 else setIstat s6 (Block.cen.page 0) 2
        else s5

/-- CENSUS_FOLD (R331, R332, R336): the fold engine writes the entry of the oldest frozen counts. -/
def execCensusFold (s : State) : Host.Outcome State Fault Refusal :=
  .next (if jobRuns s then foldOldest s else s)

end Sys2Proof.Machine
end

