-- ==== Sys2Proof/Machine/Crc.lean ====
section
/-! DEFINITION. The two checksums that the spec names by their public definitions: CRC-32C (R380, R461) and SHA-384 (R381,
R427, R429, R432). -/

namespace Sys2Proof.Machine

/-! ### CRC-32C (R461): Castagnoli polynomial, reflected, initial value and final XOR 0xFFFF_FFFF -/

/-- One bit of the reflected division. -/
def crcBit (c : Word) : Word := if c.toNat % 2 = 1 then (c >>> 1) ^^^ 0x82F63B78 else c >>> 1

/-- One byte. -/
def crcByte (c : Word) (b : Byte) : Word :=
  let x := c ^^^ b.setWidth 32
  crcBit (crcBit (crcBit (crcBit (crcBit (crcBit (crcBit (crcBit x)))))))

/-- CRC-32C of bytes. -/
def crc32c (bs : List Byte) : Word := bs.foldl crcByte 0xFFFFFFFF ^^^ 0xFFFFFFFF

/-! ### SHA-384 (FIPS 180-4; PRESUMED, log entry 13)

The constants are computed from what defines them, the roots of the first primes. A block's eight working words are kept as two trails,
newest first: in every round each trail gains one word, and what the standard calls a to d and e to h are the last four of each. -/

/-- The first eighty primes. -/
def shaPrimes : List Nat := ((List.range 410).drop 2).filter fun n => ((List.range n).drop 2).all fun d => n % d != 0

/-- 64 bits of the fraction of a prime's e-th root, found from the root's highest bit down. -/
def shaRoot (e p : Nat) : BitVec 64 :=
  BitVec.ofNat 64 ((List.range 69).foldr (fun k r => if (r + 2 ^ k) ^ e ≤ p * 2 ^ (64 * e) then r + 2 ^ k else r) 0)

/-- A word rotated by each of some amounts, and shifted by one (64 for no shift), all added without carry. -/
def shaMix (turns : List Nat) (drop : Nat) (x : BitVec 64) : BitVec 64 :=
  turns.foldr (fun r acc => x.rotateRight r ^^^ acc) (x >>> drop)

/-- The schedule: `n` words from a window of the sixteen next ones, oldest first. -/
def shaWords : Nat → List (BitVec 64) → List (BitVec 64)
  | 0, _ => []
  | n + 1, win =>
    win.headD 0 :: shaWords n (win.drop 1 ++
      [win.headD 0 + shaMix [1, 8] 7 (win.getD 1 0) + win.getD 9 0 + shaMix [19, 61] 6 (win.getD 14 0)])

/-- The two trails of a block. -/
structure ShaTrails where
  low : List (BitVec 64)
  high : List (BitVec 64)

/-- One round, with the sum of its constant and its schedule word. -/
def ShaTrails.round (t : ShaTrails) (kw : BitVec 64) : ShaTrails :=
  let e := t.high.headD 0
  let a := t.low.headD 0
  let picked := t.high.getD 2 0 ^^^ (e &&& (t.high.getD 1 0 ^^^ t.high.getD 2 0))
  let most := (t.low.getD 1 0 &&& t.low.getD 2 0) ||| (a &&& (t.low.getD 1 0 ^^^ t.low.getD 2 0))
  let fed := shaMix [14, 18, 41] 64 e + picked + kw + t.high.getD 3 0
  { low := (shaMix [28, 34, 39] 64 a + most + fed) :: t.low, high := (fed + t.low.getD 3 0) :: t.high }

/-- Bytes as a number whose first byte is the most significant. -/
def beNat (bs : List Byte) : Nat := leNat bs.reverse

/-- The same number back as `n` bytes. -/
def natBe (n x : Nat) : List Byte := (natLe n x).reverse

/-- The hash after one more block of sixteen words. -/
def shaBlock (h win : List (BitVec 64)) : List (BitVec 64) :=
  let sums := ((shaPrimes.map (shaRoot 3)).zip (shaWords 80 win)).map fun p => p.1 + p.2
  let t := sums.foldl ShaTrails.round { low := h.take 4, high := h.drop 4 }
  (h.zip (t.low.take 4 ++ t.high.take 4)).map fun p => p.1 + p.2

/-- The message with its end mark, up to whole blocks of 128 bytes, as 64-bit words. -/
def shaMessage (bs : List Byte) : List (BitVec 64) :=
  let blocks := (bs.length + 17 + 127) / 128
  let marked := bs ++ 0x80 :: List.replicate (128 * blocks - bs.length - 17) 0 ++ natBe 16 (8 * bs.length)
  (List.range (16 * blocks)).map fun i => BitVec.ofNat 64 (beNat ((marked.drop (8 * i)).take 8))

/-- SHA-384 of bytes, as a number whose first byte is the most significant. -/
def sha384 (bs : List Byte) : BitVec 384 :=
  let ws := shaMessage bs
  let start := ((shaPrimes.drop 8).take 8).map (shaRoot 2)
  let h := (List.range (ws.length / 16)).foldl (fun h i => shaBlock h ((ws.drop (16 * i)).take 16)) start
  BitVec.ofNat 384 (beNat ((h.take 6).flatMap fun w => natBe 8 w.toNat))

/-- HMAC-SHA-384 under a key of 48 bytes (RFC 2104; R434). -/
def hmac384 (key msg : List Byte) : BitVec 384 :=
  let pad (b : Byte) : List Byte := (key ++ List.replicate (128 - key.length) 0).map (· ^^^ b)
  sha384 (pad 0x5C ++ natBe 48 (sha384 (pad 0x36 ++ msg)).toNat)

end Sys2Proof.Machine
end

