-- ==== Sys2Proof/Machine/Mesh.lean ====
section
/-! DEFINITION. The exchange network: routers and arbitration (R245 to R252), addition on the way (R256 to R258), arrivals
(R233, R234, R254, R255), fencing (R52, R264) and ungating (R51, R142, R227, R293). Run-time flits have no way of their own through the
mesh: what they bring arrives with the command that sends it (log entry 9), and at a fenced tile it is discarded and counted
(`fencedReturn`). -/

namespace Sys2Proof.Machine

/-! ### Nodes and routes (R245, R248) -/

/-- Global column of a site. -/
def globalCol (x : Site) : Nat := 32 * siteHalf x + siteCol x

/-- The site at a global column and row. -/
def siteAt (gcol row : Nat) : Site := siteIndex (gcol / 32) (gcol % 32) row

/-- The output a flit takes at a router: along the row, then along the column, then to the tile (R248). -/
def routeSide (node dst : Site) : Side :=
  if globalCol node < globalCol dst then .east
  else if globalCol dst < globalCol node then .west
  else if siteRow node < siteRow dst then .south
  else if siteRow dst < siteRow node then .north
  else .loc

/-- The next router beyond an output, the input at which a flit reaches it, and whether the link is a seam bridge. -/
def neighbour (node : Site) (out : Side) : Site × Side × Bool :=
  let g := globalCol node
  let r := siteRow node
  match out with
  | .north => (siteAt g (r - 1), .south, false)
  | .south => (siteAt g (r + 1), .north, false)
  | .east => (siteAt (g + 1) r, .west, g == 31)
  | .west => (siteAt (g - 1) r, .east, g == 32)
  | .loc => (node, .loc, false)

/-- Extra cycles of a seam bridge (R252, R261). -/
def seamDelay (s : State) : Nat := if regFld s rXNW_SEAM 0 1 = 1 then 12 else 4

/-! ### Routers -/

/-- A router that holds nothing. -/
def Router.empty : Router := { held := [], rrVc := [], rrPri := [], last := [] }

/-- The router at a site. -/
def State.router (s : State) (n : Site) : Router := SMap.get Router.empty s.routers n

/-- Put a router back. -/
def State.setRouter (s : State) (n : Site) (r : Router) : State := { s with routers := SMap.set Router.empty s.routers n r }

/-- Order of the sides (R251). -/
def sideIndex (d : Side) : Nat := match d with | .north => 0 | .east => 1 | .south => 2 | .west => 3 | .loc => 4

/-- The flits of one input buffer. -/
def Router.buffer (r : Router) (i : Side) (plane vc : Nat) : List Flit :=
  (r.held.filter fun h => h.input == i && h.flit.plane == plane && h.flit.vc == vc).map (·.flit)

/-- Places of an input buffer from another router (R250). -/
def bufferFlits : Nat := 4
/-- Places of a local input. -/
def localFlits : Nat := 16
/-- Places of the arrival buffer (R254). -/
def arrivalFlits : Nat := 8

/-- Whether the place beyond an output is free for a flit (R250); a fenced tile's local output takes every flit (R264). -/
def hasCredit (s : State) (node : Site) (out : Side) (f : Flit) : Bool :=
  match out with
  | .loc => (s.tile node).pwr == .fenced || decide ((s.tile node).arrivals.length < arrivalFlits)
  | _ =>
    let (n, i, _) := neighbour node out
    decide (((s.router n).buffer i f.plane f.vc).length < bufferFlits)

/-- A candidate: its input, and the flit at the head of that input's buffer. -/
abbrev Cand := Side × Flit

/-- The planes that share an output: both at a local output (R251). -/
def planesOf (plane : Nat) (out : Side) : List Nat := match out with | .loc => [0, 1] | _ => [plane]

/-- The heads of a router's input buffers that want an output and have a credit, in order of input, plane and VC. -/
def wanting (s : State) (node plane : Nat) (out : Side) : List Cand :=
  let r := s.router node
  [Side.north, .east, .south, .west, .loc].flatMap fun i =>
    (planesOf plane out).flatMap fun p => (List.range 12).filterMap fun v =>
      match r.buffer i p v with
      | f :: _ => if routeSide node f.dst = out ∧ hasCredit s node out f then some (i, f) else none
      | [] => none

/-- An input's place in an output's order: each input counts once for each plane at a local output (R251). -/
def inputRank (out : Side) (c : Cand) : Nat := match out with | .loc => 2 * sideIndex c.1 + c.2.plane | _ => sideIndex c.1

/-- Inputs of an output. -/
def inputCount (out : Side) : Nat := match out with | .loc => 10 | _ => 5

/-- The first candidate at or after a round-robin pointer. -/
def roundRobin (n ptr : Nat) (rank : Cand → Nat) (cs : List Cand) : Option Cand :=
  (List.range n).findSome? fun i => cs.find? fun c => rank c == (ptr + i) % n

/-- Key of an output's pointers: the two planes share a local output. -/
def outKey (plane : Nat) (out : Side) : Nat := match out with | .loc => 10 | _ => 5 * plane + sideIndex out

/-- The flit that an output grants in cycle c, and the router with its pointer moved (R251). -/
def arbitrate (s : State) (node plane c : Nat) (out : Side) : Option (Cand × Router) :=
  let r := s.router node
  let key := outKey plane out
  let ready := (wanting s node plane out).filter fun d => d.2.ready ≤ c
  let f := (c - s.clockStart) % 24
  let n := inputCount out
  let slot : Option Cand :=
    if f % 2 = 0 then roundRobin n (SMap.get 0 r.rrVc (16 * key + f / 2)) (inputRank out) (ready.filter fun d => d.2.vc == f / 2)
    else none
  match slot with
  | some d => some (d, { r with rrVc := SMap.set 0 r.rrVc (16 * key + f / 2) ((inputRank out d + 1) % n) })
  | none =>
    let pri := minOf 0 (ready.map fun d => d.2.pri)
    let rank (d : Cand) : Nat := 12 * inputRank out d + d.2.vc
    match roundRobin (12 * n) (SMap.get 0 r.rrPri (4 * key + pri)) rank (ready.filter fun d => d.2.pri == pri) with
    | some d => some (d, { r with rrPri := SMap.set 0 r.rrPri (4 * key + pri) ((rank d + 1) % (12 * n)) })
    | none => none

/-! ### Addition (R256, R257) -/

/-- Element format of ADDF. -/
def addfFormat (a : Nat) : Nat := match a with | 1 => fFP32 | 2 => fBF16 | _ => fINT64

/-- Element bytes of ADDF. -/
def addfBytes (a : Nat) : Nat := match a with | 1 => 4 | 2 => 2 | _ => 8

/-- One element sum, with its class. -/
def addfElem (a x y : Nat) : Nat × Class :=
  if a = 3 then ((x + y) % 2 ^ 64, 0)
  else rne (addfFormat a) (Num.add (decodeNum (addfFormat a) x) (decodeNum (addfFormat a) y))

/-- One granule's sums, with their classes. -/
def addfGran (a : Nat) (x y : List Byte) : List Byte × List Class :=
  let w := addfBytes a
  let out := (List.range (32 / w)).map fun i =>
    addfElem a (leNat ((x.drop (w * i)).take w)) (leNat ((y.drop (w * i)).take w))
  (out.flatMap fun p => natLe w p.1, out.map (·.2))

/-- Two flits' granules added; the granted flit is the first operand. -/
def addFlits (f g : Flit) : Flit := { f with data := (f.data.zip g.data).map fun p => (addfGran f.addf p.1 p.2).1 }

/-- Identical merge tags (R256). A flit's granules are its first ones, so their number is the mask. -/
def sameTag (f g : Flit) : Bool :=
  f.addf != 0 && f.addf == g.addf && f.dst == g.dst && f.win == g.win && f.off == g.off && f.plane == g.plane
    && f.rg == g.rg && f.data.length == g.data.length

/-! ### ROUTER_GRANT -/

/-- The data of a flit that overfills a local input is unpredictable (R250). -/
def spoil (s : State) (f : Flit) : State × Flit :=
  (drew s (4 * f.data.length),
   { f with data := f.data.zipIdx.map fun (_, i) =>
       (List.range 4).flatMap fun j => natLe 8 (Config.freeBits (s.free + 4 * i + j)).toNat })

/-- One flit of the tile enters its router's local input. -/
def injectFlit (node : Site) (s : State) (f : Flit) : State :=
  let full := decide (localFlits ≤ ((s.router node).buffer .loc f.plane f.vc).length)
  let (s1, g) := if full then spoil (mayFault s) f else (s, f)
  let r := s1.router node
  s1.setRouter node { r with held := r.held ++ [{ input := .loc, flit := g }] }

/-- The flits that a tile has injected for arbitration in cycle c (R180, R247): they were read in earlier cycles. Nothing leaves a fenced
tile (R264). With a flit that overfills its local input the job may fault (R11, R250). -/
def injectUpTo (s : State) (node : Site) (c : Nat) : State :=
  let t := s.tile node
  if t.xsends.isEmpty then s
  else
    let t1 := t.reach c
    let out := t1.xsends.flatMap (·.out)
    let left := (t1.xsends.map fun x => { x with out := [] }).filter fun x => 4 * x.latched < x.len
    out.foldl (injectFlit node) (s.putTile node { t1 with xsends := left })

/-- Take the head of a router's input buffer away. -/
def Router.drop (r : Router) (c : Cand) : Router :=
  { r with held := r.held.eraseP fun h => h.input == c.1 && h.flit.plane == c.2.plane && h.flit.vc == c.2.vc }

/-- A flit reaches a fenced tile's local output: discarded, counted, the first recorded (R264, R266). -/
def fencedDrop (s : State) (node : Site) (f : Flit) : State := fencedFlit s node f.vc f.plane f.src

/-- A granted flit goes on its way: to the next router's input, or into the destination port (R252, R254, R264). -/
def forwardFlit (s : State) (node c : Nat) (out : Side) (f : Flit) : State :=
  match out with
  | .loc =>
    if (s.tile node).pwr = .fenced then fencedDrop s node f
    else s.onTile node fun t => { t with arrivals := t.arrivals ++ [{ flit := f, entry := c + 2, targets := none, noted := false, sums := none }] }
  | _ =>
    let (n, i, seam) := neighbour node out
    let r := s.router n
    let g : Flit := { f with ready := c + 2 + (if seam then seamDelay s else 0) }
    s.setRouter n { r with held := r.held ++ [{ input := i, flit := g }] }

/-- The earliest cycle in which an output has an eligible flit. -/
def grantCycle (s : State) (node plane : Nat) (out : Side) : Option Nat :=
  match (wanting s node plane out).map fun d => d.2.ready with
  | [] => none
  | x :: xs =>
    let free := match SMap.find (s.router node).last (outKey plane out) with | some l => l + 1 | none => 0
    some (Nat.max (Nat.max s.cycle free) (xs.foldl Nat.min x))

/-- Whether the mesh carries a job's flits. -/
def meshRuns (s : State) : Bool := s.dev == .run || s.dev == .drain

/-- Whether the mesh still moves a job's flits: it discards those of a faulted job within 16 cycles, and until then a fenced tile's local
output still counts what reaches it (R264, R265). -/
def meshMoves (s : State) : Bool :=
  meshRuns s || (s.dev == .faulted && match s.rgs.fault with | some f => decide (s.cycle < f.at_ + 16) | none => false)

/-- ROUTER_GRANT (R251, R256): one output of a router grants a flit in the first cycle that it can; flits with the same merge
tag, eligible in that cycle, leave with it. -/
def execRouterGrant (node plane : Nat) (out : Side) (s : State) : Host.Outcome State Fault Refusal :=
  let s0 := injectUpTo s node (s.cycle + 1)
  .next (if !meshMoves s then s
    else match grantCycle s0 node plane out with
    | none => s
    | some c =>
      let s1 := injectUpTo (toCycle s c) node c
      match arbitrate s1 node plane c out with
      | none => s
      | some (d, r) =>
        let partners := (wanting s1 node d.2.plane out).filter fun e =>
          e.1 != d.1 && e.2.vc == d.2.vc && decide (e.2.ready ≤ c) && sameTag d.2 e.2
        let f := partners.foldl (fun f e => addFlits f e.2) d.2
        let key := outKey plane out
        let r1 := partners.foldl Router.drop ({ r with last := SMap.put r.last key c }.drop d)
        forwardFlit (satAdd (s1.setRouter node r1) rXNW_MERGE 0 32 partners.length) node c out f)

/-! ### Arrivals -/

/-- The dropped granules of a checked flit (R234). -/
def dropViolations (s : State) (x : Site) (a : Arrival) : State :=
  (a.targets.getD []).foldl (fun s (p : Bool × Nat) => if p.1 then s else windowViolation s x p.2 a.flit.win 0) s

/-- In cycle c the violations of flits are recorded: the job runs, or it has faulted in c itself (R234, R244). -/
def recordsIn (s : State) (c : Nat) : Bool :=
  meshRuns s || (s.dev == .faulted && match s.rgs.fault with | some f => f.at_ == c | none => false)

/-- The violations of flit i of the arrival buffer are counted and recorded in its entry cycle, and the job faults (R234). -/
def enterFlit (x : Site) (s : State) (i : Nat) : State :=
  match (s.tile x).arrivals[i]? with
  | none => s
  | some a =>
    if a.noted || !recordsIn s (Nat.max s.cycle a.entry) then s
    else
      let s1 := toCycle s a.entry
      let t := ((s1.tile x).settleEffects a.entry).checkArrivals a.entry
      let s2 := s1.setTile x { t with arrivals := t.arrivals.zipIdx.map fun (b, j) => if j = i then { b with noted := true } else b }
      match t.arrivals[i]? with
      | some b => dropViolations s2 x b
      | none => s2

/-- The flits that enter a tile's port up to cycle c are checked, each in its entry cycle (R234). -/
def enterUpTo (s : State) (x : Site) (c : Nat) : State :=
  let due := ((s.tile x).arrivals.zipIdx.filter fun p => decide (p.1.entry ≤ c)).map (·.2)
  due.foldl (enterFlit x) s
/-- A granule that the port writes in cycle c (R254): ARRIVED is set, and debug mode checks the write (R231). -/
def portPut (c : Nat) (t : Tile) (g : Nat × List Byte) : Tile :=
  let u := (t.writeMem c g.1 g.2).noteWrites (rangeGrans g.1 32)
  { u with granArrived := SMap.set false u.granArrived (granOf g.1) true }

/-- EXCHANGE_ARRIVAL (R234, R252, R254, R255): the flits that have entered are checked, each in its entry cycle; the one that entered
first is written, each granule inside its window, in the first cycle in which the write ports of all its granules' banks are free. What
enters, or is due, in the cycle in which the job faults still happens (R244). -/
def execExchangeArrival (site : Site) (s : State) : Host.Outcome State Fault Refusal :=
  let t := s.tile site
  .next (match t.arrivals with
    | [] => s
    | a :: _ =>
      if t.pwr != .active then s
      else
        let c0 := Nat.max s.cycle a.entry
        let t0 := (t.upTo c0).checkArrivals c0
        let a1 := t0.arrivals.headD a
        let c := if a.flit.addf = 0 then t0.foreseen.writeFree a1.grans c0 else c0
        let s1 := enterUpTo s site c
        if a.flit.addf != 0 || !meshRuns s || !recordsIn s1 c then s1
        else
          let t1 := (s1.tile site).upTo c
          (toCycle s1 c).putTile site (a1.kept.foldl (portPut c) { t1 with arrivals := t1.arrivals.tail }))

/-- Whether an earlier ADDF flit to a granule of this one is between its read and its write (R258). -/
def readBlocked (earlier : List Arrival) (a : Arrival) : Bool :=
  earlier.any fun e => e.sums.isSome && e.kept.any fun g => a.kept.any fun h => h.1 == g.1

/-- The cycle in which an ADDF flit reads: the first from its entry on in which the read ports of its banks are free (R258). -/
def readCycle (s : State) (t : Tile) (a : Arrival) : Nat := t.foreseen.readFree a.grans (Nat.max s.cycle a.entry)

/-- The ADDF flit that reads first, of those that no earlier sum holds up, with its place in the arrival buffer and its cycle (R258). A
flit waits for an earlier one to the same granules only from that one's read on, as the rule says (DEDUCED, log entry 127). -/
def nextRead (s : State) (t : Tile) : Option (Nat × Arrival × Nat) :=
  (t.arrivals.zipIdx.filter fun p =>
      p.1.flit.addf != 0 && p.1.sums.isNone && !readBlocked (t.arrivals.take p.2) p.1).foldl (fun b p =>
    let c := readCycle s t p.1
    match b with
    | some o => if c < o.2.2 then some (p.2, p.1, c) else some o
    | none => some (p.2, p.1, c)) none

/-- The classes of the sums that a port forms (R111, R258), as census events. -/
def addfEvents (f : Nat) (cs : List Class) : List Nat := if f = 3 then [] else cs.flatMap (classEvents (addfFormat f))

/-- ADDF_READ (R258): the ADDF flit that can read first reads its granules, in the first cycle in which the read ports of all their
banks are free, and the port forms the sums. -/
def execAddfRead (site : Site) (s : State) : Host.Outcome State Fault Refusal :=
  let t := s.tile site
  .next (if t.pwr != .active then s
    else
      let last := t.arrivals.foldl (fun m a => Nat.max m a.entry) s.cycle
      match nextRead s ((t.upTo s.cycle).checkArrivals last) with
      | none => s
      | some (i, b, c) =>
        let s1 := enterUpTo s site c
        if !meshRuns s || !recordsIn s1 c then s1
        else
          let t1 := (s1.tile site).upTo c
          let a := t1.arrivals.getD i b
          let out := a.kept.map fun g => addfGran a.flit.addf ((t1.asRead c).readMem g.1 32) g.2
          let t2 := a.kept.foldl (fun t g => t.usePort { cycle := c, write := false, rank := 0, addr := g.1, len := 32 }) t1
          let sums := (c, out.map (·.1), addfEvents a.flit.addf (out.flatMap (·.2)))
          let t3 : Tile :=
            { t2 with arrivals := t2.arrivals.zipIdx.map fun (b, j) => if j = i then { b with sums := some sums } else b }
          (toCycle s1 c).putTile site (t3.noteReads a.grans))

/-- ADDF_WRITE (R258): the sums of the flit that entered first are written, at least two cycles after their read and in the first
cycle in which the write ports of all their banks are free; what was formed at the read is classified and counted. -/
def execAddfWrite (site : Site) (s : State) : Host.Outcome State Fault Refusal :=
  let t := s.tile site
  .next (match t.arrivals with
    | [] => s
    | a :: _ =>
      match a.sums with
      | none => s
      | some (rd, sums, events) =>
        if !meshRuns s || t.pwr != .active then s
        else
          let from_ := Nat.max s.cycle (rd + 2)
          let t0 := t.upTo from_
          let c := t0.foreseen.writeFree a.grans from_
          let s1 := enterUpTo s site c
          if !recordsIn s1 c then s1
          else
            let t1 := (s1.tile site).upTo c
            let t2 := ((a.kept.map (·.1)).zip sums).foldl (portPut c) { t1 with arrivals := t1.arrivals.tail }
            (toCycle s1 c).putTile site (t2.countEvents c events))

/-! ### Fencing -/

/-- A tile that loses its contents; its records stay until the next job that uses it (R50, R61, R243, R468). -/
def Tile.powerDown (t : Tile) (p : Power) : Tile :=
  { Tile.off with pwr := p, halted := t.halted, longsum := t.longsum, ovf := t.ovf, debug := t.debug, ifault := t.ifault,
                  wfault := t.wfault, wdrop := t.wdrop }

/-- Move the retained tiles of a device group to OFF. -/
def offGroup (s : State) (g : Nat) : State :=
  (groupSites s.fuse g).foldl (fun s x => s.onTile x fun t => if t.pwr = .retain then t.powerDown .off else t) s

/-- Retention ends for every residency that a test picks: every tile that holds its data goes to OFF, and with it what another residency
keeps there (R242). -/
def dropResidents (s : State) (p : Resid → Bool) : State :=
  let gone := ((s.rgs.resid.filter p).flatMap fun r => r.groups.map (·.2)).eraseDups
  let kept := ((s.rgs.resid.filter fun r => !p r).map fun r => { r with groups := r.groups.filter fun q => !gone.contains q.2 }).filter
    fun r => !r.groups.isEmpty
  gone.foldl offGroup { s with rgs := { s.rgs with resid := kept } }

/-- A fence takes effect at a tile: it loses its contents, and the flits that its arrival buffer holds, and run-time flits on their way to
it, are discarded and counted. Those
that wait at its local output, or reach it later, are granted one per cycle, and discarded then (R264, R267). -/
def isolate (s : State) (x : Site) : State :=
  fencedReturn (((s.tile x).arrivals.map fun a => a.flit).foldl (fun s f => fencedDrop s x f) (s.setTile x ((s.tile x).powerDown .fenced)))
    x (((s.tile x).transit.length + 3) / 4)

/-- Whether a placed group has been ungated: its tiles are up, but for fenced ones. -/
def groupUp (s : State) (g : Nat) : Bool := (groupSites s.fuse g).all fun x => (s.tile x).pwr == .active || (s.tile x).pwr == .fenced

/-- FENCE (R52, R242, R264): the tile is FENCED, its flits are discarded and counted, retention in its group ends, and a job that uses it
faults; in ARMED, at the end of ungating. -/
def execFence (site : Site) (s : State) : Host.Outcome State Fault Refusal :=
  .next (match logicalAt s.fuse site with
    | none => s
    | some n =>
      if (s.tile site).pwr = .fenced then s
      else
        let s3 := dropResidents (isolate s site) fun r => r.groups.any fun q => q.2 == groupOf n
        if !inJob s site then s3
        else if s.dev = .armed ∧ s.rgs.arm ≠ .done then
          { s3 with rgs := { s3.rgs with fenceArm := some (Nat.min site (s.rgs.fenceArm.getD site)) } }
        else raiseFault s3 0x15 0 site)

/-! ### Ungating -/

/-- The resident ranges that a placed group holds, as byte ranges (R241). -/
def residRanges (s : State) (g : Nat) : List (Nat × Nat) :=
  (s.rgs.resid.filter fun r => r.groups.any fun q => q.2 == g).map fun r => (32 * r.base, 32 * r.bound)

/-- What a tile's memory keeps through an ungating: its resident ranges, and zeros (R227, R241). -/
def keepRanges (m : Memory) (rs : List (Nat × Nat)) : Memory :=
  m.filter fun p => rs.any fun r => decide (r.1 ≤ p.1) && decide (p.1 < r.2)

/-- An ungated tile: bulk-cleared outside its resident ranges, its vector registers and loan outcomes cleared (R51, R142, R227,
R293). -/
def Tile.ungate (t : Tile) (rs : List (Nat × Nat)) : Tile :=
  { t.powerDown .active with mem := if t.pwr = .retain then keepRanges t.mem rs else [] }

/-- Microseconds of an ungating (R51). -/
def ungateUs : Nat := 5

/-- The device groups of the current job. -/
def jobGroups (s : State) : List Nat :=
  match s.rgs.job with
  | some j => (List.range j.groups).map fun i => j.base + i
  | none => []

/-- The end of ungating: a fence that came meanwhile faults the job (R52). -/
def endUngating (s : State) : State :=
  let s1 : State := { s with rgs := { s.rgs with arm := .done } }
  match s.rgs.fenceArm with
  | some x => raiseFault s1 0x15 0 x
  | none => s1

/-- GROUP_UNGATE (R51, R52, R377): a placed group's tiles become ACTIVE, but for a fenced one; with the last group ungating ends. A group
that is up already, because every one of its tiles has been fenced, only takes its time. -/
def execGroupUngate (group : Nat) (s : State) : Host.Outcome State Fault Refusal :=
  .next (if s.dev == .armed && s.rgs.arm == .ungate && (jobGroups s).contains group
        && (!groupUp s group || (jobGroups s).all (groupUp s)) then
      let t := s.rgs.armAt + ungateUs * usTicks
      let rs := residRanges s group
      let s1 := (groupSites s.fuse group).foldl (fun s x => s.onTile x fun t =>
        if t.pwr = .fenced ∨ t.pwr = .active then t else t.ungate rs) (toTime s t)
      let s2 : State := { s1 with rgs := { s1.rgs with armAt := t } }
      if (jobGroups s2).all (groupUp s2) then endUngating s2 else s2
    else s)

end Sys2Proof.Machine
end

