-- ==== Sys2Proof/Machine/RegFile.lean ====
section
/-! DEFINITION. The fields of every register (R456 to R470 and the tables of the block chapters), what a register reads as,
the world of a page (R419, R420, R424), SEAL (R382, R461) and the drain status of a block (R396, R462). -/

namespace Sys2Proof.Machine

/-! ### Fields -/

/-- The bits lo to hi. -/
def bits (hi lo : Nat) : Nat := (2 ^ (hi + 1 - lo) - 1) * 2 ^ lo

/-- The bits of a register by their access codes (R16); every bit outside them is RSV. -/
structure Fields where
  rw : Nat
  rws : Nat
  ro : Nat
  w1c : Nat
  wo : Nat
  deriving DecidableEq, Repr

/-- A reserved offset. -/
def Fields.none : Fields := { rw := 0, rws := 0, ro := 0, w1c := 0, wo := 0 }

/-- A register of read-only bits. -/
def roBits (m : Nat) : Fields := { Fields.none with ro := m }
/-- A register of read-write bits. -/
def rwBits (m : Nat) : Fields := { Fields.none with rw := m }

/-- The ISTAT bits that a block's table assigns, W1C and RO (R304, R417, R454, R470). -/
def istatBits (b : Block) (n : Nat) : Nat × Nat :=
  match b with
  | .glb => (2, 1)
  | .til => (0, 0)
  | .mct => (0xF, 0)
  | .lnd => (7, 0)
  | .rdr => (7, 0)
  | .xnw => (1, 0)
  | .lnk => (if n = 0 then 0x30F else 0xF, 0)
  | .hif => (0xF, 0)
  | .rgs => (0x1F, 0)
  | .cpw => (0xF, 0)
  | .tim => (7, 0)
  | .sec => (0, 0)
  | .cen => (3, 0)

/-- The common header (R420, R459) with the block bits of STAT and CTRL (R61, R370, R371). -/
def headerFields (b : Block) (n o : Nat) : Fields :=
  let (w, r) := istatBits b n
  if o = 0x000 then roBits (bits 19 0 + bits 31 24)
  else if o = 0x004 then roBits (if b = .glb then bits 18 0 else bits 15 0)
  else if o = 0x008 then { Fields.none with rws := 3 }
  else if o = 0x00C then
    match b with
    | .til => roBits (bits 8 0)
    | .lnk => roBits (if n = 0 then bits 6 0 else bits 5 0)
    | .tim => { Fields.none with ro := bits 2 0, w1c := bits 3 3 }
    | _ => roBits 1
  else if o = 0x010 then { Fields.none with w1c := w, ro := r }
  else if o = 0x014 then rwBits (w + r)
  else if o = 0x018 then { Fields.none with wo := w + r }
  else if o = 0x01C then { Fields.none with rw := (if b = .tim then bits 4 4 else 0) + 3, wo := 4 + (if b = .tim then bits 3 3 else 0) }
  else if o = 0x020 then rwBits (bits 31 0)
  else Fields.none

/-- The block-specific registers (R466). -/
def blockFields (b : Block) (n o : Nat) : Fields :=
  match b with
  | .glb =>
    if o = 0x040 then roBits (bits 24 0)
    else if o = 0x080 then { rwBits (bits 7 0) with wo := bits 31 31 }
    else if 0x084 ≤ o ∧ o ≤ 0x0A0 then rwBits (bits 31 0)
    else if o = 0x0A4 then roBits (bits 2 0)
    else if o = 0x0B0 then roBits (bits 5 0 + bits 13 8 + bits 23 16)
    else if o = 0x0B4 ∨ o = 0x0BC then roBits (bits 31 0)
    else if o = 0x0B8 then roBits (bits 8 0)
    else if o = 0x0C0 then roBits (bits 29 0)
    else if o = 0x0D0 then roBits (bits 8 0)
    else Fields.none
  | .til =>
    if o = 0x040 then roBits (bits 23 0)
    else if o = 0x044 then roBits (bits 18 0)
    else if o = 0x048 then roBits (bits 11 0)
    else if o = 0x04C then roBits (bits 24 0 + bits 31 31)
    else if o = 0x050 then roBits (bits 26 0 + bits 31 31)
    else if o = 0x054 then roBits (bits 31 0)
    else Fields.none
  | .mct =>
    if o = 0x040 then rwBits (bits 31 0)
    else if o = 0x044 then roBits (bits 19 0 + bits 31 31)
    else if o = 0x048 then roBits (bits 31 0)
    else if o = 0x050 ∨ o = 0x054 then { Fields.none with w1c := bits 31 0 }
    else if 0x100 ≤ o ∧ o < 0x200 then rwBits (bits 31 0)
    else Fields.none
  | .lnd =>
    if o = 0x040 then rwBits (bits 25 0)
    else if o = 0x044 then roBits (bits 26 0)
    else if o = 0x048 then roBits (bits 31 0)
    else if o = 0x04C then { rwBits (bits 20 0) with ro := bits 30 29, wo := bits 31 31 }
    else if o = 0x050 then roBits (bits 23 0)
    else if 0x054 ≤ o ∧ o ≤ 0x08C then rwBits (bits 23 0)
    else Fields.none
  | .rdr =>
    if o = 0x040 then roBits (bits 31 0)
    else if o = 0x044 then roBits (bits 29 0 + bits 31 31)
    else Fields.none
  | .xnw =>
    if o = 0x040 then roBits (bits 4 0)
    else if o = 0x044 ∨ o = 0x04C then roBits (bits 31 0)
    else if o = 0x048 then roBits (bits 28 0 + bits 31 31)
    else Fields.none
  | .cen =>
    if o = 0x040 then rwBits (bits 23 0)
    else if o = 0x044 then roBits (bits 31 0)
    else if o = 0x048 then roBits (bits 2 0)
    else Fields.none
  | .lnk =>
    if o = 0x040 then rwBits (bits 31 0)
    else if o = 0x044 then roBits (bits 18 0)
    else if n ≠ 0 then Fields.none
    else if o = 0x100 then { rwBits (bits 14 0 + bits 23 16) with ro := bits 15 15 }
    else if o = 0x104 then rwBits (bits 14 0)
    else if o = 0x108 then rwBits (bits 9 0)
    else if o = 0x10C then rwBits (bits 14 0 + bits 30 16)
    else if o = 0x110 ∨ o = 0x114 then rwBits (bits 16 0)
    else if o = 0x118 then rwBits (bits 13 0)
    else if o = 0x11C then rwBits (bits 31 0)
    else if o = 0x120 then roBits (bits 17 0)
    else Fields.none
  | .hif =>
    if o = 0x040 then roBits (bits 8 0)
    else if 0x080 ≤ o ∧ o < 0x100 then
      (if o % 16 = 0 then rwBits (bits 31 12) else if o % 16 = 4 then rwBits (bits 31 0)
       else if o % 16 = 8 then { rwBits (bits 27 0 + bits 31 31) with rws := bits 30 30 } else Fields.none)
    else if o = 0x100 then rwBits (bits 31 12)
    else if o = 0x104 then rwBits (bits 31 0)
    else if o = 0x108 then rwBits (bits 3 0)
    else if o = 0x10C then roBits (bits 11 0)
    else if o = 0x120 ∨ o = 0x124 then rwBits (bits 31 0)
    else Fields.none
  | .rgs =>
    if o = 0x040 then rwBits (bits 26 0)
    else if o = 0x044 then { roBits (bits 18 8) with wo := bits 7 0 }
    else if o = 0x048 then roBits (bits 2 0 + bits 16 8)
    else if o = 0x04C then roBits (bits 31 0)
    else if o = 0x050 then roBits (bits 31 0)
    else if o = 0x054 then { Fields.none with wo := bits 1 0 }
    else if o = 0x058 then roBits (bits 15 0 + bits 27 16 + bits 31 31)
    else if o = 0x05C ∨ o = 0x064 ∨ o = 0x068 ∨ o = 0x070 ∨ o = 0x0C0 then roBits (bits 31 0)
    else if o = 0x060 then roBits (bits 16 0)
    else if o = 0x06C then roBits (bits 20 0)
    else if o = 0x0C4 ∨ o = 0x0C8 then roBits (bits 5 0 + bits 13 8 + bits 21 16 + bits 29 24)
    else if o = 0x0CC then roBits (bits 23 0 + bits 31 31)
    else Fields.none
  | .cpw =>
    if o = 0x040 then roBits (bits 10 0)
    else if o = 0x044 then roBits (bits 11 0)
    else if o = 0x048 then rwBits (bits 8 0)
    else if o = 0x04C then { rwBits (bits 11 0) with ro := bits 27 16 }
    else if o = 0x050 then roBits (bits 31 0)
    else if o = 0x054 then roBits (bits 12 0 + bits 23 16)
    else if o = 0x058 then roBits (bits 2 0 + bits 31 8)
    else if o = 0x05C then { Fields.none with wo := bits 31 31 }
    else Fields.none
  | .tim =>
    if o = 0x040 ∨ o = 0x050 then roBits (bits 31 0)
    else if o = 0x044 then roBits (bits 29 0)
    else if o = 0x048 then rwBits (bits 31 0)
    else if o = 0x04C then rwBits (bits 29 0)
    else Fields.none
  | .sec =>
    if o = 0x040 then roBits (bits 8 0)
    else if o = 0x044 then { Fields.none with rws := bits 7 0 }
    else if 0x048 ≤ o ∧ o ≤ 0x058 then roBits (bits 31 0)
    else Fields.none

/-- The fields of a register by its page and offset in it. -/
def fieldsOf (b : Block) (n o : Nat) : Fields :=
  if o % 4 ≠ 0 then Fields.none else if o < 0x040 then headerFields b n o else blockFields b n o

/-- Bits of a word under a mask. -/
def maskOf (w : Word) (m : Nat) : Word := w &&& BitVec.ofNat 32 m

/-- A word whose masked bits come from another. -/
def mergeBits (old new : Word) (m : Nat) : Word := maskOf old (bits 31 0 - m) ||| maskOf new m

/-- The defined range of a field, where it is narrower than the field (R13): LOG2N, DEPTH, CAP, slot size, ledger formats,
catalogue size, LND_CMD.OP, route index, worker IDs (R5), manager number, TIM_STEP_NS. -/
def valueInRange (b : Block) (o : Nat) (w : Word) : Bool :=
  match b with
  | .hif => if o = 0x108 then decide (4 ≤ fld w 0 4 ∧ fld w 0 4 ≤ 12) else true
  | .cen => if o = 0x040 then decide (fld w 20 4 = 0 ∨ 4 ≤ fld w 20 4) else true
  | .cpw => if o = 0x04C then decide (1000 ≤ fld w 0 12 ∧ fld w 0 12 ≤ 2500) else true
  | .mct =>
    if 0x100 ≤ o ∧ o < 0x200 then
      [0, 2, 6, 7, 13].contains (fld w 0 4) && decide (fld w 4 8 ≤ 254) && decide (fld w 15 3 ≤ 6)
    else true
  | .lnd =>
    if o = 0x040 then decide (fld w 16 10 ≤ 512) else if o = 0x04C then fld w 19 2 != 3 else true
  | .lnk =>
    if o = 0x118 then decide (fld w 0 14 ≤ 15258) else if o = 0x104 then decide (fld w 0 15 ≤ 0x40FF)
    else if o = 0x100 then decide (fld w 16 8 < 160) && decide (fld w 0 14 < 10000)
    else if o = 0x10C then decide (fld w 0 14 < 10000) && decide (fld w 16 14 < 10000) else true
  | .tim => if o = 0x04C then decide (fld w 0 30 < 1000000000) else true
  | _ => true

/-! ### SEAL (R382, R461) -/

/-- Registers whose fields the SEAL leaves out: MCT_ECC, LNK_ERR, LNK_RT_ADDR, LNK_RT_DATA, LND_CMD, HIF_ERR, HIF_HOSTUE. -/
def unsealedReg (b : Block) (o : Nat) : Bool :=
  match b with
  | .mct => o == 0x040
  | .lnk => o == 0x040 || o == 0x104 || o == 0x108
  | .lnd => o == 0x04C
  | .hif => o == 0x120 || o == 0x124
  | _ => false

/-- The configuration bits of a register. -/
def configBits (b : Block) (n o : Nat) : Nat :=
  if unsealedReg b o then 0 else (blockFields b n o).rw + (blockFields b n o).rws

/-- The bytes that the SEAL of a page covers. -/
def sealBytes (s : State) (b : Block) (n : Nat) : List Byte :=
  (List.range 1024).flatMap fun i =>
    let o := 4 * i
    if o < 0x040 ∨ configBits b n o = 0 then [] else natLe 4 (maskOf (regRaw s (b.reg n o)) (configBits b n o)).toNat

/-- Whether a page is sealed. -/
def pageSealed (s : State) (b : Block) (n : Nat) : Bool := regRaw s (b.reg n oSEAL) == crc32c (sealBytes s b n)

/-- The pages of the folio's PAGES bits: LND, CEN, MCT0 to MCT9, LNK0 (R380). -/
def pagesBit (i : Nat) : Block × Nat :=
  if i = 0 then (.lnd, 0) else if i = 1 then (.cen, 0) else if i ≤ 11 then (.mct, i - 2) else (.lnk, 0)

/-! ### Block status (R396, R462) -/

/-- Whether a block holds accepted work (R462). A granted flit is on its way, and a port holds no other work. -/
def hasWork (s : State) (b : Block) (n : Nat) : Bool :=
  match b with
  | .mct =>
    let c := s.ctl n
    !c.reads.isEmpty || !c.groups.isEmpty || c.cache.any (·.dirty)
  | .lnd => s.lend.cmd.isSome || !s.lend.started.isEmpty || !s.lend.loans.isEmpty
  | .rdr => (s.room n).banks.any fun p => !p.2.accs.isEmpty || !p.2.held.isEmpty
  | .lnk => false
  | .hif => s.host.dma.busy || !s.host.lines.isEmpty
  | .rgs => s.dev == .accession
  | _ => false

/-! ### Worlds of pages (R419, R420, R424) -/

/-- Whether a page belongs to the secure world. -/
def pageSecure (s : State) (page : Nat) : Bool := regFld s (page * 0x1000 + oWORLD) 0 1 == 1

/-- A TIL page whose site holds no logical tile drops writes, and shows what it shows in either world (R60, R421). -/
def unusedPage (s : State) (b : Block) (n : Nat) : Bool := b == .til && (logicalAt s.fuse n).isNone

/-- Whether a page number is such a page. -/
def unusedAt (s : State) (page : Nat) : Bool := match pageBlock page with | some (b, n) => unusedPage s b n | none => false

/-! ### What registers read as -/

/-- RGS_STATE codes (R398, R452). -/
def DevState.code (d : DevState) : Nat :=
  match d with
  | .sleep => 0 | .accession => 1 | .hold => 2 | .armed => 3 | .run => 4 | .drain => 5 | .faulted => 6 | .boot => 7

/-- Entries pending (R374): those in the queue, and the current one. -/
def pendingEntries (s : State) : List Nat := s.rgs.queue ++ (match s.rgs.cur with | some i => [i] | none => [])

/-- The five words of a log entry (R437). -/
def XEnt.word (e : XEnt) (k : Nat) : Word :=
  match k with
  | 0 => BitVec.ofNat 32 (1 + e.source * 2 + (if e.write then 2 ^ 4 else 0) + (if e.adopt then 2 ^ 5 else 0)
      + e.entry * 2 ^ 8 + e.lost * 2 ^ 16)
  | 1 => BitVec.ofNat 32 e.addr
  | 2 => BitVec.ofNat 32 (e.addr / 2 ^ 32 % 2 ^ 9)
  | 3 => BitVec.ofNat 32 e.sec
  | _ => BitVec.ofNat 32 e.ns

/-- TIL_STAT (R61). -/
def tilStat (s : State) (x : Site) : Nat :=
  let drained := (regRaw s (Block.til.reg x oSTAT)).toNat % 2
  let rep := if SMap.get 32 s.fuse.bypass x < 32 then 2 ^ 4 else 0
  match logicalAt s.fuse x with
  | some _ => drained + (s.tile x).statWord + rep
  | none => 2 ^ 8 + rep

/-- The banks of a room, as RDR_BANKPWR shows them (R304). -/
def bankPower (r : Room) : Nat :=
  (List.range 16).foldl (fun a b =>
    match (r.bank b).st with
    | .gated => a
    | .waking _ => a + 2 ^ (16 + b)
    | .gating _ _ => a + 2 ^ b + (if (r.bank b).accs.any (·.write) then 2 ^ (16 + b) else 0)
    | .powered => a + 2 ^ b
    | .stuck => a + 2 ^ b) 0

/-- Whether the running job's clock runs in a half. -/
def halfRuns (s : State) (east : Bool) : Bool :=
  match s.rgs.job with
  | some j => s.clockOn && (if east then (halvesOf s.fuse j.base j.groups).2 else (halvesOf s.fuse j.base j.groups).1)
  | none => false

/-- ASYNC_FUSE and the reduced bits of XNW_SEAM (R266, R447). -/
def seamWord (s : State) : Nat :=
  regFld s rXNW_SEAM 0 1 + (if s.fuse.asyncSeam then 2 else 0) + regFld s rXNW_SEAM 2 1 * 4
    + (if regFld s rCPW_FREQ 3 3 = 0 then 0 else 8) + (if regFld s rCPW_FREQ 9 3 = 0 then 0 else 16)

/-- A register that shows a part of the state beside the stored words; none where the stored word is what is read. -/
def liveReg (s : State) (b : Block) (n o : Nat) : Option Nat :=
  if o = 0x000 then some (b.type + n * 2 ^ 8 + 0x54 * 2 ^ 24)
  else if o = 0x004 then
    some (1 + (if s.fuse.b0 then 1 else 0) * 2 ^ 8 + (if s.fuse.b0 then 2 else 1) * 2 ^ 12 + (if b = .glb then s.fuse.grade * 2 ^ 16 else 0))
  else if o = 0x018 then some 0
  else match b with
  | .glb =>
    if o = 0x040 then
      let g := groupCount s.fuse
      some (64 * g + g * 2 ^ 12 + gradeN s.fuse.grade * 2 ^ 18 + (if s.mgrRole then 2 ^ 24 else 0))
    else if 0x0B0 ≤ o ∧ o ≤ 0x0C0 then some (match s.keeper.xlog with | e :: _ => (e.word ((o - 0x0B0) / 4)).toNat | [] => 0)
    else if o = 0x0D0 then
      some (s.keeper.kfwSlot + s.keeper.dfwSlot * 4 + regFld s rGLB_BOOT 4 4 * 16 + (if s.keeper.recovering then 256 else 0))
    else none
  | .til =>
    if o = oSTAT then some (tilStat s n)
    else if o = 0x040 then some (n + siteHalf n * 2 ^ 12 + siteCol n * 2 ^ 13 + siteRow n * 2 ^ 18)
    else if o = 0x044 then
      some (match logicalAt s.fuse n with
        | some t => t + groupOf t * 2 ^ 12 + (if isSeamGroup s.fuse (groupOf t) then 2 ^ 18 else 0)
        | none => 0xFFF + 0x3F * 2 ^ 12)
    else if o = 0x048 then some (colSkip s.fuse (siteHalf n) (siteCol n) + SMap.get 32 s.fuse.bypass n * 2 ^ 6)
    else if logicalAt s.fuse n = none then some 0
    else if o = 0x04C then some (s.tile n).ifault.toNat
    else if o = 0x050 then some (s.tile n).wfault.toNat
    else if o = 0x054 then some (s.tile n).wdrop.toNat
    else none
  | .rdr => if o = 0x040 then some (bankPower (s.room n)) else none
  | .xnw => if o = 0x040 then some (seamWord s) else none
  | .cen =>
    if o = 0x048 then some (regFld s rCEN_STAT 0 2 + (if s.cen.snaps.isEmpty || regFld s rCEN_TABLE 20 4 == 0 then 0 else 4)) else none
  | .lnk => if n = 0 ∧ o = 0x100 then some (((regRaw s rLNK_WID).toNat &&& (bits 31 0 - bits 15 15)) + (if s.mgrRole then 2 ^ 15 else 0))
    else if n = 0 ∧ o = 0x108 then some (SMap.get 0 s.route (regFld s rLNK_RT_ADDR 0 15)).toNat
    else none
  | .hif =>
    if o = 0x040 then
      some (s.host.mode + s.host.width * 2 ^ 3 + (if hostTier s then 2 ^ 7 else 0)
        + (if s.host.hdm && s.host.memEn && decide (1 ≤ s.host.mode ∧ s.host.mode ≤ 3) then 2 ^ 8 else 0))
    else none
  | .rgs =>
    if o = 0x044 then some (regFld s rRGS_SUBMIT 8 2 * 2 ^ 8 + (pendingEntries s).length * 2 ^ 10)
    else if o = 0x048 then some (s.dev.code + (s.rgs.cur.getD 0) * 2 ^ 8 + (if debugJob s then 2 ^ 16 else 0))
    else none
  | .cpw =>
    if o = 0x040 then some (if s.dev = .faulted then (putFld (regRaw s rCPW_DSTATE) 0 2 1).toNat else (regRaw s rCPW_DSTATE).toNat)
    else if o = 0x044 then
      some ((if halfRuns s false then jobStep s else 0) + regFld s rCPW_FREQ 3 3 * 2 ^ 3
        + (if halfRuns s true then jobStep s else 0) * 2 ^ 6 + regFld s rCPW_FREQ 9 3 * 2 ^ 9)
    else none
  | .tim =>
    if o = 0x040 then some s.chron.sec else if o = 0x044 then some s.chron.latched else none
  | .sec =>
    if o = 0x040 then some (s.keeper.secHead + (if s.keeper.secWrapped then 2 ^ 8 else 0))
    else if 0x048 ≤ o ∧ o ≤ 0x058 then
      some (match SMap.find s.keeper.seclog (regFld s rSEC_LOGIDX 0 8) with | some e => (e.word ((o - 0x048) / 4)).toNat | none => 0)
    else none
  | _ => none

/-- First offsets of the MSI-X table and of the PBA in BAR0 (R405, R456). -/
def msixTable : Nat := 0x4008000
/-- The PBA. -/
def msixPba : Nat := 0x4009000

/-- Whether an offset lies in the MSI-X table or in the PBA: 64 entries of 16 B, and 64 bits. -/
def inMsix (off : Nat) : Bool := decide (msixTable ≤ off ∧ off < msixTable + 0x400) || decide (msixPba ≤ off ∧ off < msixPba + 8)

/-- A word of the MSI-X table, whose entries end in the mask bit of their vector, or of the PBA (R405, R413). -/
def msixWord (s : State) (off : Nat) : Word :=
  if msixPba ≤ off then
    BitVec.ofNat 32 ((List.range 32).foldl (fun a i => a + if SMap.get false s.host.pba (8 * (off - msixPba) + i) then 2 ^ i else 0) 0)
  else if off % 16 = 12 then (if SMap.get true s.host.mask ((off - msixTable) / 16) then 1 else 0)
  else regRaw s off

/-- What an aligned read of a BAR0 offset gives a secure actor (R457 to R459): a hole and a reserved offset read 0. -/
def regRead (s : State) (off : Nat) : Word :=
  if inMsix off then msixWord s off
  else match pageBlock (off / 0x1000) with
  | none => 0
  | some (b, n) =>
    let o := off % 0x1000
    let f := fieldsOf b n o
    let w : Word := match liveReg s b n o with | some v => BitVec.ofNat 32 v | none => regRaw s off
    maskOf w (f.rw + f.rws + f.ro + f.w1c)

/-- What it gives the non-secure host: 0 on a secure page (R424), and in BOOT everywhere but on the GLB page and in the MSI-X tables
(R453). -/
def hostRegRead (s : State) (off : Nat) : Word :=
  if (pageSecure s (off / 0x1000) && !unusedAt s (off / 0x1000)) || (s.dev == .boot && off / 0x1000 != 0 && !inMsix off) then 0
  else regRead s off

end Sys2Proof.Machine
end

