-- ==== Sys2Proof/Machine/Accession.lean ====
section
/-! DEFINITION. Accession: the circulation entry (R373), the folio header (R380), the checks in the order of R381, and
placement (R385, R386). A check gives the DETAIL of its failure, or none where it passes. -/

namespace Sys2Proof.Machine

/-! ### The entry and the header -/

/-- What accession reads of a circulation entry (R373). -/
structure Circ where
  secure : Bool
  relayed : Bool
  folio : Nat
  units : Nat
  deadline : Nat
  deriving DecidableEq, Repr

/-- Entry i of the circulation table. -/
def circEntry (s : State) (i : Nat) : Circ :=
  let w (k : Nat) : Word := gddrWord s (circAddr s i + 4 * k)
  { secure := bit (w 1) 0, relayed := bit (w 1) 1, folio := ((w 2).toNat + (w 3).toNat * 2 ^ 32) % 2 ^ 41 / 256 * 256,
    units := (w 4).toNat + 1, deadline := (w 6).toNat }

/-- Fields of the folio header (R380). -/
structure Header where
  secure : Bool
  debug : Bool
  debugStop : Bool
  span : Bool
  seamAsync : Bool
  grade : Nat
  fprint : Nat
  groups : Nat
  pbase : Nat
  bellTo : Nat
  hf : Nat
  seed : Word
  pages : Word
  deriving DecidableEq, Repr

/-- The header of the folio at an address. -/
def readHeader (s : State) (f : Nat) : Header :=
  let w (k : Nat) : Word := folioWord s f k
  { secure := bit (w 1) 8, debug := bit (w 1) 9, debugStop := bit (w 1) 10, span := bit (w 1) 11, seamAsync := bit (w 1) 12,
    grade := fld (w 1) 13 2, fprint := fld (w 2) 0 8, groups := fld (w 3) 0 5 + 1, pbase := fld (w 3) 8 5,
    bellTo := fld (w 4) 0 16, hf := fld (w 5) 0 16, seed := w 6, pages := w 7 }

/-- The bits that each header word may have set; words 16 to 29 are the sections' (R380). -/
def headerBits (k : Nat) : Nat :=
  match k with
  | 0 => bits 31 0 | 1 => bits 14 0 | 2 => bits 7 0 | 3 => bits 4 0 + bits 12 8 | 4 => bits 15 0 | 5 => bits 15 0
  | 6 => bits 31 0 | 7 => bits 12 0 | 8 => bits 5 0 + bits 13 8 + bits 21 16 + bits 29 24
  | 9 => bits 5 0 + bits 13 8 + bits 21 16 + bits 29 24 | 63 => bits 31 0
  | _ => if 16 ≤ k ∧ k < 30 then bits 31 0 else 0

/-- Item size of a section, and its least and greatest count; `g` is the number of folio groups (R380). -/
def sectionShape (k g : Nat) : Nat × Nat × Nat :=
  match k with
  | 0 => (512, 64 * g, 64 * g)
  | 1 => (16, 1, 65536)
  | 2 => (32, 0, 65536)
  | 3 => (16, 0, 256)
  | 4 => (32, 0, 16)
  | 5 => (8, 0, 256)
  | _ => (128, 0, 1)

/-- FORMAT: whether header word k is wrong. -/
def badHeaderWord (s : State) (f size k : Nat) : Bool :=
  let w := folioWord s f k
  let g := (readHeader s f).groups
  if k = 0 then w != 0x464F4C31
  else if k = 1 then maskOf w (bits 31 0 - headerBits 1) != 0 || fld w 0 8 != 1
  else if 16 ≤ k ∧ k < 30 then
    let sec := (k - 16) / 2
    let (item, lo, hi) := sectionShape sec g
    let (a, n) := sectionAt s f sec
    if k % 2 = 0 then decide (0 < n ∧ f + size < a + item * n) else decide (n < lo ∨ hi < n)
  else maskOf w (bits 31 0 - headerBits k) != 0

/-- An accession check: the entry's number, its record, and the outcome. -/
abbrev Check := State → Nat → Circ → Option Nat

/-- 0x01 ROLE. -/
def checkRole : Check := fun s _ _ => if s.mgrRole then some 0 else none

/-- 0x02 FORMAT; the folio must hold its own header. -/
def checkFormat : Check := fun s _ c => (List.range 64).find? (badHeaderWord s c.folio (256 * c.units))

/-- The image of a folio. -/
def folioImage (s : State) (c : Circ) : List Byte := s.gddr.read c.folio (256 * c.units)

/-- 0x03 CHECKSUM. DESIGN CHOICE: a folio with an uncorrectable unit does not pass it (log entry 128). -/
def checkCrc : Check := fun s _ c =>
  let img := folioImage s c
  if (touchedUnits c.folio (256 * c.units)).any (unitBad s) then some 0
  else if folioWord s c.folio 63 = crc32c (splice img 252 [0, 0, 0, 0]) then none else some 0

/-- 0x04 DIGEST. -/
def checkDigest : Check := fun s i c =>
  if !(readHeader s c.folio).secure then none
  else if SMap.find s.keeper.digests i = some (sha384 (folioImage s c)) then none else some 0

/-- 0x05 WORLD: one world; then the folio's region, then the entry's. -/
def checkWorld : Check := fun s i c =>
  let h := readHeader s c.folio
  let a := circAddr s i
  let fr := regionAt s c.folio
  let cr := regionAt s a
  let other (r : Option (Nat × Region)) : Bool := match r with | some (_, r) => r.secure != c.secure | none => false
  let inside (r : Option (Nat × Region)) (lo n : Nat) : Bool :=
    match r with
    | some (_, r) => kindOf r.kind == .system && decide (lo + n ≤ (r.last + 1) * regionUnit) && decide (lo + n ≤ gddrEnd)
    | none => false
  if h.secure != c.secure || other fr || other cr then some 0
  else if !inside fr c.folio (256 * c.units) then some 1
  else if !inside cr a 64 then some 2
  else none

/-- 0x06 UNSEALED. -/
def checkSealed : Check := fun s _ c =>
  (List.range 13).find? fun i => bit (readHeader s c.folio).pages i && !pageSealed s (pagesBit i).1 (pagesBit i).2

/-- 0x07 GRADE. -/
def checkGrade : Check := fun s _ c => if (readHeader s c.folio).grade = s.fuse.grade then none else some 0

/-- 0x08 STEPPING (R383). -/
def checkStepping : Check := fun s _ c =>
  let p := (readHeader s c.folio).fprint
  if p = 3 ∨ p = (if s.fuse.b0 then 2 else 1) then none else some p

/-- 0x09 SEAM (R262). -/
def checkSeam : Check := fun s _ c =>
  let h := readHeader s c.folio
  if h.span && !h.seamAsync && s.fuse.asyncSeam then some 0 else none

/-! ### Residency declarations (R240) -/

/-- A declaration of the folio. -/
structure ResDecl where
  key : Nat
  mask : Word
  base : Nat
  bound : Nat
  card : Nat
  deriving DecidableEq, Repr

/-- Declaration n of a folio (R380). -/
def resDecl (s : State) (f n : Nat) : ResDecl :=
  let w (k : Nat) : Word := itemWord s f 4 32 n k
  { key := (w 0).toNat + fld (w 1) 0 16 * 2 ^ 32, mask := w 2, base := fld (w 3) 0 16, bound := fld (w 3) 16 16, card := fld (w 4) 0 19 }

/-- Number of declarations. -/
def resCount (s : State) (f : Nat) : Nat := (sectionAt s f 4).2

/-- The folio groups of a declaration, in ascending order. -/
def ResDecl.groups (d : ResDecl) : List Nat := (List.range 32).filter fun g => bit d.mask g

/-- What a placement at base b would retain of a declaration: its groups by their place in the set (R241). -/
def ResDecl.at (d : ResDecl) (secure : Bool) (b : Nat) : Resid :=
  { key := d.key, secure := secure, base := d.base, bound := d.bound, groups := d.groups.zipIdx.map fun (g, i) => (i, b + g) }

/-- Whether two residencies are of one key, world and range. -/
def Resid.same (a b : Resid) : Bool := a.key == b.key && a.secure == b.secure && a.base == b.base && a.bound == b.bound

/-- Whether retained data matches a declaration's group (R241). -/
def residMatches (s : State) (want : Resid) (p : Nat × Nat) : Bool := s.rgs.resid.any fun r => r.same want && r.groups.contains p

/-! ### Placement -/

/-- Whether a device group holds a fenced tile. -/
def groupFenced (s : State) (g : Nat) : Bool := (groupSites s.fuse g).any fun x => (s.tile x).pwr == .fenced

/-- Whether a base is legal (R385). -/
def legalBase (s : State) (h : Header) (b : Nat) : Bool :=
  let (w, e) := halvesOf s.fuse b h.groups
  decide (b + h.groups ≤ groupCount s.fuse) && (if h.span then b == h.pbase && w && e else !(w && e))
    && (List.range h.groups).all fun f => !groupFenced s (b + f)

/-- What a base is worth (R386): declarations matched, and retained groups that it covers without matching. -/
def baseWorth (s : State) (c : Circ) (b : Nat) : Nat × Nat :=
  let h := readHeader s c.folio
  let wants := (List.range (resCount s c.folio)).map fun n => (resDecl s c.folio n).at h.secure b
  let matched := wants.countP fun d => d.groups.all (residMatches s d)
  let hurt := (List.range h.groups).countP fun f =>
    s.rgs.resid.any fun r => r.groups.any fun p => p.2 == b + f && !wants.any fun d => d.same r && d.groups.contains p
  (matched, hurt)

/-- The better of two bases: more matches, then fewer losses, then the lower. -/
def betterBase (s : State) (c : Circ) (best : Option Nat) (b : Nat) : Option Nat :=
  match best with
  | none => some b
  | some a =>
    let (ma, ha) := baseWorth s c a
    let (mb, hb) := baseWorth s c b
    if ma < mb ∨ (ma = mb ∧ hb < ha) then some b else some a

/-- The base that the Registrar chooses (R385, R386). -/
def chooseBase (s : State) (c : Circ) : Option Nat :=
  ((List.range 32).filter (legalBase s (readHeader s c.folio))).foldl (betterBase s c) none

/-- 0x0A PLACEMENT. -/
def checkPlacement : Check := fun s _ c => if (chooseBase s c).isSome then none else some 0

/-! ### References -/

/-- Whether the windows of tile record t reach beyond tile memory. -/
def badWindows (s : State) (f t : Nat) : Bool :=
  (List.range 8).any fun i =>
    let w := itemWord s f 0 512 t (1 + i)
    fld w 0 16 != fld w 16 16 && decide (0xE000 < Nat.max (fld w 0 16) (fld w 16 16))

/-- A run of a tile's image: tile address, bytes, folio offset. -/
def tileRun (s : State) (f t r : Nat) : Nat × Nat × Nat :=
  let a := f + 256 * (itemWord s f 0 512 t 74).toNat + 16 * r
  (fld (gddrWord s a) 5 16 * 32, 32 * ((gddrWord s (a + 4)).toNat + 1), 32 * (gddrWord s (a + 8)).toNat)

/-- Runs of a tile. -/
def runCount (s : State) (f t : Nat) : Nat := (itemWord s f 0 512 t 73).toNat

/-- Whether a tile record names something outside the folio or tile memory. -/
def badTile (s : State) (f size t : Nat) : Bool :=
  badWindows s f t
    || (decide (0 < runCount s f t) && decide (size < 256 * (itemWord s f 0 512 t 74).toNat + 16 * runCount s f t))
    || (List.range (runCount s f t)).any fun r =>
        let (a, n, o) := tileRun s f t r
        decide (0x1C0000 < a + n) || decide (size < o + n)

/-- Whether stream declaration n names a folio tile outside the folio; the source counts where it is this worker's. -/
def badStream (s : State) (f g n : Nat) : Bool :=
  let w1 := itemWord s f 5 8 n 1
  decide (64 * g ≤ fld (itemWord s f 5 8 n 0) 0 11) || (fld w1 0 14 == ownWid s && decide (64 * g ≤ fld w1 14 11))

/-- 0x0B XREF: the lowest failing section and, in it, item. -/
def checkXref : Check := fun s _ c =>
  let f := c.folio
  let g := (readHeader s f).groups
  let tile := (List.range (64 * g)).find? (badTile s f (256 * c.units))
  let resid := ((List.range (resCount s f)).find? fun n => (resDecl s f n).groups.any fun k => decide (g ≤ k)).map fun n => 4 * 2 ^ 13 + n
  let stream := ((List.range (sectionAt s f 5).2).find? (badStream s f g)).map fun n => 5 * 2 ^ 13 + n
  tile.orElse fun _ => resid.orElse fun _ => stream

/-- A card as accession reads it: one that it cannot read is no valid card (R285; log entry 128). -/
def checkedCard (s : State) (i : Nat) : List Word := if unitBad s (cardAddr s i / 256) then [] else cardWords s i

/-- Whether schedule entry n is refused (R288). -/
def badEntry (s : State) (c : Circ) (n : Nat) : Bool :=
  let h := readHeader s c.folio
  let e := schedEntry s c.folio n
  let order := decide (0 < n) && decide (e.start < (schedEntry s c.folio (n - 1)).start)
  let i := fld e.word2 0 19
  let card := decodeCard (checkedCard s i)
  let span := if e.dest = 2 ∧ !e.bcast then e.nt * e.pt else e.pt
  let loan := e.ty == 0 && (decide (catalogSize s ≤ i) || !card.valid || card.secure != h.secure
    || !(card.gpresent || card.hvalid) || (e.dest != 0 && decide (card.size < e.srcoff + span)) || (e.src && !card.rvalid)
    || (e.dest == 2 && decide (64 * h.groups < e.t0 + e.nt)))
  order || e.resv || loan

/-- 0x0C SCHEDULE. -/
def checkSchedule : Check := fun s _ c => (List.range (sectionAt s c.folio 2).2).find? (badEntry s c)

/-- Whether two declarations share a group and a byte. -/
def ResDecl.overlaps (a b : ResDecl) : Bool := (a.mask &&& b.mask) != 0 && decide (Nat.max a.base b.base < Nat.min a.bound b.bound)

/-- Whether declaration n is refused (R240). -/
def badDecl (s : State) (c : Circ) (n : Nat) : Bool :=
  let d := resDecl s c.folio n
  let before := (List.range n).map (resDecl s c.folio)
  let card := decodeCard (checkedCard s d.card)
  decide (d.bound ≤ d.base) || decide (0xE000 < d.bound) || decide (catalogSize s ≤ d.card) || !card.valid
    || card.secure != (readHeader s c.folio).secure || !(card.gpresent || card.hvalid)
    || decide (card.size < (d.bound - d.base) * (64 * d.groups.length))
    || before.any d.overlaps || d.groups.any fun g => decide (4 ≤ before.countP fun b => bit b.mask g)

/-- 0x0D RESIDENCY. -/
def checkResidency : Check := fun s _ c =>
  if 16 < resCount s c.folio then some 16 else (List.range (resCount s c.folio)).find? (badDecl s c)

/-- Counter n of a tile record: allotment, binding (R380). -/
def tileSlip (s : State) (f t n : Nat) : Nat × Nat :=
  let w := itemWord s f 0 512 t (9 + n)
  (fld w 0 8, fld w 8 16)

/-- Whether a tile's call slips are refused (R239). -/
def badSlips (s : State) (f t : Nat) : Bool :=
  let all := (List.range 64).map fun n => (n, tileSlip s f t n)
  let codes := (all.filter fun p => decide (16 ≤ p.1) && namesSource p.2.2).map fun p => p.2.2
  decide (128 < all.foldl (fun a p => a + p.2.1) 0) || codes.eraseDups.length != codes.length

/-- 0x0E SLIPS. -/
def checkSlips : Check := fun s _ c => (List.range (64 * (readHeader s c.folio).groups)).find? (badSlips s c.folio)

/-- Whether micro-step entry n is refused (R322, R334). -/
def badMicrostep (s : State) (f n : Nat) : Bool :=
  let e := mapEntry s f n
  let p := mapEntry s f (n - 1)
  (decide (0 < n) && decide (e.start < p.start + p.p * p.c)) || fld (itemWord s f 3 16 n 2) 1 31 != 0
    || (if e.eval then e.c != 1 || e.bound == 0 else e.bound != 0)

/-- 0x0F MICROSTEP. -/
def checkMicrostep : Check := fun s _ c => (List.range (sectionAt s c.folio 3).2).find? (badMicrostep s c.folio)

/-- 0x10 CENSUS (R332). -/
def checkCensus : Check := fun s _ c =>
  if cenDepth s = 0 then none
  else
    let a := regFld s rCEN_TABLE 0 20 * 0x200000
    match regionAt s a with
    | some (_, r) =>
      if kindOf r.kind == .system && r.secure == c.secure && decide (a + 2 ^ cenDepth s * 2048 ≤ (r.last + 1) * regionUnit) then none
      else some 0
    | none => some 0

/-- 0x11 BELL. -/
def checkBell : Check := fun s _ c => if (readHeader s c.folio).bellTo = 0 then some 0 else none

/-- Whether BOUNDS entry n overlaps the one before it, is out of order, or has a Bk of 0. -/
def badBound (s : State) (f n : Nat) : Bool :=
  let first (k : Nat) : Nat := (itemWord s f 1 16 k 0).toNat
  (decide (0 < n) && decide (first n < first (n - 1) + (itemWord s f 1 16 (n - 1) 1).toNat + 1)) || itemWord s f 1 16 n 2 == 0

/-- 0x12 BOUNDS. -/
def checkBounds : Check := fun s _ c => (List.range (sectionAt s c.folio 1).2).find? (badBound s c.folio)

/-- 0x13 HOP_BOUND (R350): the first worker of the job whose route is too long. -/
def checkHops : Check := fun s _ c =>
  (s.rgs.hops.find? fun p => decide ((readHeader s c.folio).hf < p.2)).map (·.1)

/-- The checks before the wait of R263, and after it, with their reason codes, in order (R381). -/
def earlyChecks : List (Nat × Check) :=
  [(1, checkRole), (2, checkFormat), (3, checkCrc), (4, checkDigest), (5, checkWorld), (6, checkSealed), (7, checkGrade),
   (8, checkStepping), (9, checkSeam)]

/-- The checks from PLACEMENT on. -/
def lateChecks : List (Nat × Check) :=
  [(0x0A, checkPlacement), (0x0B, checkXref), (0x0C, checkSchedule), (0x0D, checkResidency), (0x0E, checkSlips),
   (0x0F, checkMicrostep), (0x10, checkCensus), (0x11, checkBell), (0x12, checkBounds), (0x13, checkHops)]

/-- The first check that fails: reason and detail. -/
def firstFailure (s : State) (i : Nat) (c : Circ) : List (Nat × Check) → Option (Nat × Nat)
  | [] => none
  | (r, k) :: rest => match k s i c with
    | some d => some (r, d)
    | none => firstFailure s i c rest

end Sys2Proof.Machine
end

