-- ==== Sys2Proof/Machine/Jobs.lean ====
section
/-! DEFINITION. The life of a job: submission (R374), HOLD actions (R376), accession's outcome (R381, R463), ARMED (R377,
R378), RUN, DRAIN (R379), job faults (R391 to R393). -/

namespace Sys2Proof.Machine

/-! ### Power states of the module (R444, R445) -/

/-- CPW_DSTATE.DSTATE: 0 D-SLEEP, 1 D-IDLE, 2 D-RUN. -/
def setDstate (s : State) (d : Nat) : State := setFld s rCPW_DSTATE 0 2 d

/-- A wake trigger: a device in D-SLEEP wakes to D-IDLE, and the self-refresh exit begins; the idle delay starts again (R445, R455). -/
def wake (s : State) : State :=
  if regFld s rCPW_DSTATE 0 2 = 0 then setFld (setDstate (stir s) 1) rCPW_DSTATE 2 1 1 else stir s

/-! ### Submission (R374) -/

/-- RGS_SUBMIT.RESULT. -/
def setResult (s : State) (r : Nat) : State := setFld s rRGS_SUBMIT 8 2 r

/-- The host submits entry i. -/
def submitEntry (s : State) (i : Nat) : State :=
  if s.dev = .boot then s
  else if s.devHold then setResult s 3
  else if 256 ≤ (pendingEntries s).length then setResult s 1
  else if (pendingEntries s).contains i then setResult s 2
  else
    let s1 := setStatus (wake (setResult s 0)) i 1 0 0
    { s1 with rgs := { s1.rgs with queue := s1.rgs.queue ++ [i] } }

/-- Whether a host access to the RGS page, or to a doorbell, reaches it; where the page is secure it is discarded and logged
(R405, R415, R424). -/
def hostReaches (s : State) : Bool := s.host.mode != 0 && s.host.mse && s.host.ready

/-- A non-secure host write to a page: discarded and logged where the page is secure (R424). -/
def hostPageWrite (s : State) (page : Nat) (f : State → State) : State :=
  if !hostReaches s || (s.dev == .boot && page != 0) then s
  else if pageSecure s page then xlogPage s .bar0 true (page * 0x1000)
  else f s

/-- RGS_SUBMIT (R374). -/
def execRgsSubmit (entry : BitVec 8) (s : State) : Host.Outcome State Fault Refusal :=
  .next (hostPageWrite s (Block.rgs.page 0) fun s => clearSeal (submitEntry s entry.toNat) (Block.rgs.page 0))

/-- The SUBMIT doorbell (R407). -/
def execSubmit (entry : BitVec 8) (s : State) : Host.Outcome State Fault Refusal :=
  .next (hostPageWrite s (Block.rgs.page 0) fun s => clearSeal (submitEntry s entry.toNat) (Block.rgs.page 0))

/-! ### HOLD (R376) -/

/-- The readies that are not of the current job: at its root those of other devices, elsewhere all but this device's own (R378). -/
def laterReadies (s : State) : List Nat :=
  s.rgs.readyFrom.filter fun w => if bellRoot s = ownWid s then !s.rgs.workers.contains w else w != ownWid s

/-- A job ends or is dropped: nothing of it is left in the Registrar, and the idle delay starts (R445). The readies of a job that has not run
go with it; those that have come since it ran are for a later one (R378). -/
def endJob (s : State) : State :=
  let early := if s.dev = .drain then s.rgs.readyFrom else laterReadies s
  { stir s with rgs := { s.rgs with
    cur := none, held := false, seamWait := false, job := none, arm := .idle, fenceArm := none, ref := none, workers := [], hops := [],
    readyFrom := early, arrivedFrom := [], arriveSent := false, lmax := 0, haltedAt := 0,
    relayed := match s.rgs.cur with | some i => SMap.del s.rgs.relayed i | none => s.rgs.relayed } }

/-- The current entry goes into ACCESSION (R375); of a relayed one its workers and hops are known (R353). -/
def beginAccession (s : State) (i : Nat) : State :=
  let r := if (circEntry s i).relayed then SMap.find s.rgs.relayed i else none
  let s1 := setStatus s i 2 0 0
  { s1 with dev := .accession, rgs := { s1.rgs with
    cur := some i, held := false, seamWait := false, job := none, ref := r.map fun r => (r.lead, r.job),
    workers := (r.map (·.workers)).getD [], hops := (r.map (·.hops)).getD [] } }

/-- RGS_HOLDACT = 1: accession runs again on the held entry. -/
def holdRetry (s : State) : State :=
  match s.dev, s.devHold, s.rgs.cur with
  | .hold, false, some i => beginAccession (wake s) i
  | _, _, _ => s

/-- RGS_HOLDACT = 2: the held entry is DISCARDED. -/
def holdDiscard (s : State) : State :=
  match s.dev, s.devHold, s.rgs.cur with
  | .hold, false, some i => { endJob (setStatus (wake s) i 10 0 0) with dev := .sleep }
  | _, _, _ => s

/-- RETRY (R376). -/
def execRetry (s : State) : Host.Outcome State Fault Refusal :=
  .next (hostPageWrite s (Block.rgs.page 0) fun s => clearSeal (holdRetry s) (Block.rgs.page 0))

/-- DISCARD (R376). -/
def execDiscard (s : State) : Host.Outcome State Fault Refusal :=
  .next (hostPageWrite s (Block.rgs.page 0) fun s => clearSeal (holdDiscard s) (Block.rgs.page 0))

/-! ### Accession -/

/-- The head of the queue leaves SUBMITTED, while the RGS block accepts work (R375, R462). -/
def takeEntry (s : State) : State :=
  match s.rgs.queue with
  | [] => s
  | i :: rest =>
    if s.dev == .sleep && accepts s (Block.rgs.page 0) && gddrAwake s then
      beginAccession { s with rgs := { s.rgs with queue := rest } } i
    else s

/-- ACCESSION_START (R375). -/
def execAccessionStart (s : State) : Host.Outcome State Fault Refusal := .next (takeEntry s)

/-- A failed check puts the entry in HOLD (R381, R398). -/
def holdEntry (s : State) (i reason detail : Nat) : State :=
  let s1 := setStatus s i 3 reason detail
  let w := reason % 2 ^ 8 + detail % 2 ^ 16 * 2 ^ 8 + i % 2 ^ 8 * 2 ^ 24
  let s2 := setReg s1 rRGS_HOLD (BitVec.ofNat 32 w)
  setIstat { s2 with dev := .hold, rgs := { s2.rgs with held := true } } (Block.rgs.page 0) 2

/-- The pages that a job uses (R463), in ascending order. -/
def jobPages (s : State) : List Nat :=
  let tils := (jobSites s).map Block.til.page
  let lnks := if jobSpans s then ((List.range 16).filter fun n => regFld s (rLNK_STAT n) 1 1 == 1).map Block.lnk.page else []
  tils ++ (List.range 10).map Block.mct.page ++ [Block.lnd.page 0] ++ (List.range 64).map Block.rdr.page
    ++ [Block.xnw.page 0, Block.cen.page 0] ++ lnks ++ [Block.hif.page 0, Block.rgs.page 0]

/-- The lowest disabled page that the job uses. -/
def disabledPage (s : State) : Option Nat :=
  match (jobPages s).filter fun p => !accepts s p with
  | [] => none
  | p :: ps => some (ps.foldl Nat.min p)

/-- A placed TIL page takes the world of the job, unless its SECURE is locked (R420, R421). -/
def claimPage (secure : Bool) (s : State) (x : Site) : State :=
  let off := Block.til.reg x oWORLD
  if regFld s off 1 1 = 1 then s else setFld s off 0 1 (if secure then 1 else 0)

/-- Retained data on placed groups that the job does not match is lost (R242). -/
def pruneResidents (s : State) (wants : List Resid) (placed : List Nat) : State :=
  let keep (r : Resid) (p : Nat × Nat) : Bool := !placed.contains p.2 || wants.any fun d => d.same r && d.groups.contains p
  let left := (s.rgs.resid.map fun r => { r with groups := r.groups.filter (keep r) }).filter fun r => !r.groups.isEmpty
  { s with rgs := { s.rgs with resid := left } }

/-- The current entry is accepted: placement, page worlds, the registers that ARMED clears, the disabled-block check, measurement
7 (R377, R385, R398, R421, R436, R463). -/
def armJob (s : State) (i : Nat) (c : Circ) (b : Nat) : State :=
  let h := readHeader s c.folio
  let j : Job := { entry := i, secure := c.secure, folio := c.folio, size := c.units, debug := h.debug, debugStop := h.debugStop,
                   span := h.span, seam := h.seamAsync, groups := h.groups, base := b, bellTo := h.bellTo, hf := h.hf, seed := h.seed,
                   deadline := c.deadline, pages := h.pages, nextLoan := 0 }
  let wants := (List.range (resCount s c.folio)).map fun n => (resDecl s c.folio n).at h.secure b
  let digest := if h.secure then sha384 (folioImage s c) else s.rgs.secureDigest
  let s1 := setStatus s i 4 0 0
  let s2 : State := { s1 with dev := .armed, rgs := { s1.rgs with
    job := some j, arm := .pll, armAt := s1.time, fault := none, declared := wants, secureDigest := digest, fenceArm := none } }
  let s3 := pruneResidents s2 wants ((List.range h.groups).map (b + ·))
  let s4 := (jobSites s3).foldl (claimPage c.secure) s3
  let s5 := [rRGS_FAULT, rRGS_FAULTK, rRGS_HAZARD, rRGS_HAZADDR, rRGS_HAZK, rRGS_OVERRUN, rRGS_OVK].foldl (fun s r => setReg s r 0) s4
  let s6 := if h.secure then { s5 with keeper := { s5.keeper with meas := SMap.put s5.keeper.meas 7 digest } } else s5
  match disabledPage s6 with
  | some p => raiseFault (setDstate s6 2) 0x18 p noSite
  | none => setDstate s6 2

/-- Whether either half's ceiling is above step 0 (R263, R447). -/
def halvesReduced (s : State) : Bool := regFld s rCPW_FREQ 3 3 != 0 || regFld s rCPW_FREQ 9 3 != 0

/-- The cards that the checks SCHEDULE and RESIDENCY read, in order, up to the item that fails (R240, R288, R381). -/
def cardsRead (s : State) (i : Nat) (c : Circ) : List Nat :=
  let upTo (r : Option Nat) (n : Nat) : List Nat := List.range (match r with | some k => Nat.min (k + 1) n | none => n)
  let loan (n : Nat) : Option Nat := let e := schedEntry s c.folio n; if e.ty = 0 then some (fld e.word2 0 19) else none
  if (firstFailure s i c (lateChecks.takeWhile fun k => decide (k.1 < 0x0C))).isSome then []
  else
    ((upTo (checkSchedule s i c) (sectionAt s c.folio 2).2).filterMap loan
      ++ (if (checkSchedule s i c).isSome then []
          else (upTo (checkResidency s i c) (resCount s c.folio)).map fun n => (resDecl s c.folio n).card)).filter
      fun k => decide (k < catalogSize s)

/-- The cards that the checks read are counted as read (R271). -/
def cardsFetched (s : State) (i : Nat) (c : Circ) : State :=
  (cardsRead s i c).foldl (fun s k => (bytesFetched s (cardAddr s k) 64).1) s

/-- The checks from PLACEMENT on, and the outcome. -/
def finishAccession (s0 : State) (i : Nat) (c : Circ) : State :=
  let s := cardsFetched s0 i c
  match firstFailure s i c lateChecks with
  | some (r, d) => holdEntry s i r d
  | none => match chooseBase s c with
    | some b => armJob s i c b
    | none => holdEntry s i 0x0A 0

/-- The entry and the folio are read, each unit in one access (R271, R297, R373, R381). -/
def folioFetched (s : State) (i : Nat) (c : Circ) : State := (bytesFetched (bytesFetched s (circAddr s i) 64).1 c.folio (256 * c.units)).1

/-- ACCESSION_DONE (R381): the checks in order; a spanning folio that finds a half reduced waits before PLACEMENT (R263). -/
def execAccessionDone (s : State) : Host.Outcome State Fault Refusal :=
  .next (match s.dev, s.rgs.seamWait, s.rgs.cur with
    | .accession, false, some i =>
      let c := circEntry s i
      let s := folioFetched s i c
      match firstFailure s i c earlyChecks with
      | some (r, d) => holdEntry s i r d
      | none =>
        if (readHeader s c.folio).span && halvesReduced s then { s with rgs := { s.rgs with seamWait := true } }
        else finishAccession s i c
    | _, _, _ => s)

/-- ACCESSION_RESUME (R263): both ceilings are at step 0, and a waiting folio goes on with PLACEMENT. -/
def execAccessionResume (s : State) : Host.Outcome State Fault Refusal :=
  .next (match s.dev, s.rgs.seamWait, s.rgs.cur with
    | .accession, true, some i =>
      if halvesReduced s then s else finishAccession { s with rgs := { s.rgs with seamWait := false } } i (circEntry s i)
    | _, _, _ => s)

/-! ### ARMED -/

/-- The quadrants that hold a physical column between the job's first and last (R441). -/
def jobQuadrants (s : State) : List Nat :=
  let cols := (jobSites s).map fun x => 32 * siteHalf x + siteCol x
  match cols with
  | [] => []
  | c :: cs =>
    let lo := cs.foldl Nat.min c
    let hi := cs.foldl Nat.max c
    (List.range 4).filter fun q => decide (lo / 16 ≤ q ∧ q ≤ hi / 16)

/-- QLOCK and QRUN (R454): the job's quadrants run; a PLL that a job before it left locked stays so (R441, R442). -/
def setQuadrants (s : State) (qs : List Nat) : State :=
  let m := qs.foldl (fun m q => m + 2 ^ q) 0
  setFld (setFld s rCPW_DSTATE 3 4 (regFld s rCPW_DSTATE 3 4 ||| m)) rCPW_DSTATE 7 4 m

/-- Microseconds to lock a quadrant PLL (R441). -/
def pllUs : Nat := 40

/-- QUADRANT_PLL_LOCK (R441, R442, R261): the PLLs lock, the core clock starts at a slow-clock edge, and a spanning job's bridges open. A
spanning job starts only while both ceilings are at step 0 (R263). -/
def execQuadrantPllLock (s : State) : Host.Outcome State Fault Refusal :=
  .next (match s.dev, s.rgs.arm, s.rgs.job with
    | .armed, .pll, some j =>
      if j.span && halvesReduced s then s
      else
      let locked := (jobQuadrants s).all fun q => regFld s rCPW_DSTATE (3 + q) 1 == 1
      let t := slowEdge (Nat.max s.time (s.rgs.armAt + (if locked then 0 else pllUs * usTicks)))
      let s1 := toTime s t
      let s2 := setQuadrants { s1 with clockOn := true, phase := 0, clockStart := s1.cycle, routers := [],
                                       rgs := { s1.rgs with arm := .ungate, armAt := t } } (jobQuadrants s)
      let s3 := setFld s2 rXNW_SEAM 2 1 (if j.span then 1 else 0)
      if j.span then setFld s3 rXNW_SEAM 0 1 (if s.fuse.asyncSeam then 1 else 0) else s3
    | _, _, _ => s)

/-- A tile as its record in the folio makes it at job start (R42, R61, R227, R235, R239, R243, R468); granules of an uncorrectable unit are
not written (R297). -/
def tileImage (s : State) (f : Nat) (debug : Bool) (t : Nat) (tile : Tile) : Tile :=
  let w (k : Nat) : Word := itemWord s f 0 512 t k
  let wins (m : SMap Window) (i : Nat) : SMap Window :=
    let b := fld (w (1 + i)) 0 16 * 32
    let e := fld (w (1 + i)) 16 16 * 32
    if b = e then m else SMap.set Window.closed m i { isOpen := true, base := b, bound := e }
  let slips (m : SMap Slip) (i : Nat) : SMap Slip :=
    let (a, code) := tileSlip s f t i
    SMap.set Slip.none m i { want := a, allot := a, flight := 0, bind := if 16 ≤ i then code else 0 }
  let runs := (List.range (runCount s f t)).foldl (fun m r =>
    let (a, n, o) := tileRun s f t r
    (goodParts s (f + o) n).foldl (fun m p => m.write (a + p.1) p.2) m) tile.mem
  { tile with pc := fld (w 0) 4 17 * 16, windows := (List.range 8).foldl wins [], slips := (List.range 64).foldl slips [],
              mem := runs, halted := false, longsum := false, ovf := false, debug := debug, ifault := 0, wfault := 0, wdrop := 0 }

/-- Bytes that the host gives and the command does not carry: free values (R11, R241; log entry 7). -/
def freeBytes (s : State) (n : Nat) : List Byte := (List.range n).map fun i => BitVec.ofNat 8 (Config.freeBits (s.free + i)).toNat

/-- Bytes of a home in GDDR7 that the engine copies into a tile: an uncorrectable unit's granules are never written (R297), and an access
that the region or the other world shuts out gives what R275 and R424 say. -/
def homePart (s : State) (secure : Bool) (a n : Nat) : State × List (Nat × List Byte) :=
  match checkAccess s secure .objRead a with
  | .violation k => (regionViolation s (mcOf (a / 256)) (a / 256) noSite 0xF k, [])
  | .shut e => (xlogRegion s .lend false e a, [(0, List.replicate n 0)])
  | .ok =>
    ((bytesFetched s a n).1, goodParts s a n)

/-- Bytes of a host copy that the engine copies into a tile, under the host tier's rules (R295, R296): those that the command brings, and
free values beyond them. -/
def hostPart (s : State) (secure : Bool) (a n : Nat) (given : List Byte) : State × List (Nat × List Byte) :=
  if hostAbsent s then (raiseFault s 0x0B 0 noSite, [])
  else if !inAperture s secure a n then (raiseFault s 0x0A 0 noSite, [])
  else (drew s n, [(0, (given ++ (freeBytes s n).drop given.length).take n)])

/-- One tile's part of an unmatched resident range is copied from its card's object (R241): from the home, or, where GPRESENT is 0, from
the host copy, whose bytes the command brings (log entry 73). -/
def copyRange (card : Card) (s : State) (d : ResDecl) (secure : Bool) (b ord : Nat) (host : List Byte) (k : Nat) : State :=
  let n := 32 * (d.bound - d.base)
  let off := n * (64 * ord + k)
  let (s1, parts) := if card.gpresent then homePart s secure (card.gaddr + off) n
    else hostPart s secure (card.haddr + off) n ((host.drop off).take n)
  s1.onTile (siteOf s.fuse (64 * (b + (d.groups.getD ord 0)) + k)) fun t =>
    if t.pwr = .active then { t with mem := parts.foldl (fun m p => m.write (32 * d.base + p.1) p.2) t.mem } else t

/-- The cards of unmatched resident ranges are copied (R241, R377). The engine fetches the card as ever (R275, R285); nothing is copied
where it cannot be read. -/
def copyCards (s : State) (j : Job) (host : List (List Byte)) : State :=
  (List.range (resCount s j.folio)).foldl (fun s n =>
    let d := resDecl s j.folio n
    let want := d.at j.secure j.base
    let due := want.groups.filter fun p => !residMatches s want p
    if due.isEmpty then s
    else match cardFor s j.secure d.card with
      | (s1, none) => s1
      | (s1, some ws) => due.foldl (fun s p =>
          (List.range 64).foldl (fun s k => copyRange (decodeCard ws) s d j.secure j.base p.1 (host.getD n []) k) s) s1) s

/-- The room-bank mask of a folio (R279, R380); all banks are outside it where there is none. -/
def roomMask (s : State) (f room : Nat) : Nat :=
  if (sectionAt s f 6).2 = 0 then 0
  else fld (gddrWord s ((sectionAt s f 6).1 + 4 * (room / 2))) (16 * (room % 2)) 16

/-- A room at job start (R279). -/
def roomAtStart (secure : Bool) (mask : Nat) (r : Room) : Room :=
  let clear := r.world != secure
  let bank (r : Room) (b : Nat) : Room :=
    if mask / 2 ^ b % 2 = 1 then
      let on := match (r.bank b).st with | .powered => true | _ => false
      let r1 := if on && !clear then r else r.clearBank b
      r1.setBank b { Bank.off with st := .powered }
    else (r.clearBank b).setBank b Bank.off
  { (List.range 16).foldl bank r with world := secure }

/-- The Keeper acts on the initial room-bank mask. -/
def startRooms (s : State) (j : Job) : State :=
  (List.range 64).foldl (fun s n => s.setRoom n (roomAtStart j.secure (roomMask s j.folio n) (s.room n))) s

/-- The registers that a job start clears or loads (R266, R303 to R305, R335, R337, R377 step 6). -/
def startRegs (s : State) (j : Job) : State :=
  let rs := [rXNW_FDROP, rXNW_FFIRST, rXNW_MERGE, rLND_LOANS, rLND_ERR, rRGS_MICROSTEP, rRGS_EVAL, rRGS_SUPERSTEP, rCEN_STAT]
    ++ (List.range 64).map rRDR_LATE
    ++ (List.range 10).flatMap fun m => [rMCT_RFAULT m, rMCT_RFADDR m, rMCT_LEDGER_NAN m 0, rMCT_LEDGER_NAN m 1]
  let s1 := rs.foldl (fun s r => setReg s r 0) s
  setReg (setReg s1 (rRGS_THIN 0) (folioWord s j.folio 8)) (rRGS_THIN 1) (folioWord s j.folio 9)

/-- The runs of a tile's image are read (R227, R271, R297). -/
def runsFetched (s : State) (f n : Nat) : State :=
  (List.range (runCount s f n)).foldl (fun s r => (bytesFetched s (f + (tileRun s f n r).2.2) (tileRun s f n r).2.1).1) s

/-- The tiles of a job as their records make them. -/
def loadTiles (s : State) (j : Job) : State :=
  (List.range (64 * j.groups)).foldl (fun s n =>
    let x := siteOf s.fuse (64 * j.base + n)
    if (s.tile x).pwr = .active then (runsFetched s j.folio n).onTile x (tileImage s j.folio j.debug n) else s) s

/-! ### The DMA engine's turn (R410, R411) -/

/-- Ring entries. -/
def dmaRing (s : State) : Nat := 2 ^ regFld s rHIF_DMA_CFG 0 4

/-- HIF_DMA_HEAD. -/
def dmaHead (s : State) : Nat := regFld s rHIF_DMA_HEAD 0 12

/-- Descriptors outstanding: from HEAD to the tail written last (R410). -/
def dmaLeft (s : State) : Nat := (s.host.dma.tail + dmaRing s - dmaHead s) % dmaRing s

/-- Whether the engine may begin the descriptor at HEAD: one is outstanding, nothing stops it, and no job runs or drains; those that were
outstanding when RUN began wait in FAULTED too (R411, R462). -/
def dmaMayStart (s : State) : Bool :=
  s.host.dma.tail != dmaHead s && !s.host.dma.stopped && !(s.dev == .run || s.dev == .drain || s.dev == .boot)
    && !(s.dev == .faulted && s.host.dma.held) && accepts s (Block.hif.page 0) && s.host.mode != 0

/-- The engine takes the descriptor at HEAD, if it may. -/
def dmaStart (s : State) : State :=
  if dmaMayStart s then { s with host := { s.host with dma := { s.host.dma with busy := true } } } else s

/-- RUN begins: what is outstanding beside the descriptor in progress waits until the device leaves DRAIN or FAULTED (R411). -/
def holdDma (s : State) : State :=
  { s with host := { s.host with dma := { s.host.dma with held := decide ((if s.host.dma.busy then 1 else 0) < dmaLeft s) } } }

/-- The device has left DRAIN or FAULTED: the engine goes on (R411). -/
def freeDma (s : State) : State := dmaStart { s with host := { s.host with dma := { s.host.dma with held := false } } }

/-- The device enters RUN in its cycle: superstep 0 begins (R19, R23, R37, R289, R334, R373). -/
def enterRun (s : State) (j : Job) : State :=
  let c := s.cycle
  let s := holdDma s
  let s1 := stampEntry (setStatus s j.entry 5 0 0) j.entry 8
  let s2 := (jobSites s1).foldl (fun s x => s.onTile x fun t => { t with now := c }) s1
  let s3 : State := { s2 with dev := .run, rgs := { s2.rgs with
    runAt := c, runTime := s2.time, sk := c, prev := none, flagged := [], evalStart := c, evalDone := none, evalSeen := [],
    endedAt := none, readyFrom := laterReadies s2, arrivedFrom := [], arriveSent := false,
    lmax := 0, haltedAt := 0 } }
  startEntries s3 0 c

/-- READY of a device has reached the root: with the last one the root sends GO to every device (R378). -/
def rootReady (s : State) (w : Nat) : State :=
  let got := if s.rgs.readyFrom.contains w then s.rgs.readyFrom else s.rgs.readyFrom ++ [w]
  let s1 : State := { s with rgs := { s.rgs with readyFrom := got } }
  if s.rgs.workers.all got.contains && !s.rgs.workers.all s.rgs.readyFrom.contains then
    linkSend (toOthers s1 "go" []) { dest := ownWid s, src := ownWid s, vc := 10, what := "go", words := [] }
  else s1

/-- What a job finds at its start beside tiles, rooms and registers: empty caches, queues and counters (R285, R311, R314, R326, R331). -/
def freshUnits (s : State) : State :=
  { s with ctls := s.ctls.foldl (fun m p => SMap.set Ctl.idle m p.1 { p.2 with cache := [], inited := [] }) [],
           rgs := { s.rgs with past := [] }, lend := { s.lend with cards := [], started := [], loans := [] }, streams := [], forward := [], forwarded := [],
           cen := { ledger := [], snaps := [] }, ckpt := { s.ckpt with heldUnits := [], mirrored := [] } }

/-- ARMED_COMPLETE (R377 steps 4 to 6, R378): resident ranges, images (R227), room banks and registers are set; `host` gives, by
declaration, the objects that only the host holds. A confined job enters RUN; a device of a spanning job sends READY. -/
def execArmedComplete (host : List (List Byte)) (s : State) : Host.Outcome State Fault Refusal :=
  .next (match s.dev, s.rgs.arm, s.rgs.job with
    | .armed, .done, some j =>
      if s.rgs.readyFrom.contains (ownWid s) && jobSpans s then s
      else
        let j0 : Job := { j with nextLoan := 0 }
        let s1 := freshUnits (startRegs (startRooms (loadTiles (copyCards s j host) j) j) j)
        let s2 : State := { s1 with rgs := { s1.rgs with job := some j0 } }
        if s2.dev != .armed then s2
        else if !jobSpans s then enterRun s2 j0
        else if bellRoot s = ownWid s then rootReady s2 (ownWid s)
        else
          let s3 := linkSend s2 { dest := bellRoot s, src := ownWid s, vc := 10, what := "ready", words := [] }
          { s3 with rgs := { s3.rgs with readyFrom := s3.rgs.readyFrom ++ [ownWid s] } }
    | _, _, _ => s)

/-- READY (R378): a device's message reaches the bell root; one that comes before the root itself is ARMED for that job is remembered. -/
def execReady (worker : Nat) (s : State) : Host.Outcome State Fault Refusal :=
  .next (if s.dev == .armed && jobSpans s && bellRoot s == ownWid s && s.rgs.workers.contains worker then rootReady s worker
    else if s.inReset || s.dev == .boot || s.rgs.readyFrom.contains worker then s
    else { s with rgs := { s.rgs with readyFrom := s.rgs.readyFrom ++ [worker] } })

/-- GO (R378): the device enters RUN in the next cycle. -/
def execGo (s : State) : Host.Outcome State Fault Refusal :=
  .next (match s.dev, s.rgs.arm, s.rgs.job with
    | .armed, .done, some j =>
      if jobSpans s && s.rgs.readyFrom.contains (ownWid s) then enterRun (toCycle s (s.cycle + 1)) j else s
    | _, _, _ => s)

/-! ### DRAIN (R379) -/

/-- Whether a flit of the job is in the mesh (R265). -/
def meshEmpty (s : State) : Bool :=
  s.routers.all (fun p => p.2.held.isEmpty) && (jobSites s).all fun x => (s.tile x).arrivals.isEmpty && (s.tile x).xsends.isEmpty

/-- DRAIN_START (R19, R375): every participating tile is HALTED. -/
def execDrainStart (s : State) : Host.Outcome State Fault Refusal :=
  .next (match s.dev, s.rgs.job with
    | .run, some j =>
      if (jobSites s).all (fun x => (s.tile x).halted) then
        let s1 := setStatus s j.entry 6 0 0
        { s1 with dev := .drain, rgs := { s1.rgs with endedAt := some s1.cycle, job := some { j with nextLoan := schedCount s } } }
      else s
    | _, _ => s)

/-- The banks whose gate wait ran out are gated at the job's end (R280). -/
def gateStuck (s : State) : State :=
  { s with rooms := s.rooms.foldl (fun m p => SMap.set Room.off m p.1 (p.2.banks.foldl (fun r b =>
      match b.2.st with | .stuck => r.gate b.1 | _ => r) p.2)) [] }

/-- The tile clocks stop, and the PLLs where no entry waits (R379, R442). -/
def stopClocks (s : State) : State :=
  let s1 := setFld { s with clockOn := false } rCPW_DSTATE 7 4 0
  let s2 := if s.rgs.queue.isEmpty then setFld s1 rCPW_DSTATE 3 4 0 else s1
  setFld (setDstate s2 1) rXNW_SEAM 2 1 0

/-- A job's tiles at its end: those that hold declared residencies go to RETAIN, the others to OFF (R51). -/
def retireTiles (s : State) (j : Job) : State :=
  let keep := s.rgs.declared.flatMap fun r => r.groups.map (·.2)
  (List.range (64 * j.groups)).foldl (fun s n =>
    let k := 64 * j.base + n
    s.onTile (siteOf s.fuse k) fun t =>
      if t.pwr = .fenced then t
      else if keep.contains (groupOf k) then { t.powerDown .retain with mem := t.mem } else t.powerDown .off) s

/-- The residencies after a job: its own declarations take the place of what its groups held. -/
def keepResidents (s : State) (j : Job) : State :=
  let placed := (List.range j.groups).map (j.base + ·)
  let left := (s.rgs.resid.map fun r => { r with groups := r.groups.filter fun p => !placed.contains p.2 }).filter fun r => !r.groups.isEmpty
  { s with rgs := { s.rgs with resid := left ++ s.rgs.declared.filter fun r => !r.groups.isEmpty, declared := [] } }

/-- Whether what DRAIN waits for is done: loans, queued and forwarded units, mirrored writes, census folds. -/
def drained (s : State) : Bool :=
  s.lend.started.isEmpty && s.lend.loans.isEmpty && s.forward.isEmpty && s.ckpt.heldUnits.isEmpty && s.ckpt.mirrored.isEmpty && meshEmpty s
    && (cenDepth s == 0 || s.cen.snaps.isEmpty)
    && s.ctls.all fun p => p.2.arrivals.isEmpty && p.2.reads.isEmpty && p.2.groups.isEmpty

/-- DRAIN_COMPLETE (R379): ledgers are written back, tiles retained or turned off, the entry is DONE, and the device takes the next
entry or returns to SLEEP. Its streams stay known until the next job is prepared: granules of another device's SSEND may still come (R328). -/
def execDrainComplete (s : State) : Host.Outcome State Fault Refusal :=
  .next (match s.dev, s.rgs.job with
    | .drain, some j =>
      if drained s then
        let s1 := keepResidents (retireTiles (flushLedgers (gateStuck s)) j) j
        let s2 := stampEntry (setStatus s1 j.entry 7 0 0) j.entry 10
        let s3 := stopClocks { s2 with cen := { ledger := [], snaps := [] }, rgs := { s2.rgs with past := s2.rgs.workers } }
        takeEntry (freeDma { endJob s3 with dev := .sleep })
      else s
    | _, _ => s)

/-! ### Job faults (R391, R392) -/

/-- Whether a message carries this device's own work for the job: forwarded units, stage streams, mirrored writes (R338, R372). -/
def jobTraffic (s : State) (m : LinkMsg) : Bool := m.src == ownWid s && (decide (m.vc ≤ 9) || m.what == "mirror")

/-- Such messages that wait on this device are discarded. -/
def dropTraffic (s : State) : State :=
  { s with linkOut := s.linkOut.filter fun m => !jobTraffic s m,
           ports := s.ports.foldl (fun m p => SMap.set Port.idle m p.1 (p.2.without (jobTraffic s))) [] }

/-- The running job is aborted: its flits, loans, units, landing and send buffers are discarded (R244, R265, R306, R338). -/
def abortJob (s0 : State) : State :=
  let s := dropTraffic s0
  let s1 : State := { s with
    routers := [], forward := [], forwarded := [], streams := [], ckpt := { s.ckpt with heldUnits := [], mirrored := [] },
    lend := { s.lend with started := [], loans := [] },
    ctls := s.ctls.foldl (fun m p => SMap.set Ctl.idle m p.1 { p.2 with arrivals := [], reads := [], groups := [], rr := 0 }) [],
    rooms := s.rooms.foldl (fun m p => SMap.set Room.off m p.1 { p.2 with
      banks := p.2.banks.foldl (fun b q => SMap.set Bank.off b q.1 { q.2 with accs := [], held := [] }) [], offered := [] }) [],
    host := { s.host with lines := [], offered := [], wlines := [] } }
  setFld s1 rLND_LOANS 0 13 0

/-- The oldest frozen counts are folded, if the table folds (R331, R391: only the census of the superstep in progress is lost). -/
def foldRest (s : State) : State :=
  (List.range snapBuffers).foldl (fun s _ => foldOldest s) s

/-- Every retained residency is discarded, and its groups go to OFF. -/
def discardResidents (s : State) : State :=
  let s1 := dropResidents s fun _ => true
  { s1 with rgs := { s1.rgs with declared := [] } }

/-- The queued entries are INVALIDATED. -/
def invalidateQueue (s : State) : State :=
  let s1 := s.rgs.queue.foldl (fun s i => setStatus s i 9 0 0) s
  { s1 with rgs := { s1.rgs with queue := [] } }

/-- Link address of this device's manager (R346): the one that MGR_TRUST names, or the bay's (log entry 92). -/
def managerAddr (s : State) : Nat := 0x4000 + (s.keeper.trusted.getD Config.bayManager.toNat)

/-- FAULT goes to every other device of a spanning job and to the manager, with the job's number (R392; log entry 111). -/
def sendFaults (s : State) : State :=
  if !jobSpans s then s
  else
    let ws := match s.rgs.ref with | some (_, n) => [n] | none => []
    linkSend (toOthers s "fault" ws) { dest := managerAddr s, src := ownWid s, vc := 10, what := "fault", words := ws }

/-- The fault is recorded in RGS_FAULT, RGS_FAULTK and the entry (R391 step 6, R398). -/
def recordFault (s : State) (f : FaultRec) (entry : Nat) : State :=
  let w := f.reason % 2 ^ 8 + f.detail % 2 ^ 8 * 2 ^ 8 + f.site % 2 ^ 12 * 2 ^ 16 + 2 ^ 31
  let s1 := setReg (setReg s rRGS_FAULT (BitVec.ofNat 32 w)) rRGS_FAULTK (BitVec.ofNat 32 f.k)
  setIstat (stampEntry (setStatus s1 entry 8 f.reason f.detail) entry 10) (Block.rgs.page 0) 4

/-- JOB_FAULT (R391 to R393): the effects of the job fault that is due, in their order; the device returns to SLEEP. -/
def execJobFault (s : State) : Host.Outcome State Fault Refusal :=
  .next (match s.dev, s.rgs.fault, s.rgs.job with
    | .faulted, some f, some j =>
      let s1 := abortJob (foldRest (sendFaults s))
      let s2 := (jobSites s1).foldl (fun s x => s.onTile x fun t => if t.pwr = .fenced then t else t.powerDown .off) s1
      let s3 := recordFault (gateStuck (flushLedgers (discardResidents (invalidateQueue s2)))) f j.entry
      freeDma { endJob (stopClocks { s3 with cen := { ledger := [], snaps := [] } }) with dev := .sleep }
    | _, _, _ => s)

/-- Whether a FAULT is for this device's job: it comes from one of its devices or from a manager, and names no other job (R392). -/
def faultsJob (s : State) (sender : Nat) (job : Option Nat) : Bool :=
  (s.dev == .armed || s.dev == .run || s.dev == .drain) && (s.rgs.workers.contains sender || decide (0x4000 ≤ sender))
    && (match job, s.rgs.ref with | some n, some (_, m) => n == m | _, _ => true)

/-- Reason and DETAIL of a fault that a message brings (R393). -/
def FaultCause.reason (c : FaultCause) (sender : Nat) : Nat × Nat :=
  match c with
  | .remote => (0x17, sender)
  | .deviceLost w => (0x16, w)
  | .noRoute => (0x14, 0)

/-- FAULT (R347, R361, R392, R393): a message for the running job; a job that is over, or has faulted, ignores it. -/
def execFault (sender : Nat) (job : Option Nat) (cause : FaultCause) (s : State) : Host.Outcome State Fault Refusal :=
  .next (if faultsJob s sender job then
      raiseFault s (FaultCause.reason cause sender).1 (FaultCause.reason cause sender).2 noSite
    else s)

end Sys2Proof.Machine
end

