-- ==== Sys2Proof/Machine/Power.lean ====
section
/-! DEFINITION. Boot (R431 to R433, R452), resets (R449 to R451), thermal and power limiting (R446 to R448), the power states (R445),
and the resets and loss of the host link (R400, R415, R416, R450). -/

namespace Sys2Proof.Machine

/-! ### Device reset (R450, R451) -/

/-- CPW_RSTCAUSE after a device reset: a lost rail leaves POWER and COUNT 0; any other reset writes its cause and counts. -/
def resetWord (s : State) (cause : Nat) (railLost : Bool) : Word :=
  let w := regRaw s rCPW_RSTCAUSE
  if railLost then 1
  else BitVec.ofNat 32 (cause + Nat.min (fld w 8 24 + (if s.inReset then 0 else 1)) (2 ^ 24 - 1) * 2 ^ 8)

/-- The cause that a reset leaves: a device already held in reset takes none but POWER and THERMAL (R455, R482). -/
def resetCause (s : State) (cause : Nat) : Nat :=
  if s.inReset && cause != 1 && cause != 4 then regFld s rCPW_RSTCAUSE 0 3 else cause

/-- A device reset: everything at its reset value but the fuses, the flash, the pins and CPW_RSTCAUSE; the clock of the model, its
free values and its record of what was sent go on. GDDR7 keeps its bytes until the zero fill of BOOT. -/
def deviceReset (s : State) (cause : Nat) (railLost : Bool) : State :=
  { State.reset with
    pending := s.pending, cycle := s.cycle, time := s.time, free := s.free, fuse := s.fuse,
    pins := { s.pins with faultN := !(s.pow.tripped || cause == 4), pwrgd := !railLost },
    regs := SMap.set (regReset rCPW_RSTCAUSE) [] rCPW_RSTCAUSE (resetWord s (resetCause s cause) railLost),
    gddr := s.gddr, ecc := s.ecc, linkOut := s.linkOut,
    host := { HostIf.reset with sent := s.host.sent },
    keeper := { Keeper.reset with flash := s.keeper.flash },
    pow := { State.reset.pow with tripped := s.pow.tripped || cause == 4, lastTick := s.pow.lastTick } }

/-- POWER_ON_RESET (R450, R451, R474). -/
def execPowerOnReset (railLost : Bool) (s : State) : Host.Outcome State Fault Refusal := .next (deviceReset s 1 railLost)

/-- MODULE_RESET (R450, R480, R481): MRST_N is low, for at least 1 µs; it stays so until the device enters BOOT (log entry 132). -/
def execModuleReset (s : State) : Host.Outcome State Fault Refusal :=
  .next (let s1 := deviceReset s 2 false
         { s1 with pins := { s1.pins with mrstN := false } })

/-- A write of 1 to CPW_RSTREQ.GO (R450, R465). -/
def requestReset (s : State) : State := deviceReset s 3 false

/-- SOFTWARE_RESET (R450): the host writes 1 to CPW_RSTREQ.GO. -/
def execSoftwareReset (s : State) : Host.Outcome State Fault Refusal := .next (hostPageWrite s (Block.cpw.page 0) requestReset)

/-- THERMAL_TRIP (R449): the device is held in reset, FAULT_N low, until every sensor reads below its resume threshold. -/
def execThermalTrip (s : State) : Host.Outcome State Fault Refusal := .next (deviceReset s 4 false)

/-- WATCHDOG_RESET (R450): the Keeper firmware was silent for 2 s. -/
def execWatchdogReset (s : State) : Host.Outcome State Fault Refusal :=
  .next (if s.inReset then s else deviceReset s 5 false)

/-! ### Boot (R431 to R433, R452) -/

/-- Bytes 0 to 111 of an image's header, which both signatures cover (R431). -/
def Image.signed (i : Image) : List Byte :=
  natLe 4 i.magic.toNat ++ natLe 4 i.itype.toNat ++ natLe 8 i.svn ++ natLe 4 i.body.length
    ++ [BitVec.ofNat 8 i.ecdsaSlot, BitVec.ofNat 8 i.lmsSlot] ++ List.replicate 42 0 ++ natBe 48 i.digest.toNat

/-- Zero bytes. -/
def zeros (n : Nat) : List Byte := List.replicate n 0

/-- The 4 KiB header of an image (R431): both public keys and both signatures after the signed bytes, every other byte 0. -/
def Image.header (i : Image) : List Byte :=
  let fit (n : Nat) (bs : List Byte) : List Byte := (bs ++ zeros n).take n
  Image.signed i ++ zeros 16 ++ fit 97 i.ecdsaKey ++ zeros 31 ++ fit 56 i.lmsKey ++ zeros 72 ++ fit 96 i.ecdsaSig ++ zeros 32
    ++ fit 2828 i.lmsSig ++ zeros 756

/-- An image as it lies in a slot of the boot flash: the header, then the body. -/
def Image.bytes (i : Image) : List Byte := Image.header i ++ i.body

/-- The first check of R432 that an image fails, by the order of that rule, 1 to 7; 0 where every one holds. An empty slot fails the first. -/
def imageCheck (f : Fuse) (itype : Nat) (img : Option Image) : Nat :=
  match img with
  | none => 1
  | some i =>
    if i.magic.toNat ≠ 0x4B504831 ∨ i.itype.toNat ≠ itype then 1
    else if bit f.revoke (i.ecdsaSlot % 4) || bit f.revoke (4 + i.lmsSlot % 4) then 2
    else if f.ecdsaKeyH[i.ecdsaSlot]? ≠ some (sha384 i.ecdsaKey) ∨ f.lmsKeyH[i.lmsSlot]? ≠ some (sha384 i.lmsKey) then 3
    else if i.svn < (if itype = 1 then f.svnKfw else f.svnDfw) then 4
    else if sha384 i.body ≠ i.digest then 5
    else if !Config.ecdsaVerify (Image.signed i) i.ecdsaKey i.ecdsaSig then 6
    else if !Config.lmsVerify (Image.signed i) i.lmsKey i.lmsSig then 7
    else 0

/-- The slot of an image type that BOOT takes: 1 A, 2 B, 3 none; and the first check that failed on the way, 0 where none did (R433, R437). -/
def chooseSlot (s : State) (itype : Nat) : Nat × Nat :=
  let a := imageCheck s.fuse itype (SMap.find s.keeper.flash (2 * (itype - 1)))
  let b := imageCheck s.fuse itype (SMap.find s.keeper.flash (2 * (itype - 1) + 1))
  if a = 0 then (1, 0) else if b = 0 then (2, a) else (3, a)

/-- The image in the slot that BOOT has taken; none where both slots fail. -/
def bootImage (s : State) (itype slot : Nat) : Option Image :=
  if slot = 1 ∨ slot = 2 then SMap.find s.keeper.flash (2 * (itype - 1) + slot - 1) else none

/-- Measurement 5, the fuse state (R430, R436). -/
def fuseMeasure (f : Fuse) : BitVec 384 :=
  Config.measure 5 ([f.grade, if f.b0 then 1 else 0, f.lifecycle, f.revoke.toNat, f.svnKfw, f.svnDfw] ++ f.colSkip.flatMap fun p => [p.1, p.2])

/-- Measurement 6, the region table with its world bits (R436). -/
def regionMeasure (s : State) : BitVec 384 :=
  Config.measure 6 (s.regions.flatMap fun p => [p.1, p.2.base, p.2.last, p.2.kind, if p.2.secure then 1 else 0])

/-- Measurements 2 and 3 of KFW, or 4 of DFW (R436). -/
def imageMeasure (m : SMap (BitVec 384)) (itype : Nat) (img : Option Image) : SMap (BitVec 384) :=
  match img with
  | none => m
  | some i =>
    if itype = 1 then SMap.put (SMap.put m 2 (sha384 i.body)) 3 (Config.measure 3 [i.svn, i.ecdsaSlot, i.lmsSlot])
    else SMap.put m 4 (Config.measure 4 ((Image.bytes i).map (·.toNat)))

/-! ### DICE identity (R430, R433, R434) -/

/-- LIFECYCLE RMA (R430): the part has no identity. -/
def lifeRMA : Nat := 2

/-- The digest of a measurement block (R436). -/
def measurement (s : State) (i : Nat) : BitVec 384 := SMap.get 0 s.keeper.meas i

/-- Step 1 of R434: the DeviceID key pair, from UDS alone. In RMA the ROM derives nothing (R430). -/
def deviceIdentity (f : Fuse) : Option Identity :=
  if f.lifecycle = lifeRMA then none
  else some { deviceId := Config.publicKey f.uds, cdi := none, aliasKey := [], aliasCert := [] }

/-- Steps 2 to 4 of R434: CDI_KFW from UDS and measurement 2, the Alias key pair from it, and the Alias certificate, which carries
measurements 1 to 3 and is signed with the DeviceID key. -/
def aliasIdentity (f : Fuse) (meas : SMap (BitVec 384)) (i : Identity) : Identity :=
  let m (k : Nat) : BitVec 384 := SMap.get 0 meas k
  let cdi := hmac384 (natBe 48 f.uds.toNat) (natBe 48 (m 2).toNat)
  let key := Config.publicKey cdi
  let cert := Config.certificate "ALIAS" key [(m 1).toNat, (m 2).toNat, (m 3).toNat]
  { i with cdi := some cdi, aliasKey := key, aliasCert := cert ++ Config.sign f.uds cert }

/-- What the ROM derives while UDS is not locked: DeviceID, and with an accepted KFW image the Alias; then it locks UDS (R433). -/
def romDerives (s : State) (accepted : Bool) : State :=
  if s.keeper.udsLocked then s
  else
    let d := deviceIdentity s.fuse
    { s with keeper := { s.keeper with
      identity := if accepted then d.map (aliasIdentity s.fuse s.keeper.meas) else d, udsLocked := accepted } }

/-- CHECK of GLB_BOOT: the failure of the type of image that put the Keeper in recovery, else the first one on the way (R433, R437). -/
def bootCheck (k d : Nat × Nat) : Nat := if d.1 = 3 then d.2 else if k.2 = 0 then d.2 else k.2

/-- The ROM verifies KFW and derives the identity, KFW verifies DFW; where both slots of one type fail the Keeper is in recovery (R433). -/
def verifyBoot (s : State) : State :=
  let k := chooseSlot s 1
  let d := if k.1 = 3 then (0, 0) else chooseSlot s 2
  let m1 := imageMeasure (SMap.put s.keeper.meas 1 Config.romDigest) 1 (bootImage s 1 k.1)
  let m2 := if d.1 = 0 then m1 else imageMeasure m1 2 (bootImage s 2 d.1)
  let m3 := SMap.put (SMap.put m2 5 (fuseMeasure s.fuse)) 6 (regionMeasure s)
  let s1 : State := { s with keeper := { s.keeper with
    kfwSlot := k.1, dfwSlot := d.1, recovering := k.1 == 3 || d.1 == 3, meas := m3 } }
  setFld (romDerives s1 (k.1 != 3)) rGLB_BOOT 4 4 (bootCheck k d)

/-- The link ports start training (R340, R433 step 5), unless the Keeper is in recovery; a port without a partner stays idle. -/
def startLinks (s : State) : State :=
  if s.keeper.recovering then s else (List.range 16).foldl (fun s p => s.setPort p { s.port p with training := portTrains s p }) s

/-- Milliseconds from the entry into BOOT to the start of KFW (R452; log entry 82). -/
def kfwMs : Nat := 80

/-- Whether KFW has started, and with it the function serves configuration requests and DOE0 (R433, R453). -/
def kfwServes (s : State) : Bool := match s.host.kfwAt with | some t => decide (t ≤ s.time) || s.dev != .boot | none => false

/-- BOOT_ENTRY (R8, R433, R452): the always-on rail is good and MRST_N has gone high; MGR_SEL is sampled as it stands, KFW and DFW are
verified, the links start. -/
def execBootEntry (mgrSel : Bool) (s : State) : Host.Outcome State Fault Refusal :=
  .next (if s.inReset && !s.pow.tripped then
      startLinks (verifyBoot { s with inReset := false, mgrRole := mgrSel,
                                      pins := { s.pins with pwrgd := true, mgrSel := mgrSel, mrstN := true },
                                      host := { s.host with kfwAt := some (s.time + kfwMs * msTicks) } })
    else s)

/-- Whether the part ends its boot in a device hold: an NVH-MGR that came out of reset with MGR_SEL low (R8). -/
def holdsRole (s : State) : Bool := s.fuse.grade == 3 && !s.mgrRole

/-- BOOT_COMPLETE (R8, R376, R452): GDDR7 is zero; the device enters SLEEP, or a device hold. -/
def execBootComplete (s : State) : Host.Outcome State Fault Refusal :=
  .next (if s.dev == .boot && !s.inReset && !s.keeper.recovering then
      let s1 : State := { s with gddr := [], ecc := [] }
      if holdsRole s then
        setIstat (setReg { s1 with dev := .hold, devHold := true } rRGS_HOLD 0x101) (Block.rgs.page 0) 2
      else stir { s1 with dev := .sleep }
    else s)

/-- RECOVERY (R433): in recovery an image that passes R432 takes slot A of its type, and verification runs again. -/
def execRecovery (img : Image) (s : State) : Host.Outcome State Fault Refusal :=
  .next (if s.keeper.recovering && !s.inReset && (img.itype == 1 || img.itype == 2) && imageCheck s.fuse img.itype.toNat (some img) == 0 then
      startLinks (verifyBoot { s with keeper := { s.keeper with flash := SMap.put s.keeper.flash (2 * (img.itype.toNat - 1)) img } })
    else s)

/-! ### The host link (R400, R415, R416) -/

/-- Send every vector whose condition is true (R416). -/
def resendVectors (s : State) : State := followVectors true s (List.range 17)

/-- The descriptor in progress ends with STATUS 2, and the engine stops with HEAD at it (R416, R418). -/
def dropDescriptor (s : State) : State :=
  if s.host.dma.busy then
    let s1 : State := { s with host := { s.host with dma := { s.host.dma with busy := false, stopped := true, status := 2 } } }
    setIstat (satAdd s1 rHIF_ERR 16 16 1) (Block.hif.page 0) 2
  else s

/-- What uses CXL.cache lines while the link is down: each completes as uncorrectable, and an LND_CMD in progress ends so (R416; log entry
133). -/
def failTraffic (s : State) : State :=
  let s1 := failLines s
  match s1.lend.cmd with
  | some cmd => finishLndCmd s1 cmd [] []
  | none => s1

/-- The host link goes down: no line survives, the descriptor in progress fails, the accesses that wait go, the CXL state resets (R416,
R417). -/
def linkLoss (s : State) : State :=
  let s1 := dropDescriptor s
  failTraffic { s1 with host := { s1.host with mode := 0, width := 0, cacheEn := false, memEn := false, hdm := false, waiting := [] } }

/-- HOST_LINK_DOWN (R416). -/
def execHostLinkDown (s : State) : Host.Outcome State Fault Refusal := .next (if s.host.mode = 0 then s else linkLoss s)

/-- HOST_LINK_UP (R400, R416, R482): with MRST_N and PERST_N high the link has trained; HIF_ISTAT.LINK sets and every true vector sends. -/
def execHostLinkUp (mode width : Nat) (s : State) : Host.Outcome State Fault Refusal :=
  .next (if s.inReset || !s.pins.perstN || s.host.mode != 0 || !(decide (1 ≤ mode ∧ mode ≤ 5)) || !(width == 1 || width == 2 || width == 4 || width == 8) then s
    else
      let s1 := failTraffic s
      let s2 : State := { s1 with host := { s1.host with mode := mode, width := width } }
      let off := Block.hif.reg 0 oISTAT
      resendVectors (setReg s2 off (regRaw s2 off ||| 4)))

/-- A job's tiles where its entry is dropped in ARMED: those it has ungated have left RETAIN and go to OFF, and what they retained is lost
(R241; log entry 86). -/
def unplaceTiles (s : State) (j : Job) : State :=
  let on (g : Nat) : Bool := (groupSites s.fuse g).any fun x => (s.tile x).pwr == .active
  let gone := ((List.range j.groups).map (j.base + ·)).filter on
  let s1 := (List.range (64 * j.groups)).foldl (fun s n =>
    s.onTile (siteOf s.fuse (64 * j.base + n)) fun t => if t.pwr != .active then t else t.powerDown .off) s
  let left := (s.rgs.resid.map fun r => { r with groups := r.groups.filter fun p => !gone.contains p.2 }).filter fun r => !r.groups.isEmpty
  { s1 with rgs := { s1.rgs with resid := left } }

/-- The current entry becomes DISCARDED without a job fault (R397, R415). -/
def discardEntry (s : State) : State :=
  match s.dev, s.rgs.cur, s.rgs.job with
  | .accession, some i, _ => { endJob (setStatus s i 10 0 0) with dev := .sleep }
  | .armed, some i, some j =>
    { endJob (stopClocks (setStatus (unplaceTiles s j) i 10 0 0)) with dev := .sleep }
  | _, _, _ => s

/-- What RGS ABORT does to the running job or the current entry (R397, R415). -/
def abortCurrent (s : State) : State :=
  if s.dev = .run ∨ s.dev = .drain then raiseFault s 0x19 0 noSite else discardEntry s

/-- The HIF registers and the MSI-X table at reset (R405, R415). -/
def clearHif (s : State) : State :=
  { s with regs := s.regs.filter fun p => p.1 / 0x1000 != Block.hif.page 0 && p.1 / 0x1000 != 0x4008 }

/-- The function's own state at reset: DMA, DOE, sessions, HIF registers, MSI-X, Memory Space Enable (R415). The CXL enables and the HDM
decoder stay. -/
def resetFunction (s : State) : State :=
  let s1 := clearHif s
  { s1 with
    host := { s1.host with dma := { tail := 0, stopped := true, busy := false, status := s1.host.dma.status }, mask := [], pba := [],
                           cond := s1.host.cond.filter (fun p => p.1 != 5 && p.1 != 6), mse := false, ready := false },
    spdm := { s1.spdm with sessions := [], doeBusy := [], version := false, caps := false, algs := false, resp := "", data := [],
                           resp1 := "", data1 := [], flight := false } }

/-- FUNCTION_LEVEL_RESET (R415). -/
def execFunctionLevelReset (s : State) : Host.Outcome State Fault Refusal :=
  .next (if s.host.mode = 0 then s else resetFunction (abortCurrent s))

/-- PERST_N (R450, R482): the pin is low; the link goes down to retrain and the function resets; jobs continue. -/
def execPerstN (s : State) : Host.Outcome State Fault Refusal :=
  let s0 : State := { s with pins := { s.pins with perstN := false } }
  .next (if s.inReset then s0 else resetFunction (if s.host.mode = 0 then s0 else linkLoss s0))

/-- FUNCTION_READY (R415): the function is ready after its reset; PERST_N is high (log entry 132). -/
def execFunctionReady (s : State) : Host.Outcome State Fault Refusal :=
  .next { s with host := { s.host with ready := true }, pins := { s.pins with perstN := true } }

/-! ### Thermal and power limiting (R446 to R449) -/

/-- Thresholds of a sensor kind: throttle, resume, trip (R446). -/
structure Threshold where
  throttle : Nat
  resume : Nat
  trip : Nat
  deriving DecidableEq, Repr

/-- Logic die junction. -/
def logicT : Threshold := { throttle := 100, resume := 92, trip := 115 }
/-- SRAM die. -/
def sramT : Threshold := { throttle := 95, resume := 88, trip := 110 }
/-- GDDR7 package. -/
def gddrT : Threshold := { throttle := 95, resume := 88, trip := 105 }
/-- Power conversion stage. -/
def convT : Threshold := { throttle := 110, resume := 100, trip := 125 }

/-- The readings that act on a half, with their thresholds: its own quadrants, every package, every stage (R446). -/
def actingOn (r : Readings) (east : Bool) : List (Nat × Threshold) :=
  let half (xs : List Nat) : List Nat := if east then xs.drop 2 else xs.take 2
  (half r.logic).map (·, logicT) ++ (half r.sram).map (·, sramT) ++ r.gddr.map (·, gddrT) ++ r.conv.map (·, convT)

/-- Every reading with its thresholds. -/
def allReadings (r : Readings) : List (Nat × Threshold) :=
  r.logic.map (·, logicT) ++ r.sram.map (·, sramT) ++ r.gddr.map (·, gddrT) ++ r.conv.map (·, convT)

/-- Whether the half's ceiling rises at this tick (R447). -/
def ceilingRises (r : Readings) (cap : Nat) (east : Bool) : Bool :=
  (actingOn r east).any (fun p => decide (p.2.throttle ≤ p.1)) || decide (cap < r.power)

/-- Whether this tick counts toward lowering the half's ceiling (R447). -/
def belowResume (r : Readings) (cap : Nat) (east : Bool) : Bool :=
  (actingOn r east).all (fun p => decide (p.1 < p.2.resume)) && decide (100 * r.power < 95 * cap)

/-- The ticks below resume, up to ten. -/
def countBelow (n : Nat) (below : Bool) : Nat := if below then Nat.min (n + 1) 10 else 0

/-- A ceiling after a tick (R447). -/
def newCeiling (c n : Nat) (rises : Bool) : Nat := if rises then Nat.min (c + 1) 4 else if n = 10 then c - 1 else c

/-- The hottest of a list, and the first place it stands in. -/
def hottest (xs : List Nat) : Nat × Nat :=
  let m := xs.foldl Nat.max 0
  (m, (xs.zipIdx.find? fun p => p.1 == m).elim 0 (·.2))

/-- CPW_TEMPQ: the hottest logic or SRAM sensor of each quadrant. -/
def tempQ (r : Readings) : Word :=
  BitVec.ofNat 32 ((List.range 4).foldl (fun a q => a + Nat.min 255 (Nat.max (r.logic.getD q 0) (r.sram.getD q 0)) * 2 ^ (8 * q)) 0)

/-- CPW_TEMPM: the hottest package and stage. -/
def tempM (r : Readings) : Word :=
  let g := hottest r.gddr
  BitVec.ofNat 32 (Nat.min 255 g.1 + g.2 % 32 * 2 ^ 8 + Nat.min 255 (hottest r.conv).1 * 2 ^ 16)

/-- The time of the next tick: the next whole millisecond (R446). -/
def nextTick (s : State) : Nat :=
  if s.time % msTicks = 0 ∧ s.pow.lastTick < s.time then s.time else (s.time / msTicks + 1) * msTicks

/-- A tick of a device that runs: what changes a ceiling takes effect at the next slow-clock edge (R447). -/
def tick (s : State) (r : Readings) : State :=
  let cap := regFld s rCPW_PCAP 0 12
  let wUp := ceilingRises r cap false
  let eUp := ceilingRises r cap true
  let wn := countBelow s.pow.wBelow (belowResume r cap false)
  let en := countBelow s.pow.eBelow (belowResume r cap true)
  let w := regFld s rCPW_FREQ 3 3
  let e := regFld s rCPW_FREQ 9 3
  let w' := newCeiling w wn wUp
  let e' := newCeiling e en eUp
  let p : Pow := { s.pow with wBelow := wn, eBelow := en }
  let p1 : Pow := if w' = w ∧ e' = e then p else { p with edge := s.time + slowTicks, wWas := w, eWas := e }
  let s1 := setFld (setFld { s with pow := p1 } rCPW_FREQ 3 3 w') rCPW_FREQ 9 3 e'
  let s2 := setReg (setReg (setFld s1 rCPW_PCAP 16 12 (Nat.min r.power 4095)) rCPW_TEMPQ (tempQ r)) rCPW_TEMPM (tempM r)
  let near := (allReadings r).any fun p => decide (p.2.trip ≤ p.1 + 5)
  let m := (if w < w' ∨ e < e' then 1 else 0) + (if w' < w ∨ e' < e then 2 else 0) + (if cap < r.power then 4 else 0) + (if near then 8 else 0)
  setIstat s2 (Block.cpw.page 0) m

/-- THERMAL_TICK (R446 to R449): the Keeper samples the sensors and the input power. A reading at a trip threshold resets the device; a
device that tripped is let go once every sensor reads below its resume threshold. A tick runs on the always-on rail, which is good: PWRGD is
released (R480). -/
def execThermalTick (r : Readings) (s : State) : Host.Outcome State Fault Refusal :=
  let t := nextTick s
  let s1 := toTime s t
  let s2 : State := { s1 with pow := { s1.pow with lastTick := t }, pins := { s1.pins with pwrgd := true } }
  .next (if (allReadings r).any fun p => decide (p.2.trip ≤ p.1) then deviceReset s2 4 false
    else if s2.inReset then
      (if s2.pow.tripped && (allReadings r).all (fun p => decide (p.1 < p.2.resume)) then
        { s2 with pow := { s2.pow with tripped := false }, pins := { s2.pins with faultN := true } }
      else s2)
    else tick s2 r)

/-! ### Power states (R445) -/

/-- Whether the device is idle as D-SLEEP needs it: SLEEP, nothing pending, no descriptor outstanding, the Keeper and LND_CMD idle. -/
def mayDSleep (s : State) : Bool :=
  s.dev == .sleep && (pendingEntries s).isEmpty && !s.host.dma.busy && s.host.dma.tail == regFld s rHIF_DMA_HEAD 0 12
    && s.host.waiting.isEmpty && s.keeper.running.isNone && s.keeper.waiting.isEmpty && s.lend.cmd.isNone
    && regFld s rCPW_IDLE 0 8 != 0 && !s.mgrRole && regFld s rCPW_DSTATE 0 3 == 1

/-- D_SLEEP_ENTRY (R445): the conditions have held for DELAY milliseconds since the last of them failed. -/
def execDSleepEntry (s : State) : Host.Outcome State Fault Refusal :=
  .next (if mayDSleep s then setDstate (toTime s (s.pow.busyAt + regFld s rCPW_IDLE 0 8 * msTicks)) 0 else s)

/-- WAKE_TRIGGER (R445): what wakes a sleeping device beside the commands that do so themselves, such as a link message that needs GDDR7. -/
def execWakeTrigger (s : State) : Host.Outcome State Fault Refusal := .next (wake s)

end Sys2Proof.Machine
end

