-- ==== Sys2Proof/Machine/HostIf.lean ====
section
/-! DEFINITION. The host's data paths into GDDR7 (R403, R406, R277, R424), the DMA engine (R410, R411), MSI-X masks (R413) and
configuration requests (R415, R417, R453). -/

namespace Sys2Proof.Machine

/-! ### BAR2 and HDM -/

/-- An access to a hole, of a wrong size, or beyond GDDR7 is counted (R403, R406, R457). -/
def countRange (s : State) : State := setIstat (satAdd s rHIF_ERR 0 16 1) (Block.hif.page 0) 8

/-- The pieces of a byte range that lie in one 16 MiB unit each: address and length. -/
def regionPieces (a n : Nat) : List (Nat × Nat) :=
  (List.range (if n = 0 then 0 else (a + n - 1) / regionUnit - a / regionUnit + 1)).map fun i =>
    let lo := Nat.max a ((a / regionUnit + i) * regionUnit)
    let hi := Nat.min (a + n) ((a / regionUnit + i + 1) * regionUnit)
    (lo, hi - lo)

/-- The region entry that shuts a host access out, where one does (R423, R424, R429). -/
def hostShut (s : State) (write : Bool) (a : Nat) : Option Nat :=
  match regionAt s a with
  | some (n, r) => if crossWorld s false write n r then some n else none
  | none => none

/-- One 256 B unit is read for the host: its errors are counted once (R271, R297, R406); a cached one becomes the most recently used
(R314). -/
def hostUnit (s : State) (unit : Nat) : State :=
  if ((s.ctl (mcOf unit)).cached unit).isSome then touchUnit s unit
  else
    let s1 := countCE s (mcOf unit) (unitCE s unit)
    if unitBad s unit then countUE s1 (mcOf unit) else s1

/-- Whether a unit reads as poisoned for the host (R297, R406). -/
def hostBad (s : State) (unit : Nat) : Bool := ((s.ctl (mcOf unit)).cached unit).isNone && unitBad s unit

/-- What a piece of a host read gives, 0 beyond 1,600 GB and in the secure world (R403, R424). -/
def pieceRead (s : State) (p : Nat × Nat) : List Byte :=
  if gddrEnd ≤ p.1 ∨ (hostShut s false p.1).isSome then List.replicate p.2 0
  else (tierRead s p.1 (Nat.min p.2 (gddrEnd - p.1)) ++ List.replicate p.2 0).take p.2

/-- Whether a piece of a host read is poisoned. -/
def pieceBad (s : State) (p : Nat × Nat) : Bool :=
  decide (p.1 < gddrEnd) && (hostShut s false p.1).isNone && (touchedUnits p.1 p.2).any (hostBad s)

/-- What a piece of a host read leaves behind: a log entry, or the counts of the units that were read. -/
def pieceTrace (src : XSource) (s : State) (p : Nat × Nat) : State :=
  if gddrEnd ≤ p.1 then s
  else match hostShut s false p.1 with
    | some n => xlogRegion s src false n p.1
    | none => (touchedUnits p.1 p.2).foldl hostUnit s

/-- A host read of GDDR7: its bytes and its poison mark are what the host gets (R277, R406). -/
def hostRead (s : State) (src : XSource) (a n : Nat) : State :=
  let ps := regionPieces a n
  let s1 := ps.foldl (pieceTrace src) s
  { s1 with host := { s1.host with data := ps.flatMap (pieceRead s), poison := ps.any (pieceBad s) } }

/-- Whether a byte belongs to what the host may not change while the current job is in RUN: its folio, the catalogue, its circulation
entry but for the TAG (R13, R39, R282, R306, R374). -/
def runConfig (s : State) (b : Nat) : Bool :=
  match s.dev, s.rgs.job with
  | .run, some j =>
    decide (j.folio ≤ b ∧ b < j.folio + 256 * j.size) || decide (cardAddr s 0 ≤ b ∧ b < cardAddr s (catalogSize s))
  | _, _ => false

/-- Whether a byte lies in a circulation entry of a list, outside its TAG (R373, R374). -/
def inEntries (s : State) (es : List Nat) (b : Nat) : Bool :=
  es.any fun i => decide (circAddr s i ≤ b ∧ b < circAddr s i + 64) && !decide (circAddr s i + 20 ≤ b ∧ b < circAddr s i + 24)

/-- Whether the running job uses the region of a host write in RUN (R277). The device does not track use: a free value says so (log entry
38). -/
def usedRegion (s : State) (a : Nat) : Bool :=
  s.dev == .run && (match regionAt s a with | some (_, r) => kindOf r.kind == .shelved || kindOf r.kind == .ledger | none => false)
    && (freeWord s).toNat % 2 == 1

/-- A host write of bytes in one region. What R13, R39, R277, R282, R306 and R374 call unpredictable leaves free values in the bytes
written, and may fault the job that they concern (R11; log entry 38). -/
def hostStore (s : State) (a : Nat) (data : List Byte) : State :=
  let used := usedRegion s a
  let soft (b : Nat) : Bool := used || runConfig s b || inEntries s (pendingEntries s) b
  let mine (b : Nat) : Bool := used || runConfig s b || inEntries s s.rgs.cur.toList b
  let bs := List.range data.length
  let new := data.zipIdx.map fun (d, i) => if soft (a + i) then BitVec.ofNat 8 (Config.freeBits (s.free + 1 + i)).toNat else d
  let s1 := gddrWrite (drew s (1 + data.length)) a new
  if bs.any (fun i => mine (a + i)) then mayFault s1 else s1

/-- A piece of a host write: discarded in the secure world and beyond 1,600 GB (R403, R424). -/
def pieceWrite (src : XSource) (a : Nat) (data : List Byte) (s : State) (p : Nat × Nat) : State :=
  if gddrEnd ≤ p.1 then s
  else match hostShut s true p.1 with
    | some n => xlogRegion s src true n p.1
    | none => hostStore s p.1 ((data.drop (p.1 - a)).take (Nat.min p.2 (gddrEnd - p.1)))

/-- A host write of GDDR7. -/
def hostWrite (s : State) (src : XSource) (a : Nat) (data : List Byte) : State :=
  (regionPieces a data.length).foldl (pieceWrite src a data) s

/-- An access that reaches beyond 1,600 GB is counted (R403). -/
def checkEnd (s : State) (a n : Nat) : State := if gddrEnd < a + n ∨ gddrEnd ≤ a then countRange s else s

/-- The range of an access. -/
def accessRange (a : GAccess) : Nat × Nat := match a with | .read addr len => (addr, len) | .write addr data => (addr, data.length)

/-- An access that GDDR7 serves. -/
def hostServe (s : State) (a : GAccess) : State :=
  match a with
  | .read addr len => checkEnd (hostRead s .bar2 addr len) addr len
  | .write addr data => checkEnd (hostWrite s .bar2 addr data) addr data.length

/-- A host access by BAR2 or CXL.mem, which wakes a sleeping device (R406, R445); in BOOT a read gives 0 and a write is
discarded (R453). One that comes during a self-refresh exit, or that a controller refuses, waits (R396, R445, R462). -/
def hostAccess (s : State) (a : GAccess) : State :=
  if s.dev = .boot then
    match a with
    | .read _ len => { s with host := { s.host with data := List.replicate len 0, poison := false } }
    | .write _ _ => s
  else
    let s1 := wake s
    if tierOpen s1 (accessRange a).1 (accessRange a).2 then hostServe s1 a
    else { s1 with host := { s1.host with waiting := s1.host.waiting ++ [a] } }

/-- The accesses that wait are offered again, in their order. -/
def serveWaiting (s : State) : State :=
  s.host.waiting.foldl (fun s a => if tierOpen s (accessRange a).1 (accessRange a).2 then hostServe s a
    else { s with host := { s.host with waiting := s.host.waiting ++ [a] } }) { s with host := { s.host with waiting := [] } }

/-- BAR2_ACCESS (R406). -/
def execBar2Access (a : GAccess) (s : State) : Host.Outcome State Fault Refusal := .next (if hostReaches s then hostAccess s a else s)

/-- Whether CXL.mem reaches the HDM range: HIF_LINK.HDM (R403, R417). -/
def hdmOpen (s : State) : Bool := s.host.hdm && s.host.memEn && decide (1 ≤ s.host.mode ∧ s.host.mode ≤ 3)

/-- HDM_ACCESS (R403, R415): served throughout a function-level reset. -/
def execHdmAccess (a : GAccess) (s : State) : Host.Outcome State Fault Refusal := .next (if hdmOpen s then hostAccess s a else s)

/-! ### The DMA engine -/

/-- Whether a tail lies outside the ring or would pass HEAD (R410). -/
def tailBad (s : State) (tail : Nat) : Bool :=
  let n := dmaRing s
  decide (n ≤ tail) || decide ((tail + n - dmaHead s) % n < dmaLeft s)

/-- The engine has a new tail, and goes on where it had stopped (R410, R411). -/
def newTail (s : State) (tail : Nat) : State :=
  dmaStart { s with host := { s.host with dma := { s.host.dma with tail := tail, stopped := false } } }

/-- DMA_TAIL (R407, R410, R411): a new tail, which also wakes the device and restarts a stopped engine. What the engine makes of a tail
outside the ring or past HEAD is unpredictable: the tail that it takes is a free value (log entry 12). -/
def execDmaTail (tail : BitVec 12) (s : State) : Host.Outcome State Fault Refusal :=
  .next (hostPageWrite s (Block.hif.page 0) fun s =>
    let s1 := wake s
    if tailBad s tail.toNat then mayFault (newTail (drew s1 1) ((freeWord s1).toNat % dmaRing s)) else newTail s1 tail.toNat)

/-- Whether a descriptor ends with STATUS 2: a reserved or misaligned bit, or a range past 1,600 GB (R410, R411). -/
def descriptorBad (ws : List Word) : Bool :=
  let g := (wordAt ws 4).toNat + (wordAt ws 5).toNat * 2 ^ 32
  fld (wordAt ws 0) 2 30 != 0 || fld (wordAt ws 1) 27 5 != 0 || fld (wordAt ws 2) 0 5 != 0 || g % 32 != 0 || decide (2 ^ 41 ≤ g)
    || fld (wordAt ws 6) 2 30 != 0 || wordAt ws 7 != 0 || decide (gddrEnd < g + 32 * (fld (wordAt ws 1) 0 27 + 1))

/-- The engine writes STATUS; STATUS 2 and 3 are errors (R411, R417). -/
def dmaStatus (s : State) (st : Nat) : State :=
  let s0 := stir s
  let s1 : State := { s0 with host := { s0.host with dma := { s0.host.dma with busy := false, status := st } } }
  if st = 1 then s1 else setIstat (satAdd s1 rHIF_ERR 16 16 1) (Block.hif.page 0) 2

/-- Granules from the host go to GDDR7, all but the poisoned ones (R411). -/
def dmaIn (s : State) (g n : Nat) (data : List Byte) (poisoned : List Nat) : State :=
  let bs := (data ++ List.replicate (n - data.length) 0).take n
  (regionPieces g n).foldl (fun s p => match hostShut s true p.1 with
    | some r => xlogRegion s .dma true r p.1
    | none => (List.range (p.2 / 32)).foldl (fun s i =>
        let k := (p.1 - g) / 32 + i
        if poisoned.contains k then s else hostStore s (p.1 + 32 * i) ((bs.drop (32 * k)).take 32)) s) s

/-- DMA_DESCRIPTOR_DONE (R410, R411): `words` is the descriptor at HEAD, `data` the host's bytes where DIR is 0, `poisoned` the granules
of them that read as uncorrectable. One that a controller refuses stays in progress (R462). -/
def execDmaDescriptorDone (words : List Word) (data : List Byte) (poisoned : List Nat) (s : State) : Host.Outcome State Fault Refusal :=
  let n := 32 * (fld (wordAt words 1) 0 27 + 1)
  let g := (wordAt words 4).toNat + (wordAt words 5).toNat * 2 ^ 32
  .next (if !(s.host.dma.busy || dmaMayStart s) then s
    else if descriptorBad words then
      let s1 := dmaStatus s 2
      { s1 with host := { s1.host with dma := { s1.host.dma with stopped := true } } }
    else if !tierOpen s g n then dmaStart s
    else
      let out := bit (wordAt words 0) 0
      let s1 := if out then hostRead s .dma g n else dmaIn s g n data poisoned
      let bad := if out then s1.host.poison else poisoned.any fun k => decide (k < n / 32)
      let s2 := dmaStatus s1 (if bad then 3 else 1)
      let s3 := if bit (wordAt words 0) 1 then setIstat s2 (Block.hif.page 0) 1 else s2
      dmaStart (setFld s3 rHIF_DMA_HEAD 0 12 ((dmaHead s + 1) % dmaRing s)))

/-! ### MSI-X and configuration space -/

/-- Unmask a vector; a pending message is sent (R413). -/
def unmask (s : State) (v : Nat) : State :=
  let s1 : State := { s with host := { s.host with mask := SMap.set true s.host.mask v false } }
  if SMap.get false s.host.pba v then
    sendVector { s1 with host := { s1.host with pba := SMap.set false s1.host.pba v false } } v
  else s1

/-- VECTOR_UNMASK (R405, R413): the host clears the mask of a table entry. -/
def execVectorUnmask (vector : Nat) (s : State) : Host.Outcome State Fault Refusal :=
  .next (if hostReaches s then unmask s vector else s)

/-- The device ID of a grade and the revision ID of a stepping (R404). -/
def deviceId (f : Fuse) : Nat := match f.grade with | 0 => 0x4E20 | 1 => 0x4E21 | 2 => 0x4E22 | _ => 0x4E2F
/-- The revision ID. -/
def revisionId (f : Fuse) : Nat := if f.b0 then 0xB0 else 0xA0

/-- What configuration space identifies the function by: device ID, revision ID and class code (R404). -/
def functionId (f : Fuse) : List Byte := natLe 2 (deviceId f) ++ natLe 1 (revisionId f) ++ natLe 3 0x120000

/-- A BAR of the function (R405): size and prefetchable attribute; every one is 64-bit, and starts an even register pair. -/
structure Bar where
  size : Nat
  prefetchable : Bool
  deriving DecidableEq, Repr

/-- The BARs (R405): register pages, GDDR7, doorbells. -/
def barOf (n : Nat) : Option Bar :=
  match n with
  | 0 => some { size := 2 ^ 27, prefetchable := false }
  | 2 => some { size := 2 ^ 41, prefetchable := true }
  | 4 => some { size := 2 ^ 12, prefetchable := false }
  | _ => none

/-- What a BAR register pair reads once ones have been written to it: its size and attributes in the coding of PCI (log entry 134). -/
def barWord (n : Nat) : List Byte :=
  match barOf n with
  | some b => natLe 8 (2 ^ 64 - b.size + 4 + (if b.prefetchable then 8 else 0))
  | none => natLe 8 0

/-- CONFIGURATION_REQUEST (R404, R405, R415, R417, R453): retry status until KFW serves and the function is ready. -/
def execConfigurationRequest (r : CfgRequest) (s : State) : Host.Outcome State Fault Refusal :=
  let cxl := decide (1 ≤ s.host.mode ∧ s.host.mode ≤ 3)
  .next (if s.host.mode = 0 then s
    else if !kfwServes s || !s.host.ready then { s with host := { s.host with cfgRetry := true } }
    else
      let h : HostIf := { s.host with cfgRetry := false }
      match r with
      | .read => { s with host := { h with data := functionId s.fuse, poison := false } }
      | .bar n => { s with host := { h with data := barWord n, poison := false } }
      | .memorySpace on => { s with host := { h with mse := on } }
      | .cacheEnable on => if cxl then { s with host := { h with cacheEn := on } } else { s with host := h }
      | .memEnable on => if cxl then { s with host := { h with memEn := on } } else { s with host := h })

/-- HDM_DECODER_COMMIT (R403, R417): CXL modes alone have the decoder. -/
def execHdmDecoderCommit (s : State) : Host.Outcome State Fault Refusal :=
  .next (if decide (1 ≤ s.host.mode ∧ s.host.mode ≤ 3) && kfwServes s && s.host.ready then { s with host := { s.host with hdm := true } } else s)

end Sys2Proof.Machine
end

