-- ==== Sys2Proof/Machine/Keeper.lean ====
section
/-! DEFINITION. The Keeper's commands (R422, R423, R426 to R429, R483) from the mailbox, the secure host and the trusted manager. -/

namespace Sys2Proof.Machine

/-! ### The region table -/

/-- An unused entry (R274). -/
def Region.none : Region := { base := 0, last := 0, kind := 0, secure := false }

/-- Entry n of the region table. -/
def State.region (s : State) (n : Nat) : Region := SMap.get Region.none s.regions n

/-- Put an entry of the region table. -/
def State.setRegion (s : State) (n : Nat) (r : Region) : State := { s with regions := SMap.set Region.none s.regions n r }

/-- Whether two entries that are both in use share a unit (R274). -/
def Region.overlaps (a b : Region) : Bool :=
  a.kind != 0 && b.kind != 0 && decide (a.base ≤ b.last) && decide (b.base ≤ a.last)

/-- Whether a region would overlap another entry of the table. -/
def overlapsOther (s : State) (n : Nat) (r : Region) : Bool := s.regions.any fun p => p.1 != n && r.overlaps p.2

/-- The 16 MiB units that leave the secure world when an entry changes: ranges of first and end unit (R423). -/
def leaving (old new : Region) : List (Nat × Nat) :=
  let parts := if new.kind != 0 && new.secure then [(old.base, Nat.min (old.last + 1) new.base), (Nat.max old.base (new.last + 1), old.last + 1)]
    else [(old.base, old.last + 1)]
  if old.kind != 0 && old.secure then parts.filter fun p => decide (p.1 < p.2) else []

/-- Granules scrubbed to 0, with fresh check symbols (R423). -/
def scrubUnits (s : State) (p : Nat × Nat) : State :=
  let lo := p.1 * regionUnit
  let hi := p.2 * regionUnit
  { s with gddr := s.gddr.clear lo hi, ecc := s.ecc.filter fun q => !(decide (lo ≤ 32 * q.1) && decide (32 * q.1 < hi)) }

/-- Measurement 6 follows every region command (R436). -/
def measureRegions (s : State) : State :=
  { s with keeper := { s.keeper with meas := SMap.put s.keeper.meas 6 (regionMeasure s) } }

/-! ### Commands -/

/-- Codes of the commands (R427). -/
inductive KOp where
  | regionSet | regionClear | regionRead | adopt | setDigest | secWrite | pageWorld | mgrTrust | commitSvn | revoke
  deriving DecidableEq, Repr

/-- The command of a code; none where it is unassigned. -/
def kop (code : Nat) : Option KOp :=
  match code with
  | 0x01 => some .regionSet | 0x02 => some .regionClear | 0x03 => some .regionRead | 0x10 => some .adopt
  | 0x11 => some .setDigest | 0x12 => some .secWrite | 0x13 => some .pageWorld | 0x14 => some .mgrTrust
  | 0x20 => some .commitSvn | 0x21 => some .revoke | _ => none

/-- The code of a command. -/
def KOp.code (o : KOp) : Nat :=
  match o with
  | .regionSet => 0x01 | .regionClear => 0x02 | .regionRead => 0x03 | .adopt => 0x10 | .setDigest => 0x11
  | .secWrite => 0x12 | .pageWorld => 0x13 | .mgrTrust => 0x14 | .commitSvn => 0x20 | .revoke => 0x21

/-- Whether it is a region command (R422). -/
def KOp.changesRegions (o : KOp) : Bool := o == .regionSet || o == .regionClear || o == .adopt

/-- GLB_KSTAT.STATUS codes (R437). -/
inductive KStat where
  | idle | busy | done | denied | mismatch | invalid | locked
  deriving DecidableEq, Repr

/-- STATUS code. -/
def KStat.code (k : KStat) : Nat :=
  match k with
  | .idle => 0 | .busy => 1 | .done => 2 | .denied => 3 | .mismatch => 4 | .invalid => 5 | .locked => 6

/-- The bits of each word of a block that R483 assigns; the data of SEC_WRITE by its length. -/
def blockMask (o : KOp) (len : Nat) : List Nat :=
  match o with
  | .regionSet => [0x3F, 0x1FFFF, 0x1FFFF, 0x107]
  | .regionClear => [0x3F]
  | .regionRead => [0x3F]
  | .adopt => [0x3F, 0xFFFFFFFF] ++ List.replicate 12 0xFFFFFFFF
  | .setDigest => [0xFF] ++ List.replicate 12 0xFFFFFFFF
  | .secWrite => [0xFFFFFFFF, 0x1FF, 0x7FF] ++ List.replicate (len / 4) 0xFFFFFFFF
  | .pageWorld => [0xFFFFF000, 3]
  | .mgrTrust => [0xFF]
  | .commitSvn => [3]
  | .revoke => [1, 3]

/-- Whether a block has a non-zero bit that R483 does not assign; the mailbox's words beyond the block are ignored (R426, R427). -/
def unassignedBits (c : KCmd) (o : KOp) : Bool :=
  let ms := blockMask o (fld (wordAt c.args 2) 0 11)
  let ws := match c.src with | .mailbox => c.args.take ms.length | _ => c.args
  ws.zipIdx.any fun p => (p.1.toNat &&& (0xFFFFFFFF - ms.getD p.2 0)) != 0

/-- The region that REGION_SET names (R483). -/
def argRegion (c : KCmd) : Region :=
  { base := (wordAt c.args 1).toNat, last := (wordAt c.args 2).toNat, kind := fld (wordAt c.args 3) 0 3, secure := bit (wordAt c.args 3) 8 }

/-- Words from a place on, read as a digest (R483): the first byte is the most significant. -/
def argDigest (c : KCmd) (k : Nat) : BitVec 384 := BitVec.ofNat 384 (leNat (wordsLe ((List.range 12).map fun i => wordAt c.args (k + i))).reverse)

/-- The GDDR7 address of SEC_WRITE. -/
def argAddr (c : KCmd) : Nat := (wordAt c.args 0).toNat + fld (wordAt c.args 1) 0 9 * 2 ^ 32

/-- Whether a page is the TIL page of a placed site of the current job (R427, R438). -/
def placedPage (s : State) (p : Nat) : Bool :=
  (s.dev == .armed || s.dev == .run || s.dev == .drain) && (jobSites s).any fun x => Block.til.page x == p

/-- The malformed arguments of R427, beside unassigned bits. -/
def malformed (s : State) (c : KCmd) (o : KOp) : Bool :=
  let n := (wordAt c.args 0).toNat
  match o with
  | .regionSet =>
    let r := argRegion c
    decide (64 ≤ n) || decide (4 < r.kind) || decide (r.last < r.base) || decide (gddrEnd ≤ r.last * regionUnit) || overlapsOther s n r
  | .regionClear => decide (64 ≤ n)
  | .regionRead => decide (64 ≤ n)
  | .adopt =>
    let r := s.region n
    let len := 256 * (wordAt c.args 1).toNat
    decide (64 ≤ n) || r.kind == 0 || len == 0 || decide ((r.last + 1) * regionUnit < r.base * regionUnit + len)
      || decide (gddrEnd < r.base * regionUnit + len)
  | .setDigest => decide (255 < n)
  | .secWrite =>
    let len := fld (wordAt c.args 2) 0 11
    len % 32 != 0 || decide (len < 32) || decide (1024 < len) || argAddr c % 32 != 0 || decide (gddrEnd < argAddr c + len)
  | .pageWorld => (pageBlock (n / 0x1000)).isNone || placedPage s (n / 0x1000)
  | .mgrTrust => decide (160 ≤ n) && n != 255
  | .commitSvn => n != 1 && n != 2
  | .revoke => false

/-- Whether a manager may issue commands over VC 11: MGR_TRUST names it, and it is the link partner that the route table gives (R428). -/
def managerTrusted (s : State) (m : Nat) : Bool :=
  let e := SMap.get 0 s.route (0x4000 + m)
  s.keeper.trusted == some m && bit e 4 && regFld s (rLNK_STAT (fld e 0 4)) 1 1 == 1 && regFld s (rLNK_PEER (fld e 0 4)) 0 15 == 0x4000 + m

/-- Whether R427 or R428 denies a command to its source. -/
def denied (s : State) (c : KCmd) (o : KOp) : Bool :=
  let n := (wordAt c.args 0).toNat
  match c.src with
  | .secure => false
  | .vc11 m => !managerTrusted s m
  | .mailbox => match o with
    | .regionSet => (s.region n).secure || bit (wordAt c.args 3) 8
    | .regionClear => (s.region n).secure
    | .regionRead => false
    | _ => true

/-- The region entry that the log gives for a denied command (R425, R437; log entry 88). -/
def deniedEntry (c : KCmd) (o : KOp) : Nat :=
  let n := (wordAt c.args 0).toNat
  if (o.changesRegions || o == .regionRead) && decide (n < 64) then n else 0x3F

/-- A denied command is logged with SOURCE 6 (R424, R428). -/
def logDenied (s : State) (c : KCmd) (o : KOp) : State := xlogRegion s .keeper true (deniedEntry c o) 0

/-- The four words of REGION_READ (R483): all 0 for a secure entry read by the non-secure host. -/
def regionWords (s : State) (src : KSource) (n : Nat) : List Word :=
  let r := s.region n
  if r.secure && src == .mailbox then [0, 0, 0, 0]
  else [BitVec.ofNat 32 n, BitVec.ofNat 32 r.base, BitVec.ofNat 32 r.last, BitVec.ofNat 32 (r.kind + (if r.secure then 0x100 else 0))]

/-- Write an entry whose change needs no scrub, or begin the scrub; the table changes when it is complete (R423). -/
def changeRegion (s : State) (c : KCmd) (n : Nat) (new : Region) : State × Option (KStat × List Word) :=
  let parts := leaving (s.region n) new
  if parts.isEmpty then (measureRegions (s.setRegion n new), some (.done, []))
  else ({ s with keeper := { s.keeper with running := some c, scrub := parts } }, none)

/-- The new entry of a REGION_SET or REGION_CLEAR. -/
def newRegion (c : KCmd) : Region := if c.code = 0x01 then argRegion c else Region.none

/-- The SVN of the running image of a type; 0 where none runs. -/
def runningSvn (s : State) (itype : Nat) : Nat :=
  match bootImage s itype (if itype = 1 then s.keeper.kfwSlot else s.keeper.dfwSlot) with
  | some i => i.svn
  | none => 0

/-- Fuses after COMMIT_SVN (R427, R430, R433). -/
def commitFuse (s : State) (itype : Nat) : Fuse :=
  let v := Nat.min (runningSvn s itype) 64
  if itype = 1 then { s.fuse with svnKfw := Nat.max s.fuse.svnKfw v } else { s.fuse with svnDfw := Nat.max s.fuse.svnDfw v }

/-- Fuses with their measurement (R436). -/
def blowFuse (s : State) (f : Fuse) : State :=
  { s with fuse := f, keeper := { s.keeper with meas := SMap.put s.keeper.meas 5 (fuseMeasure f) } }

/-- Bytes that SEC_WRITE writes. -/
def secLen (c : KCmd) : Nat := fld (wordAt c.args 2) 0 11

/-- SEC_WRITE writes its data (R427). -/
def secStore (s : State) (c : KCmd) : State :=
  gddrWrite s (argAddr c) ((wordsLe ((List.range (secLen c / 4)).map fun i => wordAt c.args (3 + i))).take (secLen c))

/-- What a command that is neither denied, locked nor invalid does: the state, and its outcome unless it goes on (R427). A SEC_WRITE that a
controller refuses goes on until it is accepted (R396, R462). -/
def effect (s : State) (c : KCmd) (o : KOp) : State × Option (KStat × List Word) :=
  let n := (wordAt c.args 0).toNat
  match o with
  | .regionSet => changeRegion s c n (newRegion c)
  | .regionClear => changeRegion s c n (newRegion c)
  | .regionRead => (s, some (.done, regionWords s c.src n))
  | .adopt => ({ s with keeper := { s.keeper with running := some c, adopting := some n } }, none)
  | .setDigest => ({ s with keeper := { s.keeper with digests := SMap.put s.keeper.digests n (argDigest c 1) } }, some (.done, []))
  | .secWrite =>
    if tierOpen s (argAddr c) (secLen c) then (secStore s c, some (.done, []))
    else ({ s with keeper := { s.keeper with running := some c } }, none)
  | .pageWorld =>
    let off := n / 0x1000 * 0x1000 + oWORLD
    (if regFld s off 1 1 = 1 || unusedAt s (n / 0x1000) then s else setFld s off 0 2 (fld (wordAt c.args 1) 0 2), some (.done, []))
  | .mgrTrust => ({ s with keeper := { s.keeper with trusted := if n = 255 then none else some n } }, some (.done, []))
  | .commitSvn => (blowFuse s (commitFuse s n), some (.done, []))
  | .revoke =>
    let k := 4 * (n % 2) + fld (wordAt c.args 1) 0 2
    (blowFuse s { s.fuse with revoke := s.fuse.revoke ||| BitVec.ofNat 8 (2 ^ k) }, some (.done, []))

/-- The Keeper serves a command: DENIED, LOCKED and INVALID are decided in that order (R427). -/
def serve (s : State) (c : KCmd) : State × Option (KStat × List Word) :=
  match kop c.code with
  | none => (s, some (.invalid, []))
  | some o =>
    if denied s c o then (logDenied s c o, some (.denied, []))
    else if o.changesRegions && (s.dev == .armed || s.dev == .run || s.dev == .drain) then (s, some (.locked, []))
    else if unassignedBits c o || malformed s c o then (s, some (.invalid, []))
    else effect s c o

/-- An instance answers: it holds the response, and message 17 is sent (R412, R414). -/
def answer (s : State) (doe : Nat) (resp : String) (data : List Byte) : State :=
  let p : Spdm := { s.spdm with doeBusy := SMap.set false s.spdm.doeBusy doe true }
  sendVector { s with spdm := if doe = 0 then { p with resp := resp, data := data, flight := false } else { p with resp1 := resp, data1 := data } } 17

/-- A source learns a status, and the words that REGION_READ returns (R426, R427, R483); GLB_KSTAT reads BUSY while another command of the
mailbox waits; a request on DOE0 is answered once its command has ended. -/
def report (s : State) (c : KCmd) (st : KStat) (result : List Word) : State :=
  match c.src with
  | .mailbox =>
    let s1 := setFld s rGLB_KSTAT 0 3 (if s.keeper.waiting.any fun d => d.src == .mailbox then KStat.busy.code else st.code)
    result.zipIdx.foldl (fun s p => setReg s (rGLB_KARG0 + 4 * p.2) p.1) s1
  | .secure =>
    let s1 : State := { s with keeper := { s.keeper with secStatus := st.code, secResult := result } }
    if c.viaDoe && st != .busy && s.spdm.flight then answer s1 0 "VENDOR_DEFINED_RESPONSE" (natLe 4 st.code ++ wordsLe result) else s1
  | .vc11 m =>
    if st = .busy then s
    else linkSend s { dest := 0x4000 + m, src := ownWid s, vc := 11, what := "keeperResult", words := st.code :: result.map (·.toNat) }

/-- A command ends: its source learns the outcome, and GLB_ISTAT.KDONE sets (R427, R470). -/
def finishCmd (s : State) (c : KCmd) (st : KStat) (result : List Word) : State := setIstat (report (stir s) c st result) (Block.glb.page 0) 2

/-- Commands are served one at a time, in order of receipt; one that goes on holds the others back (R426). -/
def serveAll (s : State) : List KCmd → State
  | [] => { s with keeper := { s.keeper with waiting := [] } }
  | c :: rest =>
    match serve { s with keeper := { s.keeper with waiting := rest } } c with
    | (s1, some (st, ws)) => serveAll (finishCmd s1 c st ws) rest
    | (s1, none) => report s1 c .busy []

/-- A command reaches the Keeper, and wakes the device (R426, R445). -/
def keeperIssue (s : State) (c : KCmd) : State :=
  let s1 := wake s
  if s.inReset then s
  else if s1.keeper.running.isSome then report { s1 with keeper := { s1.keeper with waiting := s1.keeper.waiting ++ [c] } } c .busy []
  else serveAll s1 [c]

/-- The mailbox's argument words. -/
def putArgs (s : State) (args : List Word) : State := (args.zipIdx.take 8).foldl (fun s p => setReg s (rGLB_KARG0 + 4 * p.2) p.1) s

/-- The mailbox holds eight words (R426). -/
def mailboxArgs (s : State) : List Word := (List.range 8).map fun k => regRaw s (rGLB_KARG0 + 4 * k)

/-- GLB_KCMD written with GO (R426, R437). -/
def mailboxGo (s : State) (code : Nat) : State :=
  keeperIssue (setFld s rGLB_KCMD 0 8 code) { src := .mailbox, code := code, args := mailboxArgs s }

/-- Whether a Secured session is open: without one there is no secure host (R419, R426). -/
def secureHost (s : State) : Bool := s.spdm.sessions.any (·.established)

/-- A command from one of the three sources (R426, R428). The mailbox's host writes the argument registers, then GLB_KCMD. -/
def commandFrom (s : State) (src : KSource) (o : KOp) (args : List Word) : State :=
  match src with
  | .mailbox => hostPageWrite s (Block.glb.page 0) fun s =>
      mailboxGo (setReg (putArgs s args) (Block.glb.reg 0 oSEAL) 0) o.code
  | .secure => if secureHost s then keeperIssue s { src := .secure, code := o.code, args := args } else s
  | .vc11 m => keeperIssue s { src := .vc11 m, code := o.code, args := args }

/-- REGION_SET (R422, R423, R427). -/
def execRegionSet (src : KSource) (args : List Word) (s : State) : Host.Outcome State Fault Refusal := .next (commandFrom s src .regionSet args)
/-- REGION_CLEAR (R423, R427). -/
def execRegionClear (src : KSource) (args : List Word) (s : State) : Host.Outcome State Fault Refusal := .next (commandFrom s src .regionClear args)
/-- REGION_READ (R422, R427, R483). -/
def execRegionRead (src : KSource) (args : List Word) (s : State) : Host.Outcome State Fault Refusal := .next (commandFrom s src .regionRead args)
/-- ADOPT (R429). -/
def execAdopt (src : KSource) (args : List Word) (s : State) : Host.Outcome State Fault Refusal := .next (commandFrom s src .adopt args)
/-- SET_DIGEST (R427). -/
def execSetDigest (src : KSource) (args : List Word) (s : State) : Host.Outcome State Fault Refusal := .next (commandFrom s src .setDigest args)
/-- SEC_WRITE (R427). -/
def execSecWrite (src : KSource) (args : List Word) (s : State) : Host.Outcome State Fault Refusal := .next (commandFrom s src .secWrite args)
/-- PAGE_WORLD (R420, R427). -/
def execPageWorld (src : KSource) (args : List Word) (s : State) : Host.Outcome State Fault Refusal := .next (commandFrom s src .pageWorld args)
/-- MGR_TRUST (R428). -/
def execMgrTrust (src : KSource) (args : List Word) (s : State) : Host.Outcome State Fault Refusal := .next (commandFrom s src .mgrTrust args)
/-- COMMIT_SVN (R427, R433). -/
def execCommitSvn (src : KSource) (args : List Word) (s : State) : Host.Outcome State Fault Refusal := .next (commandFrom s src .commitSvn args)
/-- REVOKE (R427, R430). -/
def execRevoke (src : KSource) (args : List Word) (s : State) : Host.Outcome State Fault Refusal := .next (commandFrom s src .revoke args)

/-- KEEPER_COMMAND_VC11 (R426, R428): any code, served only for the trusted manager. -/
def execKeeperCommandVc11 (manager : Nat) (code : BitVec 8) (args : List Word) (s : State) : Host.Outcome State Fault Refusal :=
  .next (keeperIssue s { src := .vc11 manager, code := code.toNat, args := args })

/-- The Keeper goes on with what waits, after a command that took time. -/
def nextCommand (s : State) (c : KCmd) (st : KStat) : State :=
  let s1 : State := { s with keeper := { s.keeper with running := none, adopting := none, scrub := [] } }
  let s2 := finishCmd s1 c st []
  serveAll s2 s2.keeper.waiting

/-- SCRUB_COMPLETE (R423): the granules that leave the secure world are 0, the entry changes, the region command is DONE. A
controller that accepts nothing holds the scrub up (R462). -/
def execScrubComplete (s : State) : Host.Outcome State Fault Refusal :=
  .next (match s.keeper.running, s.keeper.adopting with
    | some c, none =>
      if s.keeper.scrub.isEmpty || !s.keeper.scrub.all (fun p => tierOpen s (p.1 * regionUnit) ((p.2 - p.1) * regionUnit)) then s
      else
      let s1 := s.keeper.scrub.foldl scrubUnits s
      nextCommand (measureRegions (s1.setRegion (wordAt c.args 0).toNat (newRegion c))) c .done
    | _, _ => s)

/-- ADOPT_COMPLETE (R271, R429): the digest of the entry's first bytes decides; bytes that cannot be read do not match (log entry 128). A
controller that accepts nothing holds the hash up (R462). -/
def execAdoptComplete (s : State) : Host.Outcome State Fault Refusal :=
  .next (match s.keeper.running, s.keeper.adopting with
    | some c, some n =>
      let r := s.region n
      let data := s.gddr.read (r.base * regionUnit) (256 * (wordAt c.args 1).toNat)
      let (s1, good) := bytesFetched s (r.base * regionUnit) (256 * (wordAt c.args 1).toNat)
      if !tierOpen s (r.base * regionUnit) (256 * (wordAt c.args 1).toNat) then s
      else if good && sha384 data == argDigest c 2 then nextCommand (measureRegions (s1.setRegion n { r with secure := true })) c .done
      else nextCommand (measureRegions s1) c .mismatch
    | _, _ => s)

/-- A controller accepts work again: a SEC_WRITE that it refused is carried out, and the Keeper goes on (R396, R462). -/
def secResume (s : State) : State :=
  match s.keeper.running, s.keeper.adopting with
  | some c, none =>
    if s.keeper.scrub.isEmpty && tierOpen s (argAddr c) (secLen c) then nextCommand (secStore s c) c .done else s
  | _, _ => s

/-- SELF_REFRESH_EXIT_DONE (R445): GDDR7 serves again, and what has waited completes: host accesses, and a SEC_WRITE. -/
def execSelfRefreshExitDone (s : State) : Host.Outcome State Fault Refusal :=
  .next (if regFld s rCPW_DSTATE 2 1 = 0 then s else secResume (serveWaiting (setFld s rCPW_DSTATE 2 1 0)))

end Sys2Proof.Machine
end

