-- ==== Sys2Proof/Machine/Spdm.lean ====
section
/-! DEFINITION. The DOE mailboxes (R414), SPDM attestation and sessions (R435, R436), and Keeper commands in a session (R426). -/

namespace Sys2Proof.Machine

/-! ### DOE -/

/-- Whether an instance serves an object: DOE0 once KFW has started and the function is ready; DOE1 after BOOT in the CXL modes alone (R414,
R415, R433, R453). -/
def doeServes (s : State) (doe : Nat) : Bool :=
  s.host.mode != 0 && kfwServes s && s.host.ready && (doe == 0 || (doe == 1 && decide (s.host.mode ≤ 3) && s.dev != .boot))

/-- An instance that takes an object lets go of the response that it held. -/
def takeObject (s : State) (doe : Nat) : State :=
  let p : Spdm := { s.spdm with doeBusy := SMap.set false s.spdm.doeBusy doe false }
  { s with spdm := if doe = 0 then { p with resp := "", data := [] } else { p with resp1 := "", data1 := [] } }

/-- An object for an instance, of a number of bytes: one above 64 KiB ends in a DOE error, and one that comes while the instance still works
on another is not taken (R414). -/
def doeObject (s : State) (doe bytes : Nat) (f : State → State) : State :=
  if !doeServes s doe || (doe == 0 && s.spdm.flight) then s
  else if 65536 < bytes then answer (takeObject s doe) doe "DOE ERROR" []
  else f (takeObject s doe)

/-- DISCOVERY (R414). -/
def execDiscovery (doe : Nat) (s : State) : Host.Outcome State Fault Refusal :=
  .next (doeObject s doe 0 fun s =>
    answer s doe (if doe = 0 then "DISCOVERY, CMA/SPDM, SECURED CMA/SPDM" else "DISCOVERY, CXL TABLE ACCESS") (Config.doeBytes "DISCOVERY" [doe]))

/-- CXL_TABLE_ACCESS (R403, R414): one DSMAS entry for the HDM range; 600 ns read, 400 ns write, 60 GB/s. -/
def execCxlTableAccess (s : State) : Host.Outcome State Fault Refusal :=
  .next (doeObject s 1 0 fun s => answer s 1 "CDAT" (Config.doeBytes "CDAT" [1600143753216, 600, 400, 60]))

/-- DOE_ABORT (R414): the object in flight is discarded. -/
def execDoeAbort (doe : Nat) (s : State) : Host.Outcome State Fault Refusal :=
  .next (if doeServes s doe then
      let t := takeObject s doe
      if doe = 0 then { t with spdm := { t.spdm with flight := false } } else t
    else s)

/-! ### SPDM requests (R435) -/

/-- A request on DOE0 that comes after the negotiation it needs; without it, or in RMA, the answer is an error (R430, R435). -/
def spdmRequest (s : State) (ready : Bool) (bytes : Nat) (f : State → State) : State :=
  doeObject s 0 bytes fun s =>
    if s.fuse.lifecycle = lifeRMA ∨ ready = false then answer s 0 "ERROR" [] else f s

/-- GET_VERSION: negotiation begins again. -/
def execGetVersion (s : State) : Host.Outcome State Fault Refusal :=
  .next (spdmRequest s true 0 fun s =>
    answer { s with spdm := { s.spdm with version := true, caps := false, algs := false } } 0 "VERSION 1.3" (Config.doeBytes "VERSION" []))

/-- GET_CAPABILITIES. -/
def execGetCapabilities (s : State) : Host.Outcome State Fault Refusal :=
  .next (spdmRequest s s.spdm.version 0 fun s =>
    answer { s with spdm := { s.spdm with caps := true } } 0 "CAPABILITIES" (Config.doeBytes "CAPABILITIES" []))

/-- NEGOTIATE_ALGORITHMS: P-384, SHA-384, secp384r1, AES-256-GCM. -/
def execNegotiateAlgorithms (s : State) : Host.Outcome State Fault Refusal :=
  .next (spdmRequest s s.spdm.caps 0 fun s =>
    answer { s with spdm := { s.spdm with algs := true } } 0 "ALGORITHMS P-384, SHA-384, SECP384R1, AES-256-GCM" (Config.doeBytes "ALGORITHMS" []))

/-- GET_DIGESTS. -/
def execGetDigests (s : State) : Host.Outcome State Fault Refusal :=
  .next (spdmRequest s s.spdm.algs 0 fun s => answer s 0 "DIGESTS" (Config.doeBytes "DIGESTS" [0]))

/-- The chain of certificate slot 0: root and intermediate, the DeviceID's from boot flash, and the Alias's where there is one (R434,
R435). -/
def certificateChain (s : State) : List Byte :=
  match s.keeper.identity with
  | none => []
  | some i => Config.doeBytes "CERTIFICATE" [0] ++ Config.certificate "DEVICEID" i.deviceId [] ++ i.aliasCert

/-- GET_CERTIFICATE: slot 0 holds the chain, other slots are empty. -/
def execGetCertificate (slot offset len : Nat) (s : State) : Host.Outcome State Fault Refusal :=
  .next (spdmRequest s s.spdm.algs 0 fun s =>
    answer s 0 "CERTIFICATE" (if slot = 0 then ((certificateChain s).drop offset).take len else []))

/-- An answer that the Alias key signs; without an Alias key it is an error (R433, R435). -/
def signedAnswer (s : State) (resp : String) (body : List Byte) (f : State → State) : State :=
  match s.keeper.identity.bind (·.cdi) with
  | some cdi => answer (f s) 0 resp (body ++ Config.sign cdi body)
  | none => answer s 0 "ERROR" []

/-- CHALLENGE: the Alias key signs CHALLENGE_AUTH; an empty slot is an error. -/
def execChallenge (slot : Nat) (nonce : BitVec 256) (s : State) : Host.Outcome State Fault Refusal :=
  .next (spdmRequest s s.spdm.algs 0 fun s =>
    if slot = 0 then signedAnswer s "CHALLENGE_AUTH" (Config.doeBytes "CHALLENGE_AUTH" [nonce.toNat]) id else answer s 0 "ERROR" [])

/-- The blocks that an index asks for: 0xFF all seven, 1 to 7 one of them; 0 asks for their number (log entry 15). -/
def measurementData (s : State) (index : Nat) : List Byte :=
  if index = 0 then [7]
  else if index = 0xFF then (List.range 7).flatMap fun i => natBe 48 (measurement s (i + 1)).toNat
  else natBe 48 (measurement s index).toNat

/-- GET_MEASUREMENTS (R436). -/
def execGetMeasurements (index : Nat) (signed : Bool) (s : State) : Host.Outcome State Fault Refusal :=
  .next (spdmRequest s s.spdm.algs 0 fun s =>
    if 7 < index ∧ index ≠ 0xFF then answer s 0 "ERROR" []
    else
      let d := measurementData s index
      if signed then signedAnswer s "MEASUREMENTS" (d ++ Config.doeBytes "MEASUREMENTS" [index]) id else answer s 0 "MEASUREMENTS" d)

/-! ### Sessions -/

/-- KEY_EXCHANGE: at most two sessions; a third is answered Busy. -/
def execKeyExchange (exchange : List Byte) (s : State) : Host.Outcome State Fault Refusal :=
  .next (spdmRequest s s.spdm.algs exchange.length fun s =>
    if 2 ≤ s.spdm.sessions.length then answer s 0 "ERROR BUSY" []
    else
      let n := s.spdm.nextId
      signedAnswer s "KEY_EXCHANGE_RSP" (natLe 4 n ++ Config.doeBytes "KEY_EXCHANGE_RSP" (n :: exchange.map (·.toNat))) fun s =>
        { s with spdm := { s.spdm with sessions := s.spdm.sessions ++ [{ id := n, established := false, keys := 0 }], nextId := n + 1 } })

/-- Change one session. -/
def onSession (s : State) (n : Nat) (f : Session → Session) : State :=
  { s with spdm := { s.spdm with sessions := s.spdm.sessions.map fun x => if x.id = n then f x else x } }

/-- A session ends (R435). -/
def endSession (s : State) (n : Nat) : State :=
  { s with spdm := { s.spdm with sessions := s.spdm.sessions.filter fun x => x.id != n } }

/-- Whether a session's handshake is complete. -/
def sessionOpen (s : State) (n : Nat) : Bool := s.spdm.sessions.any fun x => x.id == n && x.established

/-- FINISH: the handshake of a session is complete, if its verify data is right; else the session ends. -/
def execFinish (session : Nat) (verify : List Byte) (s : State) : Host.Outcome State Fault Refusal :=
  .next (spdmRequest s s.spdm.algs verify.length fun s =>
    if !s.spdm.sessions.any (fun x => x.id == session && !x.established) then answer s 0 "ERROR" []
    else if Config.finishVerify session verify then
      answer (onSession s session fun x => { x with established := true }) 0 "FINISH_RSP" (Config.doeBytes "FINISH_RSP" [session])
    else answer (endSession s session) 0 "ERROR" [])

/-- A request inside a session. -/
def inSession (s : State) (session bytes : Nat) (f : State → State) : State :=
  spdmRequest s (sessionOpen s session) bytes f

/-- SPDM_HEARTBEAT. -/
def execSpdmHeartbeat (session : Nat) (s : State) : Host.Outcome State Fault Refusal :=
  .next (inSession s session 0 fun s => answer s 0 "HEARTBEAT_ACK" (Config.doeBytes "HEARTBEAT_ACK" [session]))

/-- SESSION_HEARTBEAT_TIMEOUT. -/
def execSessionHeartbeatTimeout (session : Nat) (s : State) : Host.Outcome State Fault Refusal := .next (endSession s session)

/-- KEY_UPDATE. -/
def execKeyUpdate (session : Nat) (s : State) : Host.Outcome State Fault Refusal :=
  .next (inSession s session 0 fun s =>
    answer (onSession s session fun x => { x with keys := x.keys + 1 }) 0 "KEY_UPDATE_ACK" (Config.doeBytes "KEY_UPDATE_ACK" [session]))

/-- END_SESSION. -/
def execEndSession (session : Nat) (s : State) : Host.Outcome State Fault Refusal :=
  .next (inSession s session 0 fun s => answer (endSession s session) 0 "END_SESSION_ACK" (Config.doeBytes "END_SESSION_ACK" [session]))

/-- VENDOR_DEFINED_REQUEST (R426): the secure host's Keeper command. The answer comes when the command has ended, with its outcome and what it
returns; until then DOE0 holds the request. -/
def execVendorDefinedRequest (session : Nat) (code : BitVec 8) (args : List Word) (s : State) : Host.Outcome State Fault Refusal :=
  .next (inSession s session (4 * args.length) fun s =>
    keeperIssue { s with spdm := { s.spdm with flight := true } } { src := .secure, code := code.toNat, args := args, viaDoe := true })

end Sys2Proof.Machine
end

