-- ==== Sys2Proof/Machine/Links.lean ====
section
/-! DEFINITION. Link ports (R339 to R343, R352), the delivery and forwarding of link messages (R346 to R349), checkpoint mirrors at the
buddy (R356 to R358), the commit epoch at a worker, and what arrives for streams, ledgers and mirrors (R311, R327, R328). -/

namespace Sys2Proof.Machine

/-! ### Ports (R340, R341, R352) -/

/-- Whether a port is up. -/
def portUp (s : State) (p : Nat) : Bool := regFld s (rLNK_STAT p) 1 1 == 1

/-- UP, GEN, LPI and PEER_LPI of LNK_STAT (R370). -/
def setPortStat (s : State) (p up gen : Nat) : State :=
  setFld (setFld (setFld (setFld s (rLNK_STAT p) 1 1 up) (rLNK_STAT p) 2 2 gen) (rLNK_STAT p) 4 1 0) (rLNK_STAT p) 5 1 0

/-- LINK_TRAIN_DONE (R340, R370): the port is up at the generation both ends support, and knows its partner. -/
def execLinkTrainDone (port gen : Nat) (peer : BitVec 15) (peerPort : BitVec 4) (s : State) : Host.Outcome State Fault Refusal :=
  .next (if s.inReset || portUp s port || !(s.port port).training || !accepts s (Block.lnk.page port) || !(gen == 1 || gen == 2) then s
    else
      let s1 := setPortStat (s.setPort port { s.port port with training := false, fails := 0, slot := 0, rr := 0, replay := [], gone := [], used := [] }) port 1 gen
      setIstat (setReg s1 (rLNK_PEER port) (BitVec.ofNat 32 (peer.toNat + peerPort.toNat * 2 ^ 15))) (Block.lnk.page port) 2)

/-- LINK_TRAIN_RETRY (R340, R345, R462): a port that is down trains again while it is enabled, not drained, and has a partner. -/
def execLinkTrainRetry (port : Nat) (s : State) : Host.Outcome State Fault Refusal :=
  .next (if s.inReset || s.keeper.recovering || portUp s port || !portTrains s port then s
    else s.setPort port { s.port port with training := true })

/-- A port goes down (R340, R370): it trains again while it may. The ledger units and stage-stream messages that wait there were for a lost
device, or for a job that has lost its route, and are discarded (R372). -/
def portDown (s : State) (p : Nat) : State :=
  if !portUp s p then s
  else
    let x := (s.port p).without fun m => decide (m.vc ≤ 9)
    setIstat (setPortStat (s.setPort p { x with training := portTrains s p, fails := 0, replay := [] }) p 0 0) (Block.lnk.page p) 1

/-- This device's own link address (R346): a manager's number, or the worker ID. -/
def ownAddr (s : State) : Nat := if s.mgrRole then 0x4000 + regFld s rLNK_WID 16 8 else ownWid s

/-- A message over VC 10 to this device's manager. -/
def toManager (s : State) (what : String) (words : List Nat) : State :=
  linkSend s { dest := managerAddr s, src := ownAddr s, vc := 10, what := what, words := words }

/-- A port's link is lost: it is down, and LOSS of its partner, with the port, is reported (R341, R360). -/
def linkLost (s : State) (p : Nat) : State := toManager (portDown s p) "loss" [regFld s (rLNK_PEER p) 0 15, p]

/-- Failed resends in a row after which the link is lost (R341). -/
def maxResends : Nat := 16

/-- LINK_DOWN (R341). -/
def execLinkDown (port : Nat) (s : State) : Host.Outcome State Fault Refusal :=
  .next (if portUp s port && decide (maxResends ≤ (s.port port).fails) then linkLost s port else s)

/-- ELECTRICAL_IDLE_LOSS (R352, R360): 2 µs of electrical idle without a notice. -/
def execElectricalIdleLoss (port : Nat) (s : State) : Host.Outcome State Fault Refusal :=
  .next (if portUp s port && regFld s (rLNK_STAT port) 5 1 == 0 then linkLost s port else s)

/-- FLIT_RESEND (R341): the flit in the replay buffer is sent again; `failed` tells that it is still in error. -/
def execFlitResend (port : Nat) (failed : Bool) (s : State) : Host.Outcome State Fault Refusal :=
  let x := s.port port
  .next (if portUp s port && !x.replay.isEmpty then
      setIstat (satAdd (s.setPort port { x with fails := if failed then x.fails + 1 else 0 }) (rLNK_ERR port) 0 16 1) (Block.lnk.page port) 4
    else s)

/-- A worker whose partner's port goes to low-power idle by notice, or leaves it, tells the manager, which sees the ports of shelf heads alone
(R352, R372; log entry 131). -/
def tellRest (s : State) (p : Nat) (what : String) : State :=
  if s.mgrRole then s else toManager s what [regFld s (rLNK_PEER p) 0 15]

/-- LPI_NOTICE (R352): this device's port announces low-power idle, in D-SLEEP and with CPW_IDLE.LPI set; or its partner does. -/
def execLpiNotice (port : Nat) (own : Bool) (s : State) : Host.Outcome State Fault Refusal :=
  .next (if !portUp s port then s
    else if own then
      (if regFld s rCPW_IDLE 8 1 == 1 && regFld s rCPW_DSTATE 0 2 == 0 then
        let n : LinkMsg := { dest := regFld s (rLNK_PEER port) 0 15, src := ownAddr s, vc := 10, what := "lpi", words := [] }
        setFld (s.setPort port { s.port port with replay := [n] }) (rLNK_STAT port) 4 1 1
      else s)
    else tellRest (setFld s (rLNK_STAT port) 5 1 1) port "resting")

/-- PORT_WAKE (R352): the partner's wake signal ends low-power idle at both ends. -/
def execPortWake (port : Nat) (s : State) : Host.Outcome State Fault Refusal :=
  let s1 := setFld (setFld s (rLNK_STAT port) 4 1 0) (rLNK_STAT port) 5 1 0
  .next (if regFld s (rLNK_STAT port) 5 1 = 1 then tellRest s1 port "awake" else s1)

/-! ### Flit slots (R343) -/

/-- The VC that owns a slot of the frame; none for slot 15. -/
def slotOwner (slot : Nat) : Option Nat :=
  match slot with
  | 0 => some 10 | 4 => some 10 | 8 => some 10 | 12 => some 10
  | 1 => some 0 | 2 => some 1 | 3 => some 2 | 5 => some 3 | 6 => some 4 | 7 => some 5 | 9 => some 6 | 10 => some 7
  | 11 => some 8 | 13 => some 9 | 14 => some 11
  | _ => none

/-- Bytes of a message's payload: the bytes that a data message carries after its header fields, a copied slot's size, else four bytes a
word. -/
def msgPayload (m : LinkMsg) : Nat :=
  if m.what = "streamData" then m.words.length - 5
  else if m.what = "ledgerUnit" ∨ m.what = "mirror" then m.words.length - 6
  else if m.what = "image" then m.words.length - 1
  else if m.what = "copy" then m.words.getD 2 0
  else 4 * m.words.length

/-- Flits of a message: up to 256 B of payload each (R341), and one on VC 10 (R342). -/
def msgFlits (m : LinkMsg) : Nat := if m.vc = 10 then 1 else Nat.max 1 (ceilDiv (msgPayload m) 256)

/-- Flits of a receive buffer, for each VC (R341). -/
def vcCredits : Nat := 32

/-- Flits that a port output holds of the receive buffer of port p for a VC: those of messages that came by p and have still to leave. -/
def Port.flitsFrom (x : Port) (p vc : Nat) : Nat :=
  let total := (x.out.filter fun m => m.vc == vc && m.port == some p).foldl (fun n m => n + msgFlits m) 0
  match x.head vc with
  | some m => if m.port = some p then total - SMap.get 0 x.gone vc else total
  | none => total

/-- Places left in this device's receive buffer of a port and VC, which are the credits that the partner has from it (R341): a flit gives its
place back when it leaves, or is delivered here. -/
def placesLeft (s : State) (p vc : Nat) : Nat := vcCredits - s.ports.foldl (fun n q => n + q.2.flitsFrom p vc) 0

/-- Whether a message is there to be routed: one of this device's own waits, or one that comes by a port that is up has its places in the
port's buffer; the flits of a longer message follow as those before them leave (R341; log entry 108). -/
def arrives (s : State) (m : LinkMsg) : Bool :=
  match m.port with
  | some p => portUp s p && decide (Nat.min vcCredits (msgFlits m) ≤ placesLeft s p m.vc)
  | none => s.linkOut.contains m

/-- Whether a VC has an eligible flit: a message waits, and a credit is there (R341). -/
def Port.has (x : Port) (vc : Nat) : Bool := (x.head vc).isSome && decide (SMap.get 0 x.used vc < vcCredits)

/-- The VC that an open slot goes to: VC 10 first, then the others by round robin. -/
def Port.openVc (x : Port) : Option Nat :=
  if x.has 10 then some 10 else ((List.range 12).map fun i => (x.rr + i) % 12).find? x.has

/-- The VC that a slot grants, and the round-robin pointer after it. -/
def Port.grantVc (x : Port) : Option Nat × Nat :=
  match slotOwner x.slot with
  | some v => if x.has v then (some v, x.rr) else
      (match x.openVc with | some w => (some w, if w = 10 then x.rr else (w + 1) % 12) | none => (none, x.rr))
  | none => match x.openVc with | some w => (some w, if w = 10 then x.rr else (w + 1) % 12) | none => (none, x.rr)

/-- Credits that the partner has given back by a flit time (R341; log entry 108). -/
def Port.credited (x : Port) (draw : Nat) : Port :=
  { x with used := (List.range 12).foldl (fun m v => SMap.set 0 m v (SMap.get 0 m v - Config.creditsBack draw v)) x.used }

/-- One flit of a VC's first message leaves, against a credit; with its last flit the message has left. -/
def Port.sendFlit (x : Port) (vc : Nat) : Port :=
  match x.head vc with
  | none => x
  | some m =>
    let y : Port := { x with replay := [m], fails := 0, used := SMap.set 0 x.used vc (SMap.get 0 x.used vc + 1) }
    if SMap.get 0 x.gone vc + 1 < msgFlits m then { y with gone := SMap.set 0 x.gone vc (SMap.get 0 x.gone vc + 1) }
    else { y with gone := SMap.set 0 x.gone vc 0, out := match takeFirst (fun (n : LinkMsg) => n.vc == vc) x.out with | some (_, r) => r | none => x.out }

/-- LINK_FLIT_GRANT (R343): one flit time of a port output. -/
def execLinkFlitGrant (port : Nat) (s : State) : Host.Outcome State Fault Refusal :=
  .next (if !portUp s port || !accepts s (Block.lnk.page port) then s
    else
      let x := (s.port port).credited s.free
      let x1 : Port := { x with slot := (x.slot + 1) % 16 }
      (drew s 1).setPort port (match x.grantVc with
        | (some v, rr) => { x1 with rr := rr }.sendFlit v
        | (none, _) => x1))

/-! ### What a message carries to its destination -/

/-- Bytes at the end of a message's words. -/
def msgBytes (ws : List Nat) : List Byte := ws.map (BitVec.ofNat 8)

/-- Another device announces an SSEND (R326, R327; log entry 109): it joins the stream that this device's folio declares with that source; a
stream that it does not declare so is a misrouted one. -/
def streamOpen (s : State) (m : LinkMsg) : State :=
  match m.words with
  | n :: _ :: tile :: tag :: len :: _ =>
    match streamDecl s n with
    | some (rt, w, t) =>
      if w = m.src ∧ t = tile then
        addEnd s n { s.stream n with sendSite := none, recvSite := placedSite s rt } true
          { site := noSite, q := 0, id := 0, tag := tag, len := len, seen := 0 }
      else raiseFault s 0x10 n noSite
    | none => raiseFault s 0x10 n noSite
  | _ => s

/-- A granule of the j-th SSEND of a stream of another device (R327, R328): it sets out to the landing area of the j-th SRECV. From a
non-secure job it does not reach a secure tile (R424). -/
def streamData (s : State) (m : LinkMsg) : State :=
  match m.words with
  | n :: _ :: j :: idx :: secure :: bytes =>
    match (s.stream n).recvs[j]? with
    | none => s
    | some e =>
      if secure = 0 ∧ pageSecure s (Block.til.page e.site) then
        streamSeen (xlogPage s .link true (Block.til.page e.site * 0x1000)) n e.site e.q e.id
      else match (s.tile e.site).request e.q e.id with
        | some r => sendTo s e.site [{ addr := addr21 (Int.ofNat (r.laddr + 32 * idx)), data := msgBytes bytes,
                                       owner := .stream n e.q e.id, slip := 0, win := 0, off := 0 }]
        | none => streamSeen s n e.site e.q e.id
  | _ => s

/-- Another device announces an SSEND after this device's part of the job has ended: where the halted tile has left it without a partner,
the other device learns so, and faults the job (R329; log entry 129). -/
def lateOpen (s : State) (m : LinkMsg) : State :=
  match m.words with
  | n :: _ :: _ :: tag :: len :: _ =>
    let st := s.stream n
    let e : StreamEnd := { site := noSite, q := 0, id := 0, tag := tag, len := len, seen := 0 }
    let s1 : State := { s with streams := SMap.set Stream.empty s.streams n (st.join true e) }
    if st.recvs.length ≤ st.sends.length then
      linkSend s1 { dest := m.src, src := ownWid s, vc := 9, what := "streamUnmatched", words := [n] }
    else s1
  | _ => s

/-- A granule of such an SSEND is discarded, and acknowledged (R328, R338). -/
def lateData (s : State) (m : LinkMsg) : State :=
  match m.words with
  | n :: x :: j :: _ => granuleSeen s n j m.src x
  | _ => s

/-- What a message of a job's streams does: a device that takes part carries it out, one whose part has ended as above. -/
def streamMessage (s : State) (m : LinkMsg) (now late : State → LinkMsg → State) : State :=
  if takesTraffic s then now s m else if s.rgs.past.contains m.src then late s m else s

/-- The acknowledgement of a forwarded ledger unit returns to the tile that sent it (R311, R314). -/
def ledgerAck (s : State) (m : LinkMsg) : State :=
  match m.words with
  | addr :: count :: _ =>
    match takeFirst (fun (u : UnitMsg) => 256 * u.unit + 32 * u.first == addr && u.count == count && u.rg == m.vc) s.forwarded with
    | some (u, rest) => ackUnit { s with forwarded := rest } u
    | none => s
  | _ => s

/-- The buddy acknowledges a mirrored unit; with its own write it makes the GWRITE's granules done (R356). -/
def mirrorAck (s : State) (m : LinkMsg) : State :=
  match m.words, localRange s with
  | off :: count :: _, some (b, _) =>
    match takeFirst (fun (u : UnitMsg) => 256 * u.unit + 32 * u.first == b + off && u.count == count) s.ckpt.mirrored with
    | some (u, rest) => ackUnit { s with ckpt := { s.ckpt with mirrored := rest } } u
    | none => s
  | _, _ => s

/-! ### What a manager has a worker do (R353, R361, R362, R370) -/

/-- A manager's write of a register of the LNK0 page: the write clears the page's SEAL (R370, R382). -/
def mgrWrite (s : State) (off v : Nat) : State := clearSeal (setReg s off (BitVec.ofNat 32 v)) (Block.lnk.page 0)

/-- Worker IDs that name workers; the others of 14 bits are reserved, and never assigned (R5). -/
def workerIds : Nat := 10000

/-- LNK_WID of a spare: the lost worker's ID (R362). -/
def takeWid (s : State) (w : Nat) : State :=
  if workerIds ≤ w then s else clearSeal (setFld (setFld s rLNK_WID 0 14 w) rLNK_WID 14 1 1) (Block.lnk.page 0)

/-- LNK_BUDDY, LNK_LOCAL, LNK_HELD and LNK_SHARD, and after them LNK_CKPT where it is given (R362, R370). -/
def takeCkpt (s : State) (ws : List Nat) : State :=
  (([rLNK_BUDDY, rLNK_LOCAL, rLNK_HELD, rLNK_SHARD, rLNK_CKPT].zip ws)).foldl (fun s p => mgrWrite s p.1 p.2) s

/-- The manager writes the page's SEAL after its last write (R461). -/
def sealLnk (s : State) : State := setReg s (Block.lnk.reg 0 oSEAL) (crc32c (sealBytes s .lnk 0))

/-- The two slots of the local range, as far as LNK_SHARD gives them a size (R356): first slot and size. -/
def localSlots (s : State) : Option (Nat × Nat) :=
  let size := regFld s rLNK_SHARD 0 14
  if size = 0 then none else some (regFld s rLNK_LOCAL 0 17 * regionUnit, size * regionUnit)

/-- A word of both slot headers of the local range. -/
def slotWords (s : State) (word : Nat) (v : Nat) : State :=
  match localSlots s with
  | some (b, n) => gddrWrite (gddrWrite s (b + 4 * word) (natLe 4 v)) (b + n + 4 * word) (natLe 4 v)
  | none => s

/-- SEAL := 0 in both slot headers of the local range (R353, R357). -/
def unsealSlots (s : State) : State := slotWords { s with ckpt := { s.ckpt with sealedAt := [] } } 2 0

/-- A circulation entry that a manager writes: its words but for word 0, which the Registrar writes; and what is known of the relayed job:
lead manager, number, workers, hops (R350, R353, R373). -/
def takeCirc (s : State) (entry : Nat) (r : Relayed) (ws : List Word) : State :=
  let s1 := gddrWrite s (circAddr s entry + 4) (wordsLe ((ws ++ List.replicate 16 0).take 16 |>.drop 1))
  { s1 with rgs := { s1.rgs with relayed := SMap.put s1.rgs.relayed entry r } }

/-- The words of an entry message. -/
def entryWords (entry : Nat) (r : Relayed) (ws : List Word) : List Nat :=
  [entry, r.lead, r.job, r.workers.length] ++ r.workers ++ [r.hops.length] ++ r.hops.flatMap (fun h => [h.1, h.2]) ++ ws.map (·.toNat)

/-- Numbers taken two by two. -/
def pairsOf : List Nat → List (Nat × Nat)
  | a :: b :: rest => (a, b) :: pairsOf rest
  | _ => []

/-- An entry message is carried out. -/
def takeEntryMsg (s : State) (ws : List Nat) : State :=
  match ws with
  | entry :: lead :: job :: n :: rest =>
    let k := (rest.drop n).headD 0
    let tail := rest.drop (n + 1)
    takeCirc s entry { lead := lead, job := job, workers := rest.take n, hops := pairsOf (tail.take (2 * k)) }
      ((tail.drop (2 * k)).map (BitVec.ofNat 32))
  | _ => s

/-- The units of a range of GDDR7 that hold an uncorrectable granule. -/
def badUnitsIn (s : State) (lo hi : Nat) : List Nat :=
  ((s.ecc.filter fun p => p.2 == .uncorrectable && decide (lo ≤ 32 * p.1) && decide (32 * p.1 < hi)).map fun p => p.1 / 8).eraseDups

/-- The bytes of a range that are not 0, as offset and value, in ascending order. -/
def cellsIn (s : State) (lo hi : Nat) : List Nat :=
  (s.gddr.filter fun p => decide (lo ≤ p.1) && decide (p.1 < hi)).flatMap fun p => [p.1 - lo, p.2.toNat]

/-- A copy of a takeover leaves: `slot` of this device's held or local range goes to the spare, which now is worker `w`, for the range there
whose base the message names: its local range (`held` 0) or its held range (1) (R362). It is not checked against region kinds. An
uncorrectable unit ends the copy, which the manager is told (R364). -/
def sendCopy (s : State) (m : LinkMsg) (base held : Nat) : State :=
  let w := m.words.getD 0 0
  let size := regFld s rLNK_SHARD 0 14 * regionUnit
  let lo := base + m.words.getD 1 0 * size
  let bad := badUnitsIn s lo (lo + size)
  if bad.isEmpty then
    linkSend s { dest := w, src := ownAddr s, vc := 11, what := "copy", words := [m.words.getD 2 0, m.words.getD 1 0, size] ++ cellsIn s lo (lo + size) }
  else linkSend (bad.foldl (fun s u => countUE s (mcOf u)) s)
    { dest := m.src, src := ownAddr s, vc := 11, what := "copyFailed", words := [w, held + 1] }

/-- A copied slot arrives at the spare, at the range base that the message names: the slot's bytes are those of the copy, with fresh check
symbols. -/
def takeCopy (s : State) (ws : List Nat) : State :=
  match ws with
  | base :: slot :: size :: cells =>
    let lo := base % 2 ^ 17 * regionUnit + slot * size
    let g0 := (s.gddr.clear lo (lo + size))
    let g := (pairsOf cells).foldl (fun m p => m.write (lo + p.1) [BitVec.ofNat 8 p.2]) g0
    { s with gddr := g, ecc := s.ecc.filter fun q => !(decide (lo ≤ 32 * q.1) && decide (32 * q.1 < lo + size)) }
  | _ => s

/-! ### Chronicle time between devices (R366, R368) -/

/-- The chronicle in nanoseconds, as a stamp. -/
def chronNs (s : State) : Int := Int.ofNat (s.chron.sec * 1000000000 + s.chron.ns)

/-- A census entry goes to the manager that reads it (R355): the one that CEN_LAST shows. -/
def censusAnswer (s : State) (m : LinkMsg) : State :=
  if cenDepth s = 0 ∨ regFld s rCEN_STAT 0 1 = 0 then s
  else
    let a := regFld s rCEN_TABLE 0 20 * 0x200000 + (regRaw s rCEN_LAST).toNat % 2 ^ cenDepth s * 2048
    linkSend s { dest := m.src, src := ownAddr s, vc := 11, what := "censusData", words := (leWords 512 (s.gddr.read a 2048)).map (·.toNat) }

/-- A hold action of a manager, on an entry that it relayed (R376): 1 RETRY, 2 DISCARD. -/
def managerHold (s : State) (m : LinkMsg) : State :=
  match s.rgs.cur.bind (SMap.find s.rgs.relayed) with
  | some r =>
    if m.src ≠ 0x4000 + r.lead % 256 then s
    else if m.words.head? = some 1 then clearSeal (holdRetry s) (Block.rgs.page 0)
    else if m.words.head? = some 2 then clearSeal (holdDiscard s) (Block.rgs.page 0)
    else s
  | none => s

/-- What a manager's message does on the worker that takes it (R353, R362, R370). -/
def managed (s : State) (m : LinkMsg) : State :=
  if m.what = "wid" then takeWid s (m.words.getD 0 0)
  else if m.what = "image" then (match m.words with | a :: bytes => gddrWrite (wake s) a (msgBytes bytes) | [] => s)
  else if m.what = "ckptRegs" then takeCkpt s m.words
  else if m.what = "unseal" then unsealSlots (wake s)
  else if m.what = "ckptCommit" then mgrWrite s rLNK_CKPT (m.words.getD 0 0)
  else if m.what = "commitWord" then slotWords (wake s) 5 (m.words.getD 0 0)
  else if m.what = "seal" then sealLnk s
  else if m.what = "entry" then takeEntryMsg (wake s) m.words
  else if m.what = "copyHeld" then sendCopy (wake s) m (regFld s rLNK_HELD 0 17 * regionUnit) 0
  else if m.what = "copyLocal" then sendCopy (wake s) m (regFld s rLNK_LOCAL 0 17 * regionUnit) 1
  else if m.what = "copy" then takeCopy (wake s) m.words
  else if m.what = "censusRead" then censusAnswer s m
  else if m.what = "configRead" then
    linkSend s { dest := m.src, src := ownAddr s, vc := 11, what := "config", words := [(regRead s (Block.glb.reg 0 0x040)).toNat] }
  else if m.what = "holdact" then managerHold s m
  else s

/-- What a delivered message does of itself. A message whose effect is a command of its own (bell, job, fault, seal, commit, route, register
and Keeper messages) does nothing more here. -/
def deliver (s : State) (m : LinkMsg) : State :=
  if m.what = "streamOpen" then streamMessage s m streamOpen lateOpen
  else if m.what = "streamData" then streamMessage s m streamData lateData
  else if m.what = "streamUnmatched" then
    (if jobRuns s && s.rgs.workers.contains m.src then raiseFault s 0x12 (m.words.getD 0 0) noSite else s)
  else if m.what = "ledgerAck" then ledgerAck s m
  else if m.what = "mirrorAck" then mirrorAck s m
  else if m.what = "mirrorRefused" then raiseFault s 0x13 0 noSite
  else if m.what = "heartbeat" ∧ s.mgrRole then
    linkSend { s with mgr := { s.mgr with missed := SMap.set 0 s.mgr.missed m.src 0 } }
      { dest := m.src, src := ownAddr s, vc := 10, what := "heartbeatReply", words := [] }
  else if m.what = "heartbeatReply" then setFld s (rLNK_STAT 0) 6 1 0
  else if m.what = "probe" then linkSend s { dest := m.src, src := ownAddr s, vc := 10, what := "probeAnswer", words := [] }
  else if s.dev = .boot ∨ s.mgrRole then s
  else managed s m

/-! ### Routing (R346, R347) -/

/-- Whether a message is for this device: its destination is LNK_WID, or on a manager its number. A device without a worker ID takes the
message that gives it one (R347, R362; log entry 92). -/
def isOwn (s : State) (m : LinkMsg) : Bool :=
  if m.dest < 0x4000 then
    (if regFld s rLNK_WID 14 1 = 1 then regFld s rLNK_WID 0 14 == m.dest else m.what == "wid" && !s.mgrRole)
  else s.mgrRole && regFld s rLNK_WID 16 8 == m.dest % 256

/-- The route-table entry of a destination. -/
def routeEntry (s : State) (dest : Nat) : Word := SMap.get 0 s.route (if dest < 0x4000 then dest else 0x4000 + dest % 256)

/-- The output port of a message: PORT, or ALT where PORT is down and the VC may use it. -/
def routePort (s : State) (m : LinkMsg) : Nat :=
  let e := routeEntry s m.dest
  if !portUp s (fld e 0 4) && (m.vc == 10 || m.vc == 11) && bit e 9 then fld e 5 4 else fld e 0 4

/-- The tile whose request a message of this device belongs to (R393). -/
def msgSite (m : LinkMsg) : Nat :=
  if m.what = "streamData" ∨ m.what = "streamOpen" ∨ m.what = "streamReady" ∨ m.what = "streamAck" then m.words.getD 1 noSite
  else if m.what = "mirror" ∨ m.what = "ledgerUnit" then m.words.getD 2 noSite
  else noSite

/-- A message without a route is discarded and counted; at its source it faults the job, in transit it is reported to the manager (R347). -/
def dropMessage (s : State) (m : LinkMsg) : State :=
  let s1 := setIstat (satAdd s (rLNK_ERR 0) 16 16 1) (Block.lnk.page 0) 8
  if m.src = ownAddr s then raiseFault s1 0x14 0 (msgSite m) else toManager s1 "noroute" [m.src]

/-- A message waits at a port; one in low-power idle wakes (R352). -/
def enqueue (s : State) (p : Nat) (m : LinkMsg) : State :=
  setFld (s.setPort p { s.port p with out := (s.port p).out ++ [m] }) (rLNK_STAT p) 4 1 0

/-- A message without those this device has yet to route. -/
def unqueue (s : State) (m : LinkMsg) : State :=
  match takeFirst (fun x => x == m) s.linkOut with
  | some (_, rest) => { s with linkOut := rest }
  | none => s

/-- ROUTE_WRITE (R347, R349, R382): a manager writes an entry, and clears the page's SEAL. -/
def execRouteWrite (index : BitVec 15) (entry : BitVec 32) (s : State) : Host.Outcome State Fault Refusal :=
  .next (if s.inReset || decide (0x40FF < index.toNat) then s
    else clearSeal { s with route := SMap.set 0 s.route index.toNat (BitVec.ofNat 32 (fld entry 0 10)) } (Block.lnk.page 0))

/-! ### Heartbeats of a worker (R352, R364) -/

/-- HEARTBEAT (R352): a worker of a job in ARMED, RUN or DRAIN sends one to its manager. -/
def execHeartbeat (s : State) : Host.Outcome State Fault Refusal :=
  .next (if !s.mgrRole && (s.dev == .armed || s.dev == .run || s.dev == .drain) then toManager s "heartbeat" [ownWid s] else s)

/-- MGR_LOST (R364, R470): the manager's heartbeat replies are missing. -/
def execMgrLost (s : State) : Host.Outcome State Fault Refusal :=
  .next (if s.inReset || s.mgrRole || regFld s (rLNK_STAT 0) 6 1 == 1 then s
    else setIstat (setFld s (rLNK_STAT 0) 6 1 1) (Block.lnk.page 0) 0x200)

/-! ### Checkpoints at the buddy and at the worker (R356 to R358) -/

/-- Whether the held range takes a write of a worker: it comes from the ward, and lies within both slots (R356). -/
def heldTakes (s : State) (worker off len : Nat) : Bool :=
  let size := regFld s rLNK_SHARD 0 14 * regionUnit
  regFld s rLNK_BUDDY 30 1 == 1 && regFld s rLNK_BUDDY 16 14 == worker && size != 0 && decide (off + len ≤ 2 * size)

/-- The held range's first address. -/
def heldBase (s : State) : Nat := regFld s rLNK_HELD 0 17 * regionUnit

/-- The lead manager of a worker's job, as far as this device knows it: it takes part in the job, or the job waits in its queue; else its
own manager (R358). -/
def leadOf (s : State) (w : Nat) : Nat :=
  match s.rgs.ref, s.rgs.relayed.find? fun p => p.2.workers.contains w with
  | some (l, _), other => if s.rgs.workers.contains w then 0x4000 + l % 256 else
      (match other with | some p => 0x4000 + p.2.lead % 256 | none => managerAddr s)
  | none, some p => 0x4000 + p.2.lead % 256
  | none, none => managerAddr s

/-- A held slot's header with SEAL 1 is reported to the lead manager (R357, R358). -/
def reportSeal (s : State) (worker off : Nat) : State :=
  let size := regFld s rLNK_SHARD 0 14 * regionUnit
  let h := heldBase s + off / size * size
  if off % size < 32 ∧ gddrWord s (h + 8) = 1 then
    linkSend s { dest := leadOf s worker, src := ownAddr s, vc := 10, what := "sealed", words := [worker, (gddrWord s h).toNat] }
  else s

/-- MIRROR_WRITE (R356, R358, R424): a mirrored unit at an offset of the held range; it waits while its controller takes no work (R396). -/
def execMirrorWrite (worker : Nat) (secure : Bool) (addr : Nat) (data : List Byte) (s : State) : Host.Outcome State Fault Refusal :=
  let reply (s : State) (what : String) : State :=
    linkSend s { dest := worker, src := ownAddr s, vc := 11, what := what, words := [addr, data.length / 32] }
  .next (if s.inReset || s.dev == .boot then s
    else if !heldTakes s worker addr data.length then
      reply (setIstat (satAdd s (rLNK_ERR 0) 16 16 1) (Block.lnk.page 0) 8) "mirrorRefused"
    else if !tierOpen s (heldBase s + addr) data.length then wake s
    else
      let a := heldBase s + addr
      let s0 := wake s
      match regionAt s a with
      | some (n, r) =>
        if crossWorld s secure true n r then reply (xlogRegion s0 .link true n a) "mirrorAck"
        else reply (reportSeal (gddrWrite s0 a data) worker addr) "mirrorAck"
      | none => reply (reportSeal (gddrWrite s0 a data) worker addr) "mirrorAck")

/-- COMMIT (R358): the commit epoch is loaded, and the mirrored writes that it frees are carried out. -/
def execCommit (epoch : BitVec 32) (s : State) : Host.Outcome State Fault Refusal :=
  .next (if s.inReset then s else releaseHeld (setReg s rLNK_CKPT epoch))

/-! ### Chronicle time (R366 to R368, R445) -/

/-- Greatest trim, in parts per billion: 200 ppm (R366). -/
def maxTrim : Int := 200000

/-- A rate clamped to 200 ppm. -/
def clampTrim (x : Int) : Int := if x < -maxTrim then -maxTrim else if maxTrim < x then maxTrim else x

/-- Whether TIM_CTRL.FREE makes the chronicle ignore PPS_IN and time messages. -/
def timeFree (s : State) : Bool := regFld s (Block.tim.reg 0 oCTRL) 4 1 == 1

/-- TIM_STAT.LOCKED; its fall is an event (R470). -/
def setLocked (s : State) (on : Bool) : State :=
  let s1 := setFld s rTIM_STAT 1 1 (if on then 1 else 0)
  if regFld s rTIM_STAT 1 1 = 1 ∧ on = false then setIstat s1 (Block.tim.page 0) 1 else s1

/-- The last measured offset, and the rate that follows from it for a span of time, after which the crystal's own rate follows (R367). -/
def slew (s : State) (offset trim : Int) (span : Nat) : State :=
  setReg { s with chron := { s.chron with trim := clampTrim trim, slewEnd := some (s.time + span) } } rTIM_OFFSET
    (BitVec.ofNat 32 (wrap 32 offset))

/-- Ticks of a second. -/
def secTicks : Nat := 84000000000

/-- TIME_ALIGN (R368): the aligned device asks, and stamps t1; the upstream device answers, and stamps t2 and t3; with the reply the
offset θ is made up over the 10 ms to the next exchange. FREE ignores time messages (R371). -/
def execTimeAlign (t : TimeStep) (s : State) : Host.Outcome State Fault Refusal :=
  .next (if s.inReset || timeFree s then s
    else match t with
    | .ask up =>
      if s.mgrRole then s
      else linkSend { s with chron := { s.chron with asked := some (chronNs s) } }
        { dest := up, src := ownAddr s, vc := 10, what := "timeRequest", words := [] }
    | .serve dest =>
      linkSend s { dest := dest, src := ownAddr s, vc := 10, what := "timeReply", words := [(chronNs s).toNat, (chronNs s).toNat] }
    | .reply t2 t3 =>
      match s.chron.asked with
      | none => s
      | some t1 =>
        if s.mgrRole then s
        else
          let theta := ((t2 - t1) - (chronNs s - t3)) / 2
          setLocked (slew { s with chron := { s.chron with asked := none } } theta (100 * theta) (10 * msTicks)) true)

/-- ALIGNMENT_TIMEOUT (R445): 100 ms without an alignment; the chronicle runs on the crystal. -/
def execAlignmentTimeout (s : State) : Host.Outcome State Fault Refusal :=
  .next (if s.inReset then s else setLocked { s with chron := { s.chron with trim := 0, slewEnd := none, asked := none } } false)

/-- The offset of the chronicle to the nearest second boundary, in nanoseconds. -/
def ppsOffset (c : Chron) : Int := if c.ns < 500000000 then Int.ofNat c.ns else Int.ofNat c.ns - 1000000000

/-- Whether an edge is far from the expected second: more than 100 µs off, or out of the interval that R481 gives. -/
def ppsFar (s : State) (interval : Nat) : Bool :=
  let d := ppsOffset s.chron
  decide (100000 < d) || decide (d < -100000)
    || (s.chron.lastEdge.isSome && !(decide (999950000 ≤ interval) && decide (interval ≤ 1000050000)))

/-- PPS_EDGE (R367, R481): a rising edge of a manager's PPS_IN, `interval` nanoseconds after the one before. -/
def execPpsEdge (interval : Nat) (s : State) : Host.Outcome State Fault Refusal :=
  .next (if s.inReset || !s.mgrRole || timeFree s then s
    else
      let s0 := toTime s (match s.chron.lastEdge with | some t => t + 84 * interval | none => s.time)
      let d := ppsOffset s0.chron
      let far := ppsFar s0 interval
      let s1 := setFld { s0 with chron := { s0.chron with lastEdge := some s0.time } } rTIM_STAT 2 1 0
      if far && regFld s0 rTIM_STAT 1 1 == 1 then
        let n := s0.chron.ignored + 1
        let s2 := setIstat { s1 with chron := { s1.chron with ignored := n % 3 } } (Block.tim.page 0) 4
        if n = 3 then slew (setLocked s2 false) d (-d) secTicks else s2
      else
        let s2 := slew { s1 with chron := { s1.chron with ignored := 0 } } d (-d) secTicks
        if far then s2 else setLocked s2 true)

/-- PPS_LOST (R367): no edge for 2 s; the chronicle runs free on the crystal. -/
def execPpsLost (s : State) : Host.Outcome State Fault Refusal :=
  .next (if s.inReset || !s.mgrRole then s
    else
      let s1 := setFld { s with chron := { s.chron with trim := 0, slewEnd := none } } rTIM_STAT 2 1 1
      if regFld s rTIM_STAT 2 1 = 1 then s1 else setIstat s1 (Block.tim.page 0) 2)

/-- A host step of the chronicle (R367): TIM_CTRL.STEP loads the step registers and sets STEPPED. -/
def stepChronicle (s : State) : State :=
  setFld { s with chron := { s.chron with sec := (regRaw s rTIM_STEP_SEC).toNat, ns := regFld s rTIM_STEP_NS 0 30, sub := 0 } } rTIM_STAT 3 1 1

end Sys2Proof.Machine
end

