-- ==== Sys2Proof/Machine/Routes.lean ====
section
/-! DEFINITION. The topology (R344, R345), the routes that a manager computes (R347 to R350), and the bay map (R351). -/

namespace Sys2Proof.Machine

/-! ### Places (R344, R345) -/

/-- A place of a worker device: wing, bay (none for the wing spare shelf), shelf, position. -/
structure Place where
  wing : Nat
  bay : Option Nat
  shelf : Nat
  pos : Nat
  deriving DecidableEq, Repr

/-- The place of position p in the map of manager m: 0 to 63 of its bay, 64 to 67 of the wing spare shelf. -/
def placeAt (m p : Nat) : Place :=
  if p < 64 then { wing := m / 16, bay := some (m % 16), shelf := p / 4, pos := p % 4 }
  else { wing := m / 16, bay := none, shelf := 0, pos := p - 64 }

/-- The place of a number 128 × manager number + position. -/
def placeOfCode (c : Nat) : Place := placeAt (c / 128) (c % 128)

/-- Places on a wing ring: the spare shelf is one of shelf 0's ring alone (R345). -/
def ringSize (wing shelf : Nat) : Nat := Config.baysIn wing + (if shelf = 0 ∧ Config.spareShelf wing then 1 else 0)

/-- The place of a bay, or of the spare shelf, on the wing ring. -/
def ringPlace (wing : Nat) (bay : Option Nat) : Nat := bay.getD (Config.baysIn wing)

/-- The bay at a place of the wing ring. -/
def ringBay (wing i : Nat) : Option Nat := if i = Config.baysIn wing then none else some i

/-- Whether the shorter way round a ring of n goes up from i to j; a tie goes up (R348). -/
def goesUp (n i j : Nat) : Bool := decide (2 * ((j + n - i) % n) ≤ n)

/-- Hops on a ring of four. -/
def ringHops (a b : Nat) : Nat := Nat.min ((b + 4 - a) % 4) ((a + 4 - b) % 4)

/-- Hops between two positions of one bay: rows, columns, shelf hop (R348). -/
def bayHops (a b : Nat) : Nat :=
  ringHops (a / 4 / 4) (b / 4 / 4) + ringHops (a / 4 % 4) (b / 4 % 4) + (if a % 4 = b % 4 then 0 else 1)

/-- The first leg of a route between two positions of one bay: a tie goes south on rows and east on columns (R344, R348). -/
def bayPort (a b : Nat) : Option Nat :=
  let dr := (b / 16 + 4 - a / 16) % 4
  let dc := (b / 4 % 4 + 4 - a / 4 % 4) % 4
  if a = b then none
  else if dr = 3 then some 3 else if dr ≠ 0 then some 7
  else if dc = 3 then some 9 else if dc ≠ 0 then some 5
  else some ((a % 4 ^^^ b % 4) - 1)

/-- The port of a wing-ring leg. -/
def wingPort (a : Place) (bay : Option Nat) : Nat :=
  if goesUp (ringSize a.wing a.shelf) (ringPlace a.wing a.bay) (ringPlace a.wing bay) then 11 else 12

/-- The port of the first leg from a place to another, in the order of R348: archive ring, wing ring, rows, columns, shelf hop. The spare
shelf is reached through shelf 0 of a bay, and left through its wing ring (R345; log entry 100). -/
def nextPort (a b : Place) : Option Nat :=
  if a = b then none
  else if a.wing ≠ b.wing then
    (match a.bay with
      | none => some (wingPort a (some (b.bay.getD 0)))
      | some _ => some (if goesUp Config.wings a.wing b.wing then 13 else 14))
  else match a.bay, b.bay with
    | some i, some j =>
      if i = j then bayPort (4 * a.shelf + a.pos) (4 * b.shelf + b.pos) else some (wingPort a b.bay)
    | some _, none => if a.shelf ≠ 0 then bayPort (4 * a.shelf + a.pos) a.pos else some (wingPort a none)
    | none, some _ => some (wingPort a b.bay)
    | none, none => bayPort a.pos b.pos

/-- A step on the wing ring. -/
def ringStep (a : Place) (up : Bool) : Place :=
  let n := ringSize a.wing a.shelf
  let i := ringPlace a.wing a.bay
  { a with bay := ringBay a.wing (if up then (i + 1) % n else (i + n - 1) % n) }

/-- The place at the other end of a port (R344). -/
def Place.via (a : Place) (port : Nat) : Place :=
  let r := a.shelf / 4
  let c := a.shelf % 4
  if port ≤ 2 then { a with pos := a.pos ^^^ (port + 1) }
  else if port ≤ 4 then { a with shelf := (r + 3) % 4 * 4 + c }
  else if port ≤ 6 then { a with shelf := r * 4 + (c + 1) % 4 }
  else if port ≤ 8 then { a with shelf := (r + 1) % 4 * 4 + c }
  else if port ≤ 10 then { a with shelf := r * 4 + (c + 3) % 4 }
  else if port = 11 then ringStep a true
  else if port = 12 then ringStep a false
  else if port = 13 then { a with wing := (a.wing + 1) % Config.wings }
  else if port = 14 then { a with wing := (a.wing + Config.wings - 1) % Config.wings }
  else a

/-- The partner's port (R344). -/
def partnerPort (port : Nat) : Nat :=
  if 3 ≤ port ∧ port ≤ 6 then port + 4 else if 7 ≤ port ∧ port ≤ 10 then port - 4
  else if port = 11 then 12 else if port = 12 then 11 else if port = 13 then 14 else if port = 14 then 13 else port

/-- Whether a place has a port (R344, R345). -/
def Place.hasPort (a : Place) (port : Nat) : Bool := shelfPort a.pos a.bay.isNone port

/-- The legs of the route from a place to another: places and ports. -/
def routePath : Nat → Place → Place → List (Place × Nat)
  | 0, _, _ => []
  | n + 1, a, b => match nextPort a b with
    | some p => (a, p) :: routePath n (a.via p) b
    | none => []

/-- Legs of a route at most: rings of ten wings and seventeen places, and a bay. -/
def maxLegs : Nat := 32

/-! ### The bay map (R351) -/

/-- An empty position. -/
def MapEnt.empty : MapEnt := { st := .empty, grade := 0, b0 := false }

/-- The entry of a position. -/
def mapEnt (s : State) (p : Nat) : MapEnt := SMap.get MapEnt.empty s.mgr.map p

/-- Change the state of a position. -/
def setMap (s : State) (p : Nat) (st : MapState) : State :=
  { s with mgr := { s.mgr with map := SMap.set MapEnt.empty s.mgr.map p { mapEnt s p with st := st } } }

/-- This manager's number (R346). -/
def mgrNum (s : State) : Nat := regFld s rLNK_WID 16 8

/-- Whether this manager is the wing lead, which keeps the wing spare shelf (R345). -/
def wingLead (s : State) : Bool := s.mgrRole && mgrNum s % 16 == 0

/-- The manager number of the wing lead. -/
def leadNum (s : State) : Nat := mgrNum s / 16 * 16

/-- The position that a worker holds: in this manager's map, or on the wing spare shelf for this bay. -/
def positionOf (s : State) (w : Nat) : Option Nat :=
  match (s.mgr.map.find? fun p => p.2.st == .active w) with
  | some p => some p.1
  | none => (s.mgr.away.find? fun p => p.2 == w).map (·.1)

/-- The worker at a position. -/
def workerAt (s : State) (p : Nat) : Option Nat := match (mapEnt s p).st with | .active w => some w | _ => none

/-- Whether the host may write an entry so: at bring-up, an entry from FAILED to SPARE, and a position whose device is taken out; what only
the manager moves it does not (R351). -/
def hostMayMap (old new : MapState) : Bool :=
  match old, new with
  | .empty, _ => true
  | .failed, .spare => true
  | _, .empty => true
  | _, _ => false

/-- Whether an entry may stand: a reserved worker ID is never assigned (R5). -/
def mayStand (st : MapState) : Bool := match st with | .active w => decide (w < workerIds) | _ => true

/-- An entry takes its place in the map. The manager reads the grade of a worker from its GLB_CONFIG (R467). -/
def putMap (s : State) (p : Nat) (e : MapEnt) : State :=
  let s1 : State := { s with mgr := { s.mgr with map := SMap.set MapEnt.empty s.mgr.map p e } }
  match e.st with
  | .active w => linkSend s1 { dest := w, src := ownAddr s, vc := 11, what := "configRead", words := [] }
  | _ => s1

/-- The host's writes of the map: the bay's positions, and on the wing lead the spare shelf's. -/
def hostMap (s : State) (es : List (Nat × MapEnt)) : State :=
  es.foldl (fun s e =>
    if (decide (e.1 < 64) || (wingLead s && decide (e.1 < 68))) && hostMayMap (mapEnt s e.1).st e.2.st && mayStand e.2.st then
      putMap s e.1 e.2
    else s) s

/-- The grade that GLB_CONFIG.GROUPS tells (R6, R467). -/
def gradeOf (config : Nat) : Nat := match config / 2 ^ 12 % 64 with | 32 => 0 | 31 => 1 | 30 => 2 | _ => 3

/-- A worker's GLB_CONFIG fills the grade of its position (R467). -/
def fillGrade (s : State) (w config : Nat) : State :=
  match positionOf s w with
  | some p =>
    if p < 64 ∨ wingLead s then
      { s with mgr := { s.mgr with map := SMap.set MapEnt.empty s.mgr.map p { mapEnt s p with grade := gradeOf config } } }
    else s
  | none => s

/-! ### Routes around what is lost (R347, R348, R360, R362) -/

/-- The place of a position of this manager's map. -/
def placeHere (s : State) (p : Nat) : Place := placeAt (if p < 64 then mgrNum s else leadNum s) p

/-- The place of a worker: where this manager has it, or where a relay says that it stands in another bay. -/
def placeOfWorker (s : State) (w : Nat) : Option Place :=
  match positionOf s w with
  | some p => some (placeHere s p)
  | none => s.mgr.parts.findSome? fun p => (p.relay.places.find? fun q => q.1 == w).map fun q => placeOfCode q.2

/-- Whether a link is out of use, from one of its ends. -/
def linkOut? (s : State) (a : Place) (port : Nat) : Bool :=
  s.mgr.out.any fun o =>
    let q := placeOfCode o.1
    (decide (q = a) && o.2 == port) || (decide (q.via o.2 = a) && partnerPort o.2 == port)

/-- Whether no device of this bay forwards at a place: nothing is fitted there, or it has failed. -/
def deadPlace (s : State) (a : Place) : Bool :=
  if a.wing = mgrNum s / 16 ∧ a.bay = some (mgrNum s % 16) then
    match (mapEnt s (4 * a.shelf + a.pos)).st with | .failed => true | .empty => true | _ => false
  else false

/-- Whether a leg can be taken: its link, or the second link of a torus direction, is in use, and the device at its end forwards. -/
def legOk (s : State) (a : Place) (port : Nat) : Bool :=
  a.hasPort port && !deadPlace s (a.via port)
    && (!linkOut? s a port || (decide (3 ≤ port ∧ port ≤ 10) && !linkOut? s a (port + 1)))

/-- Whether a route that leaves by a port arrives. -/
def routeOk (s : State) (a b : Place) (port : Nat) : Bool :=
  legOk s a port && (routePath maxLegs (a.via port) b).all fun l => decide (l.1 ≠ a) && legOk s l.1 l.2

/-- The port by which a route leaves: R348's own, or where that does not arrive, the one of the fewest hops that does (log entry 100). -/
def routePort? (s : State) (a b : Place) : Option Nat :=
  match nextPort a b with
  | none => none
  | some p =>
    if routeOk s a b p then some p
    else
      let len (q : Nat) : Nat := (routePath maxLegs (a.via q) b).length
      ([0, 1, 2, 3, 5, 7, 9, 11, 12, 13, 14].filter (routeOk s a b)).foldl (fun best q => match best with
        | some r => if len q < len r then some q else some r
        | none => some q) none

/-- The legs of a route as it stands, with the links that it takes. -/
def routeLegs (s : State) (a b : Place) : List (Place × Nat) :=
  match routePort? s a b with
  | none => []
  | some p => ((a, p) :: routePath maxLegs (a.via p) b).map fun l =>
      (l.1, if linkOut? s l.1 l.2 && decide (3 ≤ l.2 ∧ l.2 ≤ 10) then l.2 + 1 else l.2)

/-- A route-table entry for a leg by a port; the second link of a torus direction is its ALT, and another position of the shelf that of a
shelf hop (R344, R347). -/
def routeWord (s : State) (a : Place) (port : Nat) : Nat :=
  let torus := decide (3 ≤ port ∧ port ≤ 10)
  if torus && linkOut? s a port then port + 1 + 2 ^ 4
  else if port ≤ 2 then port + 2 ^ 4 + (port + 1) % 3 * 2 ^ 5 + 2 ^ 9
  else port + 2 ^ 4 + (if torus && !linkOut? s a (port + 1) then (port + 1) * 2 ^ 5 + 2 ^ 9 else 0)

/-- The entry of a place for another: not VALID where no route arrives. -/
def legWord (s : State) (a b : Place) : Nat := match routePort? s a b with | some p => routeWord s a p | none => 0

/-- The entry of a place for a manager: through the head of its own shelf, in the manager's bay, and port 15 there (R344). A shelf hop has the
torus as its ALT, towards another head (R368; log entry 100). -/
def mgrWord (s : State) (a : Place) (m : Nat) : Nat :=
  let b : Place := { wing := m / 16, bay := some (m % 16), shelf := a.shelf, pos := 0 }
  if a = b then 15 + 2 ^ 4
  else
    let w := legWord s a b
    if w % 32 ≤ 18 ∧ w ≠ 0 then w % 32 + 5 * 2 ^ 5 + 2 ^ 9 else w

/-- Hops of the route between two workers, as this manager has it. -/
def hopsBetween (s : State) (v w : Nat) : Nat :=
  match placeOfWorker s v, placeOfWorker s w with
  | some a, some b => (routeLegs s a b).length
  | _, _ => 0

end Sys2Proof.Machine
end

