-- ==== Sys2Proof/Machine/Manager.lean ====
section
/-! DEFINITION. Managers (R351 to R364): job relay, loss and probes, takeover, commit epochs, the bay census table; and the delivery of the
messages that concern them. What a manager has other devices do leaves it as link messages, named by their step (log entry 92). -/

namespace Sys2Proof.Machine

/-- A message of this manager over VC 11, or over VC 10 where it is a signal. -/
def mgrSend (s : State) (dest vc : Nat) (what : String) (words : List Nat) : State :=
  linkSend s { dest := dest, src := ownAddr s, vc := vc, what := what, words := words }

/-- The position of the default buddy: the same position in the next shelf ("Checkpoints and buddies"). -/
def buddyOf (p : Nat) : Nat := (p + 4) % 64

/-- The position of the default ward. -/
def wardOf (p : Nat) : Nat := (p + 60) % 64

/-! ### Relays (R353) -/

/-- A relay that nothing gives. -/
def Relay.none : Relay :=
  { worker := 0, job := 0, lead := 0, workers := [], hops := [], images := [], regions := [], entry := 0, words := [], ckpt := [],
    store := 0, places := [], map := [] }

/-- The relays that this manager keeps. -/
def relays (s : State) : List Relay := s.mgr.parts.map (·.relay)

/-- This manager's part of a worker. -/
def partOf (s : State) (w : Nat) : Option Part := s.mgr.parts.find? fun p => p.relay.worker == w

/-- The images of a relay in the manager store: store address, address at the worker, length. -/
def imagePlaces : Nat → List (Nat × List Byte) → List (Nat × Nat × Nat)
  | _, [] => []
  | a, (d, bs) :: rest => (a, d, bs.length) :: imagePlaces (a + ceilDiv bs.length 32 * 32) rest

/-- The host has staged the images of a relay in the manager store. -/
def stageImages (s : State) (r : Relay) : State :=
  ((imagePlaces r.store r.images).zip r.images).foldl (fun s p => gddrWrite s p.1.1 p.2.2) s

/-- The folio header of a part, in the manager store (R380). -/
def partHeader (s : State) (p : Part) : List Word :=
  let f := (wordAt p.relay.words 2).toNat + (wordAt p.relay.words 3).toNat * 2 ^ 32
  match p.images.find? fun i => decide (i.2.1 ≤ f ∧ f < i.2.1 + i.2.2) with
  | some (a, d, _) => leWords 64 (s.gddr.read (a + (f - d)) 256)
  | none => []

/-- What the Registrar is told of a relayed job. -/
def relayedOf (r : Relay) : Relayed := { lead := r.lead, job := r.job, workers := r.workers, hops := r.hops }

/-- The hop counts of a worker's routes, as this manager has them now (R350). -/
def withHops (s : State) (r : Relay) : Relay :=
  { r with hops := (r.workers.filter fun w => w != r.worker && (placeOfWorker s r.worker).isSome && (placeOfWorker s w).isSome).map fun w =>
      (w, hopsBetween s r.worker w) }

/-- The images of a part go from the manager store to its worker. -/
def sendImages (s : State) (p : Part) : State :=
  p.images.foldl (fun s i => mgrSend s p.relay.worker 11 "image" (i.2.1 :: (s.gddr.read i.1 i.2.2).map (·.toNat))) s

/-- The region table of a worker is set through its Keeper. -/
def sendRegions (s : State) (r : Relay) : State :=
  r.regions.foldl (fun s ws => mgrSend s r.worker 11 "keeper" (1 :: ws.map (·.toNat))) s

/-- The circulation entry of a worker is written. -/
def sendEntry (s : State) (r : Relay) : State := mgrSend s r.worker 11 "entry" (entryWords r.entry (relayedOf (withHops s r)) r.words)

/-- What a relay writes at its worker: images, region table, checkpoint registers, unsealed slot headers, COMMIT, the page's SEAL, and last
the entry (R353, R370, R461). -/
def relayOut (s : State) (p : Part) : State :=
  let r := p.relay
  let s1 := mgrSend (sendRegions (sendImages s p) r) r.worker 11 "ckptRegs" (r.ckpt.map (·.toNat))
  let s2 := mgrSend (mgrSend s1 r.worker 11 "unseal" []) r.worker 11 "ckptCommit" [0xFFFFFFFF]
  sendEntry (mgrSend s2 r.worker 11 "seal" []) r

/-- Whether this manager writes a worker's route table: it stands in the bay, or, for the wing lead, on the spare shelf (R349). -/
def routesHere (s : State) (p : Nat) : Bool := decide (p < 64) || wingLead s

/-- The route entries of worker v, at position p, for workers and for managers (R348). -/
def writeRoutes (s : State) (p v : Nat) (ws ms : List Nat) : State :=
  let a := placeHere s p
  let s1 := (ws.filter (· != v)).foldl (fun s w => match placeOfWorker s w with
    | some b => mgrSend s v 11 "route" [w, legWord s a b]
    | none => s) s
  ms.foldl (fun s m => mgrSend s v 11 "route" [0x4000 + m, mgrWord s a m]) s1

/-- The managers whose entries a job's routes need: this one and the lead. -/
def routeManagers (s : State) (r : Relay) : List Nat := [mgrNum s, r.lead].eraseDups

/-- The entries that a worker's route table needs for its job: the other workers, this manager and the lead manager (R348, R349). -/
def sendRoutes (s : State) (r : Relay) : State :=
  match positionOf s r.worker with
  | some p => if routesHere s p then writeRoutes s p r.worker r.workers (routeManagers s r) else s
  | none => s

/-- The job's routes pass through other workers of the bay: their tables get its entries too, and their pages' SEAL (R349, R461). -/
def sendTransit (s : State) (r : Relay) : State :=
  s.mgr.map.foldl (fun t e => match e.2.st with
    | .active v =>
      if r.workers.contains v || !routesHere s e.1 then t
      else mgrSend (writeRoutes t e.1 v r.workers (routeManagers s r)) v 11 "seal" []
    | _ => t) s

/-- The legs of a worker's routes to the others of its job. -/
def legsOf (s : State) (r : Relay) : List (Place × Nat) :=
  r.workers.flatMap fun w => match placeOfWorker s r.worker, placeOfWorker s w with
    | some a, some b => routeLegs s a b
    | _, _ => []

/-- The manager that writes the route table of a place: its bay's, or the wing lead (R349). -/
def Place.manager (a : Place) : Nat := 16 * a.wing + a.bay.getD 0

/-- The managers of the other bays that a job spans, or that its routes pass through (R349; log entry 130). -/
def otherManagers (s : State) (r : Relay) : List Nat :=
  (((r.workers.filterMap (placeOfWorker s) ++ (legsOf s r).map (·.1)).map Place.manager).filter (· != mgrNum s)).eraseDups

/-- The number by which a place is told to another manager: 128 × manager number + position. -/
def codeOfWorker (s : State) (w : Nat) : Option Nat :=
  match positionOf s w with
  | some p => some (128 * (if p < 64 then mgrNum s else leadNum s) + p)
  | none => s.mgr.parts.findSome? fun p => (p.relay.places.find? fun q => q.1 == w).map (·.2)

/-- Route changes for the workers of a job go to the managers of the other bays that it spans (R349). -/
def announce (s : State) (r : Relay) : State :=
  (otherManagers s r).foldl (fun s m => r.workers.foldl (fun s w => match codeOfWorker s w with
    | some c => mgrSend s (0x4000 + m) 11 "routeChange" [w, c]
    | none => s) s) s

/-- A manager of another bay leads a job of a worker: it is the one to tell of seals and losses (R358, R361). -/
def noteLead (s : State) (lead w : Nat) : State :=
  let ls := SMap.get [] s.mgr.leads w
  { s with mgr := { s.mgr with leads := SMap.put s.mgr.leads w (if ls.contains lead then ls else ls ++ [lead]) } }

/-- A route change for a worker reaches the manager of another bay, which writes its own workers, and their pages' SEAL (R349, R461). -/
def routeChange (s : State) (lead w c : Nat) : State :=
  let s0 := noteLead s lead w
  s0.mgr.map.foldl (fun s e => match e.2.st with
    | .active v =>
      if v != w && routesHere s e.1 then
        mgrSend (mgrSend s v 11 "route" [w, legWord s (placeHere s e.1) (placeOfCode c)]) v 11 "seal" []
      else s
    | _ => s) s0

/-- Census entries of workers leave the bay table's sums: their job begins again (R333). -/
def dropBay (s : State) (ws : List Nat) : State :=
  { s with mgr := { s.mgr with bay := s.mgr.bay.map fun p => (p.1, p.2.filter fun q => !ws.contains q.1) } }

/-- A manager keeps a worker's part of a job until it relays another for that worker (log entry 92): the images are in the manager store. -/
def keepPart (s : State) (r : Relay) : State :=
  let s1 := dropBay (stageImages s r) [r.worker]
  let p : Part := { relay := { r with images := [], map := [] }, images := imagePlaces r.store r.images }
  { s1 with mgr := { s1.mgr with
    parts := (s1.mgr.parts.filter fun x => x.relay.worker != r.worker) ++ [p],
    failed := s1.mgr.failed.filter fun w => w != r.worker,
    seals := SMap.del s1.mgr.seals r.worker,
    commits := SMap.del s1.mgr.commits (minOf r.worker r.workers) } }

/-- A manager relays a worker's part of a job (R353); the host's writes of the bay map come with it (R351). One without workers writes the
map alone. -/
def relayAtManager (s : State) (r : Relay) : State :=
  let s1 := hostMap s r.map
  if r.workers.isEmpty then s1
  else
    let s2 := keepPart s1 r
    relayOut (announce (sendTransit (sendRoutes s2 r) r) r) { relay := { r with images := [], map := [] }, images := imagePlaces r.store r.images }

/-- A region entry is set through the worker's Keeper (R353, R428). -/
def relayRegion (s : State) (m : Nat) (ws : List Word) : State := keeperIssue s { src := .vc11 m, code := 1, args := ws }

/-- A worker takes what its lead manager relays: the steps of R353 in their order. -/
def relayAtWorker (s : State) (r : Relay) : State :=
  let s1 := r.images.foldl (fun s p => gddrWrite s p.1 p.2) (wake s)
  let s2 := takeCkpt (r.regions.foldl (fun s ws => relayRegion s r.lead ws) s1) (r.ckpt.map (·.toNat))
  let s3 := sealLnk (mgrWrite (unsealSlots s2) rLNK_CKPT 0xFFFFFFFF)
  takeCirc s3 r.entry (relayedOf r) r.words

/-- JOB_RELAY (R353): on a manager the relay leaves for its worker; on the worker it is carried out. -/
def execJobRelay (r : Relay) (s : State) : Host.Outcome State Fault Refusal :=
  .next (if s.inReset || s.dev == .boot then s
    else if s.mgrRole then relayAtManager s r
    else if regFld s rLNK_WID 14 1 == 1 && r.worker == ownWid s then relayAtWorker s r
    else s)

/-! ### The jobs that a loss affects (R360, R361) -/

/-- The relays of the jobs that have one relay of a test. -/
def jobsWith (s : State) (p : Relay → Bool) : List Relay :=
  let jobs := ((relays s).filter p).map fun r => (r.lead, r.job)
  (relays s).filter fun r => jobs.contains (r.lead, r.job)

/-- The relays of the jobs that include a worker, and of those whose routes pass through its place (R361). -/
def affected (s : State) (w : Nat) (a : Place) : List Relay :=
  jobsWith s fun r => r.workers.contains w || (legsOf s r).any fun l => decide (l.1 = a)

/-- The relays of the jobs that include a worker. -/
def jobsOf (s : State) (w : Nat) : List Relay := jobsWith s fun r => r.workers.contains w

/-- Whether a leg is a link given from one of its ends. -/
def isLink (a : Place) (port : Nat) (l : Place × Nat) : Bool := decide (l = (a, port)) || decide (l = (a.via port, partnerPort port))

/-- The relays of the jobs whose routes use a link, given from one end (R360). -/
def usersOf (s : State) (a : Place) (port : Nat) : List Relay :=
  jobsWith s fun r => (legsOf s r).any (isLink a port)

/-- FAULT to the workers of jobs (R362 step 1), with the job, the reason and the worker (R393): to all but the lost one. -/
def faultJobs (s : State) (rs : List Relay) (w : Nat) (lost : Bool) : State :=
  let s1 := (rs.filter fun r => !lost || r.worker != w).foldl (fun s r => mgrSend s r.worker 10 "fault" [r.job, 0x16, w]) s
  { s1 with mgr := { s1.mgr with failed := s1.mgr.failed ++ (rs.map (·.worker)).filter fun x => !s1.mgr.failed.contains x } }

/-! ### Takeover (R360 to R364) -/

/-- The commit epoch of a job, by its lowest worker; none before the first commit (R358). -/
def commitOf (s : State) (r : Relay) : Option Nat := SMap.find s.mgr.commits (minOf r.worker r.workers)

/-- Whether a position may stand in: SPARE, of the folio's grade and latency set (R363, R383). -/
def eligible (s : State) (grade fprint p : Nat) : Bool :=
  let e := mapEnt s p
  e.st == .spare && e.grade == grade && (fprint == 3 || fprint == (if e.b0 then 2 else 1))

/-- The better of two spares: fewer hops from the buddy, then the lower shelf, then the lower position (R363). -/
def nearer (buddy : Nat) (best : Option Nat) (p : Nat) : Option Nat :=
  match best with
  | some q => if bayHops buddy p < bayHops buddy q then some p else some q
  | none => some p

/-- The spare of the bay that takes over, by the hops from the buddy's position. -/
def chooseSpare (s : State) (grade fprint buddy : Nat) : Option Nat :=
  ((List.range 64).filter (eligible s grade fprint)).foldl (nearer buddy) none

/-- The wing spare position that the wing lead grants next (R345, R363). -/
def wingSpare (s : State) (grade fprint : Nat) : Option Nat := ((List.range 4).map (64 + ·)).find? (eligible s grade fprint)

/-- GRADE and FPRINT of a worker's folio. -/
def folioNeeds (s : State) (w : Nat) : Nat × Nat :=
  match partOf s w with
  | some p => (fld (wordAt (partHeader s p) 1) 13 2, fld (wordAt (partHeader s p) 2) 0 8)
  | none => (0, 0)

/-- The worker at a position of this bay that stands in the default relation to a lost one; none where that stood in another bay. -/
def standsAt (s : State) (w p : Nat) : Option Nat :=
  if s.mgr.takeovers.any (fun t => t.worker == w && t.home.isSome) then none else workerAt s p

/-- The buddy of a worker: as its relay assigned it, else by the default (R363, R370). -/
def buddyWorker (s : State) (w lost : Nat) : Option Nat :=
  match partOf s w with
  | some p => if bit (wordAt p.relay.ckpt 0) 14 then some (fld (wordAt p.relay.ckpt 0) 0 14) else standsAt s w (buddyOf lost)
  | none => standsAt s w (buddyOf lost)

/-- The ward of a worker: as its relay assigned it, else by the default. -/
def wardWorker (s : State) (w lost : Nat) : Option Nat :=
  match partOf s w with
  | some p => if bit (wordAt p.relay.ckpt 0) 30 then some (fld (wordAt p.relay.ckpt 0) 16 14) else standsAt s w (wardOf lost)
  | none => standsAt s w (wardOf lost)

/-- The position from which the hops to a spare count: the buddy's. -/
def buddyPlace (s : State) (w lost : Nat) : Nat := ((buddyWorker s w lost).bind (positionOf s)).getD (buddyOf lost)

/-- Whether a worker is being taken over. -/
def takingOver (s : State) (w : Nat) : Bool := s.mgr.takeovers.any fun t => t.worker == w

/-- Whether a lost worker can be restored: its buddy stands, and every job that includes it has committed an epoch (R364). -/
def restorable (s : State) (w lost : Nat) : Bool :=
  (match buddyWorker s w lost with | some b => (placeOfWorker s b).isSome && !takingOver s b | none => false)
    && ((relays s).filter fun r => r.workers.contains w).all fun r => (commitOf s r).isSome

/-- A position holds a worker, or no more: a wing spare's entry is the lead's. -/
def standAt (s : State) (p w : Nat) : State :=
  if routesHere s p then setMap s p (.active w) else { s with mgr := { s.mgr with away := SMap.put s.mgr.away p w } }

/-- A position has failed (R351); of one on the spare shelf the lead is told. -/
def failPosition (s : State) (p : Nat) : State :=
  if routesHere s p then setMap s p .failed
  else mgrSend { s with mgr := { s.mgr with away := SMap.del s.mgr.away p } } (0x4000 + leadNum s) 10 "spareFailed" [p]

/-- LNK_TKO (R370): the worker, the reason, and whether a takeover is in progress. -/
def setTko (s : State) (w reason : Nat) : State :=
  setReg s rLNK_TKO (BitVec.ofNat 32 (w % 2 ^ 14 + reason * 2 ^ 14 + (if s.mgr.takeovers.isEmpty then 0 else 2 ^ 17)))

/-- Put the takeover of a worker in the place of what there was of it. -/
def putTakeover (s : State) (t : Takeover) : State :=
  { s with mgr := { s.mgr with takeovers := (s.mgr.takeovers.filter fun x => x.worker != t.worker) ++ [t] } }

/-- A worker stands at another place, by number: the parts of its jobs say so. -/
def moveWorker (s : State) (w c : Nat) : State :=
  { s with mgr := { s.mgr with parts := s.mgr.parts.map fun p =>
    { p with relay := { p.relay with places := p.relay.places.filter (fun q => q.1 != w) ++ [(w, c)] } } } }

/-- The slot of the commit epoch of a worker's job. -/
def commitSlot (s : State) (w : Nat) : Nat :=
  match (relays s).find? fun r => r.workers.contains w with | some r => (commitOf s r).getD 0 % 2 | none => 0

/-- The base of a worker's local range (word 1) or held range (word 2) in its relay, in 16 MiB units (R370). -/
def rangeBase (s : State) (w word : Nat) : Nat := match partOf s w with | some p => fld (wordAt p.relay.ckpt word) 0 17 | none => 0

/-- Copy (c) is asked of a ward. -/
def askWard (s : State) (w v : Nat) : State := mgrSend s v 11 "copyLocal" [w, commitSlot s w, rangeBase s w 2]

/-- Steps 2 and 3 of R362: the spare becomes the worker, and the copies start; copy (c) waits for a ward that is itself being taken over
(R364). -/
def startCopies (s : State) (w lost spare : Nat) (home : Option Nat) : State :=
  let ward := wardWorker s w lost
  let waits := match ward with | some v => takingOver s v | none => false
  let copies := [0, 1] ++ (if ward.isSome && !waits then [2] else [])
  let s1 := match home with | none => standAt s spare w | some _ => moveWorker s w spare
  let s2 := putTakeover s1 { worker := w, lost := lost, spare := some spare, copies := copies, waits := waits,
                             sec := s.chron.sec, ns := s.chron.ns, home := home }
  let s3 := mgrSend (setTko s2 w 0) w 11 "wid" [w]
  let s4 := match partOf s w with | some p => sendImages s3 p | none => s3
  let s5 := match buddyWorker s w lost with | some b => mgrSend s4 b 11 "copyHeld" [w, commitSlot s w, rangeBase s w 1] | none => s4
  match ward with
  | some v => if waits then s5 else askWard s5 w v
  | none => s5

/-- A takeover is over, with a reason (R364, R470). -/
def closeTakeover (s : State) (w reason : Nat) : State :=
  let s1 : State := { s with mgr := { s.mgr with takeovers := s.mgr.takeovers.filter fun t => t.worker != w } }
  let s2 := setTko s1 w reason
  if s1.mgr.takeovers.isEmpty || (reason != 0 && reason != 4) then setIstat s2 (Block.lnk.page 0) 0x100 else s2

/-- The commit epochs that a restart keeps: what was sealed beyond them is no more (log entry 92). -/
def trimSeals (s : State) (rs : List Relay) : State :=
  let kept (r : Relay) (e : Nat) : Bool := match commitOf s r with | some c => decide (e ≤ c) | none => false
  let es := rs.foldl (fun m r => SMap.put m r.worker ((SMap.get [] m r.worker).filter (kept r))) s.mgr.seals
  { s with mgr := { s.mgr with seals := es } }

/-- Steps 5 to 7 of R362 for relays: routes, COMMIT words, entries. The entries of a job wait until all its workers stand and every takeover
in it is over. -/
def restartJobs (s : State) (rs : List Relay) (w : Nat) : State :=
  let s1 := rs.foldl (fun s r => announce (sendTransit (sendRoutes s r) r) r) s
  let s2 := rs.foldl (fun s r => match commitOf s r with | some e => mgrSend s r.worker 11 "commitWord" [e] | none => s) s1
  let s3 := rs.foldl (fun s r => mgrSend s r.worker 11 "seal" []) s2
  let ready := rs.filter fun r => r.workers.all fun x => (placeOfWorker s x).isSome && (x == w || !takingOver s x)
  let s4 := trimSeals (dropBay (ready.foldl sendEntry s3) (ready.map (·.worker))) ready
  { s4 with mgr := { s4.mgr with failed := s4.mgr.failed.filter fun x => !(ready.map (·.worker)).contains x } }

/-- Step 4 of R362: the spare's region table and its registers. -/
def restoreRegs (s : State) (w : Nat) : State :=
  match partOf s w with
  | some p =>
    let s1 := mgrSend (sendRegions s p.relay) w 11 "ckptRegs" (p.relay.ckpt.map (·.toNat))
    match commitOf s p.relay with | some e => mgrSend s1 w 11 "ckptCommit" [e] | none => s1
  | none => s

/-- H_f of a part's folio (R350, R380). -/
def partHf (s : State) (p : Part) : Nat := fld (wordAt (partHeader s p) 5) 0 16

/-- Whether a route between two workers of a worker's jobs is longer than H_f allows (R350, R364). -/
def hopsExceed (s : State) (w : Nat) : Bool :=
  s.mgr.parts.any fun p => p.relay.workers.contains w
    && p.relay.workers.any fun x => decide (partHf s p < hopsBetween s p.relay.worker x)

/-- A message to the managers of other bays that lead jobs of this bay's workers. -/
def tellLeads (s : State) (what : String) (words : List Nat) : State :=
  (s.mgr.leads.flatMap (·.2)).eraseDups.foldl (fun s m => mgrSend s (0x4000 + m) 10 what words) s

/-- Steps 4 to 7 of R362 once the copies of a takeover are complete, and its end: the jobs of the worker; those that its loss affected only
through a route have restarted before. -/
def finishTakeover (s : State) (w : Nat) : State :=
  let s1 := restartJobs (restoreRegs s w) (jobsOf s w) w
  let s2 := match positionOf s w, codeOfWorker s w with | some _, some c => tellLeads s1 "restored" [w, c] | _, _ => s1
  closeTakeover s2 w (if hopsExceed s1 w then 3 else 0)

/-- The takeovers that wait for a worker's: copy (c) is made from its restored state, or, where it cannot be restored, not at all (R364). -/
def wakeWaiting (s : State) (w : Nat) (restored : Bool) : State :=
  (s.mgr.takeovers.filter fun t => t.waits && wardWorker s t.worker t.lost == some w).foldl (fun s t =>
    if restored then askWard (putTakeover s { t with waits := false, copies := t.copies ++ [2] }) t.worker w
    else if t.copies.isEmpty then finishTakeover s t.worker
    else putTakeover s { t with waits := false }) s

/-- A takeover ends without a restore (R364). -/
def failTakeover (s : State) (w reason : Nat) : State := wakeWaiting (closeTakeover s w reason) w false

/-- A spare takes over, if the worker can be restored. -/
def useSpare (s : State) (w lost spare : Nat) : State := if restorable s w lost then startCopies s w lost spare none else failTakeover s w 2

/-- The selection of a spare (R363): in the bay, else on the wing spare shelf; there the wing lead is asked, where this manager is not it. -/
def selectSpare (s : State) (w lost : Nat) (mayAsk : Bool) : State :=
  let (grade, fprint) := folioNeeds s w
  match chooseSpare s grade fprint (buddyPlace s w lost) with
  | some p => useSpare s w lost p
  | none =>
    if wingLead s then
      match wingSpare s grade fprint with
      | some p => useSpare s w lost p
      | none => failTakeover s w 1
    else if mayAsk then mgrSend s (0x4000 + leadNum s) 10 "wingSpareRequest" [mgrNum s % 16, w, grade, fprint]
    else failTakeover s w 1

/-- What was counted and asked of a worker is over. -/
def dropWatch (s : State) (w : Nat) : State :=
  { s with mgr := { s.mgr with probes := s.mgr.probes.filter (fun p => p.1 != w), missed := SMap.set 0 s.mgr.missed w 0 } }

/-- The copies that a lost worker was the source of (R364): without the buddy's slot there is no checkpoint, and the ward's follows once it is
itself restored. -/
def loseSource (s : State) (v : Nat) : State :=
  s.mgr.takeovers.foldl (fun s t =>
    if t.worker = v then s
    else if t.copies.contains 1 && buddyWorker s t.worker t.lost == some v then failTakeover s t.worker 2
    else if t.copies.contains 2 && wardWorker s t.worker t.lost == some v then
      putTakeover s { t with copies := t.copies.filter (· != 2), waits := true }
    else s) s

/-- A lost worker's takeover is on record; a spare that is lost while its takeover runs leaves the place that was lost first (R364). -/
def openTakeover (s : State) (w lost : Nat) (home : Option Nat) : State :=
  loseSource (setTko (putTakeover s { worker := w, lost := lost, spare := none, copies := [], waits := false, sec := s.chron.sec,
                                      ns := s.chron.ns, home := home }) w 0) w

/-- The place that a worker's takeover counts from. -/
def firstLost (s : State) (w pos : Nat) : Nat := match s.mgr.takeovers.find? fun t => t.worker == w with | some t => t.lost | none => pos

/-- The jobs that a loss affects fault, and those that it affects only through a route restart at once (R361, R362): `out` is what is out of
use now. -/
def faultAndReroute (s : State) (w : Nat) (a : Place) (out : State → State) : State :=
  let rs := affected s w a
  restartJobs (out (faultJobs s rs w true)) (rs.filter fun r => !r.workers.contains w) w

/-- A worker of this bay is out of use: its position is FAILED, nothing of it is watched any more, and the leads of its jobs elsewhere are
told, with whether this manager restores it (R361). -/
def loseWorker (s : State) (w p : Nat) (mine : Bool) : State :=
  let c := 128 * (if p < 64 then mgrNum s else leadNum s) + p
  faultAndReroute s w (placeHere s p) fun s => tellLeads (dropWatch (failPosition s p) w) "lost" [w, c, if mine then 1 else 0]

/-- A manager takes over for a lost worker (R361 to R364). A spare that is lost while its takeover runs is FAILED, and steps 2 to 7 repeat
with
the position that was lost first. -/
def takeover (s : State) (w pos : Nat) : State :=
  let lost := firstLost s w pos
  selectSpare (openTakeover (loseWorker s w pos true) w lost none) w lost true

/-- A worker is declared lost, once (R360, R372). One of no job that this manager leads has nothing for it to restore: its position is
FAILED, and the jobs whose routes pass
through it fault and restart (R361, R362). -/
def declareLost (s : State) (w : Nat) : State :=
  match positionOf s w with
  | some p =>
    if (relays s).any fun r => r.worker == w then takeover s w p else loseWorker s w p false
  | none => dropWatch s w

/-- The place of a worker that reports, by number; one that this manager does not know has none. -/
def reporterCode (s : State) (w : Nat) : Nat := (codeOfWorker s w).getD (128 * 256)

/-- The port of this manager by which a probe goes round a link: the worker's own shelf's, or the first whose route avoids the link (R360;
log entry 130). -/
def probePort (s : State) (b a : Place) (port : Nat) : Option Nat :=
  (b.shelf :: List.range 16).find? fun q => portUp s q && !(routeLegs s (placeAt (mgrNum s) (4 * q)) b).any (isLink a port)

/-- The probe sets out on another route than the reported link (R360): where every route of this manager ends in that link, the ordinary
route takes it to the reporter, whose port is down, and which sends it on by ALT (R347). -/
def sendProbe (s : State) (w code port : Nat) : State :=
  let m : LinkMsg := { dest := w, src := ownAddr s, vc := 10, what := "probe", words := [] }
  match (placeOfWorker s w).bind fun b => probePort s b (placeOfCode code) port with
  | some q => if q = fld (routeEntry s w) 0 4 then linkSend s m else enqueue s q m
  | none => linkSend s m

/-- Whether a reporter's link leads to where a worker stands now (R372): a report of the place that it has left is of no takeover. -/
def ledTo (s : State) (w code port : Nat) : Bool := decide (placeOfWorker s w = some ((placeOfCode code).via port))

/-- LOSS (R360, R372): a port's partner reports a worker; the manager probes it by another route. While the worker is being taken over, only
the report of its spare's link is one. -/
def execLoss (worker reporter port : Nat) (s : State) : Host.Outcome State Fault Refusal :=
  let code := reporterCode s reporter
  .next (if s.inReset || !s.mgrRole || (positionOf s worker).isNone || s.mgr.probes.any (fun p => p.1 == worker)
        || (takingOver s worker && !ledTo s worker code port) then s
    else sendProbe { s with mgr := { s.mgr with probes := s.mgr.probes ++ [(worker, code, port)] } } worker code port)

/-- PROBE_TIMEOUT (R360): 50 µs without an answer. -/
def execProbeTimeout (worker : Nat) (s : State) : Host.Outcome State Fault Refusal :=
  .next (if s.mgr.probes.any (fun p => p.1 == worker) then declareLost s worker else s)

/-- A link is out of use, and the jobs that this manager leads and whose routes used it fault and restart without a takeover (R360, R362). -/
def linkUnused (s : State) (w code port : Nat) : State :=
  let rs := usersOf s (placeOfCode code) port
  let s1 := faultJobs s rs w false
  let s2 : State := { s1 with mgr := { s1.mgr with out := s1.mgr.out ++ [(code, port)] } }
  setTko (restartJobs s2 rs w) w 4

/-- Only a link is lost: the leads of jobs elsewhere are told. -/
def linkOnly (s : State) (w code port : Nat) : State := tellLeads (linkUnused (dropWatch s w) w code port) "linkLost" [w, code, port]

/-- PROBE_ANSWER (R360, R362): the worker answers, and only the link is lost. -/
def execProbeAnswer (worker : Nat) (s : State) : Host.Outcome State Fault Refusal :=
  .next (match s.mgr.probes.find? fun p => p.1 == worker with
    | some (_, code, port) => linkOnly s worker code port
    | none => s)

/-- FATAL (R360, R364, R372): a worker that its Keeper finds unable to run jobs reports it; its manager declares it lost, once, and so a spare
that is taking over. -/
def execFatal (worker : Nat) (s : State) : Host.Outcome State Fault Refusal :=
  .next (if s.inReset then s
    else if s.mgrRole then (if s.mgr.takeovers.any (fun t => t.worker == worker && t.spare.isNone) then s else declareLost s worker)
    else if regFld s rLNK_WID 14 1 == 1 && worker == ownWid s then toManager s "fatal" [worker]
    else s)

/-- Whether a worker's port is in low-power idle by notice (R352, R372): the manager sees the port of a shelf head, and a shelf partner tells
of the others. -/
def restsByNotice (s : State) (w : Nat) : Bool :=
  s.mgr.resting.contains w || (match positionOf s w with
    | some p => decide (p < 64) && p % 4 == 0 && regFld s (rLNK_STAT (p / 4)) 5 1 == 1
    | none => false)

/-- A shelf partner has seen a worker rest, or wake. -/
def noteRest (s : State) (w : Nat) (rests : Bool) : State :=
  let left := s.mgr.resting.filter (· != w)
  { s with mgr := { s.mgr with resting := if rests then left ++ [w] else left } }

/-- HEARTBEAT_MISS (R352, R360): a heartbeat of a worker of this bay is missing; with the third in a row the worker is lost. -/
def execHeartbeatMiss (worker : Nat) (s : State) : Host.Outcome State Fault Refusal :=
  .next (if s.inReset || !s.mgrRole || (positionOf s worker).isNone || restsByNotice s worker || takingOver s worker then s
    else
      let n := SMap.get 0 s.mgr.missed worker + 1
      if 3 ≤ n then declareLost s worker
      else { s with mgr := { s.mgr with missed := SMap.set 0 s.mgr.missed worker n } })

/-- NOROUTE (R347): the manager faults the job of the source worker: FAULT goes to it, and its own FAULT to the others (R392). -/
def execNoroute (worker : Nat) (s : State) : Host.Outcome State Fault Refusal :=
  .next (if s.inReset || !s.mgrRole then s
    else
      let job := match partOf s worker with | some p => [p.relay.job] | none => []
      let rs := jobsWith s fun r => r.worker == worker
      let s1 := mgrSend s worker 10 "fault" (job ++ [0x14, 0])
      { s1 with mgr := { s1.mgr with failed := s1.mgr.failed ++ (rs.map (·.worker)).filter fun x => !s1.mgr.failed.contains x } })

/-- TAKEOVER_COPY_DONE (R362, R364): a copy of a takeover ends; a copy that read an uncorrectable unit ends the takeover. -/
def execTakeoverCopyDone (worker copy : Nat) (ok : Bool) (s : State) : Host.Outcome State Fault Refusal :=
  .next (match s.mgr.takeovers.find? fun t => t.worker == worker && t.copies.contains copy with
    | none => s
    | some t =>
      if !ok then failTakeover s worker 2
      else
        let left := t.copies.filter (· != copy)
        let s1 := putTakeover s { t with copies := left }
        if left.isEmpty && !t.waits then wakeWaiting (finishTakeover s1 worker) worker true else s1)

/-- WING_SPARE_REQUEST (R345, R363, R372): the wing lead grants a position of the wing spare shelf, first come, and sets its entry ACTIVE. -/
def execWingSpareRequest (bay worker grade fprint : Nat) (s : State) : Host.Outcome State Fault Refusal :=
  let dest := 0x4000 + mgrNum s + bay % 16
  .next (if s.inReset || !wingLead s then s
    else match wingSpare s grade fprint with
      | some p => mgrSend (setMap s p (.active worker)) dest 10 "spareGrant" [worker, p]
      | none => mgrSend s dest 10 "spareRefuse" [worker])

/-! ### Jobs that another bay's manager leads (R361, R362; log entry 130) -/

/-- Every port of a place is out of use. -/
def placeOut (s : State) (c : Nat) : State := { s with mgr := { s.mgr with out := s.mgr.out ++ (List.range 15).map fun p => (c, p) } }

/-- Manager m has declared a worker of its bay lost, of place number c: this manager's jobs fault, and it restores the worker where it leads
its job and m does not (`mine`): a stand-in is asked of m, whose bay's spares come first (R363). -/
def lostElsewhere (s : State) (m w c : Nat) (mine : Bool) : State :=
  let s1 := faultAndReroute s w (placeOfCode c) (placeOut · c)
  if mine || !(relays s).any (fun r => r.worker == w) then s1
  else
    let lost := firstLost s w c
    let s2 := openTakeover s1 w lost (some m)
    match buddyWorker s2 w lost with
    | some b =>
      if restorable s2 w lost then
        mgrSend s2 (0x4000 + m) 10 "standInRequest" [w, (folioNeeds s w).1, (folioNeeds s w).2, b]
      else failTakeover s2 w 2
    | none => failTakeover s2 w 2

/-- Another bay's manager has restored a worker: this manager's jobs of it restart there. -/
def restoredElsewhere (s : State) (w c : Nat) : State :=
  let s1 := moveWorker s w c
  let s2 := match partOf s1 w with | some p => sendRegions (sendImages s1 p) p.relay | none => s1
  restartJobs s2 ((jobsOf s1 w).filter fun r => s.mgr.failed.contains r.worker) w

/-- The answer to the lead that asked for a stand-in: where it stands, or that there is none. -/
def answerStandIn (s : State) (lead w : Nat) (c : Option Nat) : State :=
  match c with
  | some c => mgrSend s (0x4000 + lead) 10 "standIn" [w, c]
  | none => mgrSend s (0x4000 + lead) 10 "noStandIn" [w]

/-- A lead asks for a stand-in of a worker of this bay: a spare of the bay, by the hops from the buddy, else one of the wing spare shelf
(R345, R363). One that stands again is the answer to every lead. -/
def standInRequest (s : State) (lead w grade fprint buddy : Nat) : State :=
  let here (p : Nat) : State := answerStandIn (setMap s p (.active w)) lead w (some (128 * mgrNum s + p))
  match positionOf s w with
  | some _ => answerStandIn s lead w (codeOfWorker s w)
  | none =>
    match chooseSpare s grade fprint ((positionOf s buddy).getD 0) with
    | some p => here p
    | none =>
      if wingLead s then
        match wingSpare s grade fprint with
        | some p => here p
        | none => answerStandIn s lead w none
      else mgrSend { s with mgr := { s.mgr with asks := SMap.put s.mgr.asks w lead } } (0x4000 + leadNum s) 10 "wingSpareRequest"
        [mgrNum s % 16, w, grade, fprint]

/-- The stand-in's place reaches the lead: the copies start, or there is no spare. -/
def stoodIn (s : State) (w : Nat) (c : Option Nat) : State :=
  match s.mgr.takeovers.find? fun t => t.worker == w && t.spare.isNone && t.home.isSome with
  | none => s
  | some t => match c with
    | some c => startCopies s w t.lost c t.home
    | none => failTakeover s w 1

/-- The wing lead's answer reaches the manager that asked: the takeover goes on, or the manager selects again (R363, R364, R372); where it
asked for another lead, that one has the answer. -/
def spareAnswer (s : State) (w : Nat) (spare : Option Nat) : State :=
  match SMap.find s.mgr.asks w with
  | some lead =>
    let s1 : State := { s with mgr := { s.mgr with asks := SMap.del s.mgr.asks w } }
    (match spare with
      | some p => answerStandIn (standAt s1 p w) lead w (some (128 * leadNum s + p))
      | none => answerStandIn s1 lead w none)
  | none =>
    match s.mgr.takeovers.find? fun t => t.worker == w && t.spare.isNone && t.home.isNone with
    | none => s
    | some t => match spare with
      | some p => useSpare s w t.lost p
      | none => selectSpare s w t.lost false

/-! ### Seals and commit (R358) -/

/-- The largest epoch that every worker of a job has sealed; none while there is none. -/
def commonSeal (s : State) (ws : List Nat) : Option Nat :=
  match ws with
  | [] => none
  | v :: vs =>
    ((SMap.get [] s.mgr.seals v).filter fun e => vs.all fun w => (SMap.get [] s.mgr.seals w).contains e).foldl
      (fun m e => some (Nat.max e (m.getD e))) none

/-- A worker has sealed an epoch. -/
def noteSealed (s : State) (w e : Nat) : State :=
  let es := SMap.get [] s.mgr.seals w
  { s with mgr := { s.mgr with seals := SMap.put s.mgr.seals w (if es.contains e then es else es ++ [e]) } }

/-- SEALED (R358, R372): the buddy reports the ward's epoch to the lead manager, which sends COMMIT once every worker has sealed it. A seal
after the job's fault is ignored. A manager that does not lead the worker's job hands the report on to the one that does (log entry 130). -/
def execSealed (worker : Nat) (epoch : BitVec 32) (s : State) : Host.Outcome State Fault Refusal :=
  .next (if s.inReset || !s.mgrRole || s.mgr.failed.contains worker then s
    else match partOf s worker with
      | none => (SMap.get [] s.mgr.leads worker).foldl (fun s m => mgrSend s (0x4000 + m) 10 "sealed" [worker, epoch.toNat]) s
      | some p =>
        let s1 := noteSealed s worker epoch.toNat
        match commonSeal s1 p.relay.workers with
        | none => s1
        | some e =>
          if (commitOf s1 p.relay).any fun c => decide (e ≤ c) then s1
          else
            let low := minOf p.relay.worker p.relay.workers
            let s2 : State := { s1 with mgr := { s1.mgr with commits := SMap.put s1.mgr.commits low e } }
            p.relay.workers.foldl (fun s w => mgrSend s w 10 "commit" [e]) s2)

/-! ### The bay census table (R333, R355) -/

/-- The sum of two counters of an entry. -/
def satSum (a b : Word) : Word := BitVec.ofNat 32 (Nat.min (a.toNat + b.toNat) 0xFFFFFFFF)

/-- The larger of two words' numbers. -/
def laterWord (a b : Word) : Word := if a.toNat < b.toNat then b else a

/-- The bay entry of the census entries of one superstep (R332, R333): counters and tiles summed, flags joined, the longest span; the other
words are those of the entry read last (log entry 49). -/
def bayEntry (es : List (List Word)) : List Word :=
  let last := es.getLastD []
  let tiles := Nat.min (es.foldl (fun a e => a + fld (wordAt e 4) 0 12) 0) 0xFFF
  let span := es.foldl (fun a e => Nat.max a (fld (wordAt e 4) 16 8)) 0
  let flags := es.foldl (fun a e => a ||| wordAt e 5) 0
  [wordAt last 0, wordAt last 1, wordAt last 2, wordAt last 3, BitVec.ofNat 32 (tiles + span * 2 ^ 16), flags, 0x3FFF, wordAt last 7,
    BitVec.ofNat 32 es.length] ++ List.replicate 55 0
    ++ (List.range 448).map fun i => es.foldl (fun a e => satSum a (wordAt e (64 + i))) 0

/-- The entries of an index of the bay table with one more: those of another superstep leave it, and a worker's newer entry takes the place
of its older one. -/
def noteEntry (m : SMap (List Word)) (w : Nat) (words : List Word) : SMap (List Word) :=
  SMap.put (m.filter fun p => p.1 != w && wordAt p.2 0 == wordAt words 0) w words

/-- CENSUS_READ (R333, R355): the manager reads the census entry of a worker of its bay over VC 11, and folds it into the bay table; `words`
are what the read gives. -/
def execCensusRead (worker : Nat) (words : List Word) (s : State) : Host.Outcome State Fault Refusal :=
  .next (if s.inReset || s.dev == .boot || !s.mgrRole || cenDepth s == 0 || (positionOf s worker).isNone then s
    else
      let i := (wordAt words 0).toNat % 2 ^ cenDepth s
      let es := noteEntry (SMap.get [] s.mgr.bay i) worker words
      let s1 := mgrSend { s with mgr := { s.mgr with bay := SMap.put s.mgr.bay i es } } worker 11 "censusRead" []
      let a := regFld s rCEN_TABLE 0 20 * 0x200000 + i * 2048
      gddrWrite s1 a (wordsLe (bayEntry ((es.filter (fun p => p.1 != worker)).map (·.2) ++ [words]))))

/-! ### Messages -/

/-- A FAULT that a manager receives: the job of its sender has faulted (R358, R392). -/
def noteFault (s : State) (m : LinkMsg) : State :=
  let rs := jobsWith s fun r => r.workers.contains m.src && (match m.words.head? with | some n => n == r.job | none => true)
  { s with mgr := { s.mgr with failed := s.mgr.failed ++ (rs.map (·.worker)).filter fun x => !s.mgr.failed.contains x } }

/-- A delivered message (R347), a manager's among them. -/
def deliverAll (s : State) (m : LinkMsg) : State :=
  if !s.mgrRole then deliver s m
  else if m.what = "spareGrant" then spareAnswer s (m.words.getD 0 0) (some (m.words.getD 1 0))
  else if m.what = "spareRefuse" then spareAnswer s (m.words.getD 0 0) none
  else if m.what = "spareFailed" then setMap s (m.words.getD 0 0) .failed
  else if m.what = "routeChange" then routeChange s (m.src % 256) (m.words.getD 0 0) (m.words.getD 1 0)
  else if m.what = "lost" then lostElsewhere s (m.src % 256) (m.words.getD 0 0) (m.words.getD 1 0) (m.words.getD 2 0 == 1)
  else if m.what = "linkLost" then linkUnused s (m.words.getD 0 0) (m.words.getD 1 0) (m.words.getD 2 0)
  else if m.what = "restored" then restoredElsewhere s (m.words.getD 0 0) (m.words.getD 1 0)
  else if m.what = "standInRequest" then
    standInRequest s (m.src % 256) (m.words.getD 0 0) (m.words.getD 1 0) (m.words.getD 2 0) (m.words.getD 3 0)
  else if m.what = "standIn" then stoodIn s (m.words.getD 0 0) (some (m.words.getD 1 0))
  else if m.what = "noStandIn" then stoodIn s (m.words.getD 0 0) none
  else if m.what = "config" then fillGrade s m.src (m.words.getD 0 0)
  else if m.what = "resting" then noteRest s (m.words.getD 0 0) true
  else if m.what = "awake" then noteRest s (m.words.getD 0 0) false
  else if m.what = "fault" then noteFault s m
  else deliver s m

/-- LINK_MESSAGE_ROUTE (R347): delivered here, sent on its port, or discarded, in every device state. -/
def execLinkMessageRoute (m : LinkMsg) (s : State) : Host.Outcome State Fault Refusal :=
  .next (if s.inReset || !arrives s m then s
    else
      let s1 := unqueue s m
      if isOwn s m then deliverAll s1 m
      else if bit (routeEntry s m.dest) 4 then enqueue s1 (routePort s m) m
      else dropMessage s1 m)

end Sys2Proof.Machine
end

