-- ==== Sys2Proof/Machine/Registers.lean ====
section
/-! DEFINITION. Register accesses (R12, R13, R16, R349, R371, R396, R397, R413, R424, R425, R457 to R465): who reaches a page, what a write
does, and the commands of the common header. -/

namespace Sys2Proof.Machine

/-! ### Reaching a page -/

/-- A write to a page: the host's is discarded in BOOT but on the GLB page, and discarded and logged on a secure page; one to a hole is
counted; a TIL page without a logical tile drops it without an entry (R60, R424, R453, R457). -/
def pageWrite (s : State) (a : Actor) (page : Nat) (f : Block → Nat → State) : State :=
  let here := match a with | .host => hostReaches s && (s.dev != .boot || page == 0) | .secureActor => !s.inReset
  if !here then s
  else match pageBlock page with
    | none => countRange s
    | some (b, n) =>
      if unusedPage s b n then s
      else if a == .host && pageSecure s page then xlogPage s .bar0 true (page * 0x1000)
      else f b n

/-! ### CTRL (R396, R397, R462, R464) -/

/-- The owner of discarded reads meets poison (R462); `idx` and `n` are its granules, `slot` the first one's place in GDDR7. -/
def poisonOwner (s : State) (o : UnitOwner) (idx slot n : Nat) : State :=
  match o with
  | .tile x q id => poisonReq s x q id
  | .loan k => badGrans s k idx n
  | .copy k _ => rereadSlots s k false slot none n
  | .remote _ => s

/-- The accepted units of a controller are discarded: a read completes as poisoned, a write leaves its granules old (R462). -/
def abortMct (s : State) (n : Nat) : State :=
  let c := s.ctl n
  c.reads.foldl (fun s u => poisonOwner s u.owner u.idx (8 * u.unit + u.first) u.count) (s.setCtl n { c with reads := [], groups := [] })

/-- The accepted granules of a room are discarded, and its reads complete as poisoned (R462). -/
def abortRdr (s : State) (n : Nat) : State :=
  let r := s.room n
  let gone := r.banks.flatMap fun p => p.2.accs ++ p.2.held
  (gone.filter fun a => !a.write).foldl (fun s a => poisonOwner s a.owner a.idx 0 1)
    (s.setRoom n { r with banks := r.banks.foldl (fun b q => SMap.set Bank.off b q.1 { q.2 with accs := [], held := [] }) [] })

/-- What ABORT discards (R462). -/
def abortBlock (s : State) (b : Block) (n : Nat) : State :=
  match b with
  | .mct => abortMct s n
  | .lnd => match s.lend.cmd with | some _ => lndStatus { s with lend := { s.lend with cmd := none } } 2 | none => s
  | .rdr => abortRdr s n
  | .lnk => portDown (s.setPort n { s.port n with out := [], replay := [] }) n
  | .hif => dropDescriptor s
  | .rgs => if s.dev = .run then s else discardEntry s
  | _ => s

/-- A block accepts work again: DRAINED clears, a port trains, the DMA engine goes on (R340, R396, R411). -/
def resume (s : State) (b : Block) (n : Nat) : State :=
  let s1 := setFld s (b.reg n oSTAT) 0 1 0
  match b with
  | .lnk => if portUp s1 n || s1.keeper.recovering then s1 else s1.setPort n { s1.port n with training := portTrains s1 n }
  | .hif => dmaStart (takeLines s1)
  | .rdr => takeRoom s1 n
  | .mct => serveWaiting (secResume s1)
  | _ => s1

/-- The job fault that a disabling write raises in RUN (R397, R464): HOST_ABORT for ABORT of the RGS page. -/
def disableFault (s : State) (b : Block) (n : Nat) (drops abort : Bool) : State :=
  let page := b.page n
  let s1 := if s.dev = .run ∧ (drops ∨ (abort ∧ b ≠ .rgs)) then raiseFault s 0x18 page noSite else s
  if s.dev = .run ∧ abort ∧ b = .rgs then raiseFault s1 0x19 0 noSite else s1

/-- A write of CTRL: EN, DRAIN and ABORT, and the block bits of TIM; it clears the page's SEAL (R371, R396, R465). -/
def writeCtrl (s0 : State) (b : Block) (n : Nat) (w : Word) : State :=
  let s := clearSeal s0 (b.page n)
  let off := b.reg n oCTRL
  let en := regFld s off 0 1
  let dr := regFld s off 1 1
  let abort := bit w 2
  let drops := decide (en = 1 ∧ fld w 0 1 = 0) || decide (dr = 0 ∧ fld w 1 1 = 1)
  let was := accepts s (b.page n)
  let s1 := disableFault s b n drops abort
  let s2 := setFld (setFld s1 off 0 1 (if abort then 0 else fld w 0 1)) off 1 1 (fld w 1 1)
  let s3 := if abort then setFld (abortBlock s2 b n) (b.reg n oSTAT) 0 1 1 else s2
  let s4 := if accepts s3 (b.page n) && (!was || regFld s3 (b.reg n oSTAT) 0 1 == 1) then resume s3 b n else s3
  if b = .tim then
    let s5 := setFld s4 off 4 1 (fld w 4 1)
    if bit w 3 then stepChronicle s5 else s5
  else s4

/-- CTRL as it reads: EN, DRAIN and the FREE bit of TIM (R371, R396). -/
def ctrlWord (s : State) (page : Nat) : Word := maskOf (regRaw s (page * 0x1000 + oCTRL)) 0x13

/-- A write of CTRL by an actor. -/
def ctrlWrite (s : State) (a : Actor) (page : Nat) (w : Word) : State := pageWrite s a page fun b n => writeCtrl s b n w

/-- CTRL_EN_CLEAR (R396, R397). -/
def execCtrlEnClear (actor : Actor) (page : Nat) (s : State) : Host.Outcome State Fault Refusal :=
  .next (ctrlWrite s actor page (putFld (ctrlWord s page) 0 1 0))

/-- CTRL_DRAIN_SET (R396, R397). -/
def execCtrlDrainSet (actor : Actor) (page : Nat) (s : State) : Host.Outcome State Fault Refusal :=
  .next (ctrlWrite s actor page (putFld (ctrlWord s page) 1 1 1))

/-- CTRL_ABORT (R396, R397, R462). -/
def execCtrlAbort (actor : Actor) (page : Nat) (s : State) : Host.Outcome State Fault Refusal :=
  .next (ctrlWrite s actor page (putFld (ctrlWord s page) 2 1 1))

/-- CTRL_EN_SET (R396). -/
def execCtrlEnSet (actor : Actor) (page : Nat) (s : State) : Host.Outcome State Fault Refusal :=
  .next (ctrlWrite s actor page (putFld (ctrlWord s page) 0 1 1))

/-- CTRL_DRAIN_CLEAR (R396). -/
def execCtrlDrainClear (actor : Actor) (page : Nat) (s : State) : Host.Outcome State Fault Refusal :=
  .next (ctrlWrite s actor page (putFld (ctrlWord s page) 1 1 0))

/-- STEP (R367, R371). -/
def execStep (actor : Actor) (s : State) : Host.Outcome State Fault Refusal :=
  .next (ctrlWrite s actor (Block.tim.page 0) (putFld (ctrlWord s (Block.tim.page 0)) 3 1 1))

/-- Whether work that a block has accepted is still to be done, the write-back of its ledger cache apart. -/
def workLeft (s : State) (b : Block) (n : Nat) : Bool :=
  match b with
  | .mct => !(s.ctl n).reads.isEmpty || !(s.ctl n).groups.isEmpty
  | _ => hasWork s b n

/-- BLOCK_DRAIN_COMPLETE (R396, R462): a block that accepts nothing and holds nothing is DRAINED; a port then holds electrical idle. -/
def execBlockDrainComplete (page : Nat) (s : State) : Host.Outcome State Fault Refusal :=
  .next (match pageBlock page with
    | none => s
    | some (b, n) =>
      if s.inReset || accepts s page || workLeft s b n || unusedPage s b n then s
      else
        let s1 := match b with
          | .mct => writeBackCtl s n
          | .lnk => let t := portDown s n
                    t.setPort n { t.port n with training := false }
          | _ => s
        setFld s1 (page * 0x1000 + oSTAT) 0 1 1)

/-! ### ISTAT, IEN, IFORCE (R413, R460): a write to one of them clears the page's SEAL (R465) -/

/-- A write with a 1 in a reserved bit is unpredictable (R12). -/
def reservedSet (f : Fields) (w : Word) : Bool := (w.toNat &&& (bits 31 0 - (f.rw ||| f.rws ||| f.ro ||| f.w1c ||| f.wo))) != 0

/-- A write of ISTAT: written ones clear bits, and a vector whose condition stays true sends again (R413). -/
def writeIstat (s : State) (b : Block) (n : Nat) (w : Word) : State :=
  let off := b.reg n oISTAT
  followVectors true (clearSeal (setReg s off (regRaw s off &&& ~~~ (maskOf w (headerFields b n oISTAT).w1c))) (b.page n)) (pageVectors (b.page n))

/-- A write of IEN (R413). -/
def writeIen (s : State) (b : Block) (n : Nat) (w : Word) : State :=
  followVectors true (clearSeal (setReg s (b.reg n oIEN) (maskOf w (headerFields b n oIEN).rw)) (b.page n)) (pageVectors (b.page n))

/-- A write of IFORCE sets ISTAT bits as though their events had occurred (R413, R471). -/
def writeIforce (s : State) (b : Block) (n : Nat) (w : Word) : State :=
  setIstat (clearSeal s (b.page n)) (b.page n) (maskOf w (headerFields b n 0x018).wo).toNat

/-! ### Reads with an effect (R458) -/

/-- What a read gives the host, as bytes. -/
def readData (s : State) (bs : List Byte) : State := { s with host := { s.host with data := bs, poison := false } }

/-- A read that reaches a page; what the host reads on a secure page is 0, and logged (R424), and in BOOT on any page but GLB's 0 (R453). -/
def pageRead (s : State) (a : Actor) (page : Nat) (f : State → State) : State :=
  let here := match a with | .host => hostReaches s | .secureActor => !s.inReset
  if !here then s
  else if a == .host && s.dev == .boot && page != 0 then readData s (natLe 4 0)
  else if a == .host && pageSecure s page then readData (xlogPage s .bar0 false (page * 0x1000)) (natLe 4 0)
  else f s

/-- The oldest entry leaves the non-secure log; XLOG clears with the last one (R425, R470). -/
def popXlog (s : State) : State :=
  let rest := s.keeper.xlog.drop 1
  let s1 : State := { s with keeper := { s.keeper with xlog := rest } }
  if rest.isEmpty then followVectors false (setFld s1 (Block.glb.reg 0 oISTAT) 0 1 0) (pageVectors 0) else s1

/-- A read of a register: its word, and beside it the two effects that a read has (R458). -/
def readReg (s : State) (off : Nat) : State :=
  let s1 := readData s (natLe 4 (regRead s off).toNat)
  if off = Block.glb.reg 0 0x0B0 then popXlog s1
  else if off = Block.tim.reg 0 0x040 then { s1 with chron := { s1.chron with latched := s1.chron.ns } }
  else s1

/-- GLB_XLOG0_READ (R425): word 0 of the oldest entry, which leaves the log. -/
def execGlbXlog0Read (actor : Actor) (s : State) : Host.Outcome State Fault Refusal :=
  .next (pageRead s actor 0 fun s => readReg s (Block.glb.reg 0 0x0B0))

/-- TIM_SEC_READ (R371): the nanoseconds are latched for the next read of TIM_NS. -/
def execTimSecRead (actor : Actor) (s : State) : Host.Outcome State Fault Refusal :=
  .next (pageRead s actor (Block.tim.page 0) fun s => readReg s (Block.tim.reg 0 0x040))

/-- A read of BAR0 (R405, R406, R457): one that is not 4 B aligned to 4 B, or that meets a hole, gives 0 and is counted; a TIL page without a
logical tile reads 0 with no entry (R60). -/
def bar0Read (s : State) (a : Actor) (off n : Nat) : State :=
  let here := match a with | .host => hostReaches s | .secureActor => !s.inReset
  if !here then s
  else if a == .host && s.dev == .boot && ((off / 0x1000 != 0 && !inMsix off) || n != 4 || off % 4 != 0) then readData s (natLe n 0)
  else if n ≠ 4 ∨ off % 4 ≠ 0 then countRange (readData s (natLe n 0))
  else if inMsix off then readReg s off
  else match pageBlock (off / 0x1000) with
    | none => countRange (readData s (natLe 4 0))
    | some (b, k) => if unusedPage s b k then readData s (natLe 4 (regRead s off).toNat) else pageRead s a (off / 0x1000) (readReg · off)

/-! ### Register writes (R13, R16, R465) -/

/-- Fields that may be written in any device state (R465), by register. -/
def freeInRun (b : Block) (o : Nat) : Bool :=
  o == oISTAT || o == oIEN || o == 0x018 || o == oCTRL || o == oSEAL ||
  (match b with
    | .tim => o == 0x048 || o == 0x04C
    | .cpw => o == 0x04C || o == 0x05C
    | .mct => o == 0x040
    | .lnk => o == 0x040
    | .hif => o == 0x120 || o == 0x124
    | .rgs => o == 0x044 || o == 0x054
    | .glb => o == 0x080 || decide (0x084 ≤ o ∧ o ≤ 0x0A0)
    | .lnd => o == 0x04C
    | _ => false)

/-- Whether the folio of the current entry names a page (R380, R465). -/
def pageNamed (s : State) (b : Block) (n : Nat) : Bool :=
  match s.rgs.cur with
  | none => false
  | some i =>
    let pages := match s.rgs.job with | some j => j.pages | none => (readHeader s (circEntry s i).folio).pages
    (List.range 13).any fun k => bit pages k && (pagesBit k).1 == b && (pagesBit k).2 == n

/-- Whether a write changes configuration while that is unpredictable (R13, R349, R465): of any page in RUN, of a page named in PAGES from
ACCESSION to the end of the job. -/
def lockedNow (s : State) (b : Block) (n o : Nat) (secure : Bool) : Bool :=
  let f := fieldsOf b n o
  let rw := f.rw != 0 || (f.rws != 0 && secure)
  !freeInRun b o && ((s.dev == .run && rw)
    || ((s.dev == .accession || s.dev == .armed || s.dev == .run || s.dev == .drain || s.dev == .faulted)
        && (rw || f.w1c != 0 || f.wo != 0) && pageNamed s b n))

/-- Whether the outcome of a write is unpredictable (R12, R13). -/
def unpredictable (s : State) (b : Block) (n o : Nat) (w : Word) (secure : Bool) : Bool :=
  reservedSet (fieldsOf b n o) w || !valueInRange b o w || lockedNow s b n o secure

/-- A register word after a write by its access codes (R16): RW takes the value, RWS the secure world's alone, W1C clears. -/
def writtenWord (f : Fields) (old w : Word) (secure : Bool) : Word :=
  mergeBits old w (f.rw + (if secure then f.rws else 0)) &&& ~~~ (maskOf w f.w1c)

/-- A non-secure write that would change an RWS field is logged (R16, R424). -/
def logRws (s : State) (b : Block) (n o : Nat) (w : Word) (secure : Bool) : State :=
  let f := fieldsOf b n o
  if !secure && maskOf (regRaw s (b.reg n o)) f.rws != maskOf w f.rws then xlogPage s .bar0 true (b.page n * 0x1000) else s

/-- WORLD, written by a secure actor: LOCK keeps both fields (R420). -/
def writeWorld (s : State) (b : Block) (n : Nat) (w : Word) : State :=
  let off := b.reg n oWORLD
  if regFld s off 1 1 = 1 then s else setFld s off 0 2 (fld w 0 2)

/-- What a register of a block does beside taking its fields: commands and the route table (R286, R349, R358, R374, R376, R426, R450). -/
def writeBehaviour (s : State) (b : Block) (n o : Nat) (w : Word) (secure : Bool) : State :=
  match b with
  | .glb => if o = 0x080 ∧ bit w 31 then mailboxGo s (fld w 0 8) else s
  | .lnd => if o = 0x04C ∧ bit w 31 then lndCommand (wake s) secure (fld w 19 2) (fld w 0 19) else s
  | .rgs =>
    if o = 0x044 then submitEntry s (fld w 0 8)
    else if o = 0x054 then (if fld w 0 2 = 1 then holdRetry s else if fld w 0 2 = 2 then holdDiscard s else s)
    else s
  | .cpw => if o = 0x05C ∧ bit w 31 then requestReset s else s
  | .lnk =>
    if n = 0 ∧ o = 0x108 then { s with route := SMap.set 0 s.route (regFld s rLNK_RT_ADDR 0 15) (BitVec.ofNat 32 (fld w 0 10)) }
    else if n = 0 ∧ o = 0x11C then releaseHeld s
    else s
  | _ => s

/-- A write of a block-specific register: its fields, the page's SEAL, and what the register does (R16, R382). -/
def writeBlock (s : State) (b : Block) (n o : Nat) (w : Word) (secure : Bool) : State :=
  let off := b.reg n o
  let s1 := setReg (logRws s b n o w secure) off (writtenWord (blockFields b n o) (regRaw s off) w secure)
  writeBehaviour (clearSeal s1 (b.page n)) b n o w secure

/-- A write of a register whose outcome is predictable. -/
def writeReg (s : State) (b : Block) (n o : Nat) (w : Word) (secure : Bool) : State :=
  if o = oWORLD then (if secure then writeWorld s b n w else logRws s b n o w secure)
  else if o = oSTAT then setReg s (b.reg n o) (regRaw s (b.reg n o) &&& ~~~ (maskOf w (headerFields b n o).w1c))
  else if o = oISTAT then writeIstat s b n w
  else if o = oIEN then writeIen s b n w
  else if o = 0x018 then writeIforce s b n w
  else if o = oCTRL then writeCtrl s b n w
  else if o = oSEAL then setReg s (b.reg n oSEAL) w
  else if o < 0x040 ∨ fieldsOf b n o = Fields.none then s
  else writeBlock s b n o w secure

/-- A write whose outcome is unpredictable (R11 to R13; log entry 12): the fields that the actor may write take free values, and the current
job may fault. Nothing of another job or world changes: WORLD takes what a secure actor writes, RGS_CIRC keeps its value, no command is
given, and CTRL neither aborts nor steps. -/
def writeFree (s : State) (b : Block) (n o : Nat) (w : Word) (secure : Bool) : State :=
  let f := fieldsOf b n o
  let v := maskOf (BitVec.ofNat 32 (freeWord s).toNat) (f.rw ||| f.rws ||| f.ro ||| f.w1c ||| f.wo)
  let s0 := drew s 1
  mayFault (
    if o = oWORLD then writeReg s0 b n o w secure
    else if o = oCTRL then writeCtrl s0 b n (maskOf v f.rw)
    else if o < 0x040 then writeReg s0 b n o v secure
    else if b = .rgs ∧ o = 0x040 then clearSeal s0 (b.page n)
    else
      let s1 := logRws s0 b n o w secure
      clearSeal (setReg s1 (b.reg n o) (writtenWord f (regRaw s1 (b.reg n o)) v secure)) (b.page n))

/-- A write that reaches a register (R12, R13, R16). -/
def writePage (s : State) (b : Block) (n o : Nat) (w : Word) (secure : Bool) : State :=
  if unpredictable s b n o w secure then writeFree s b n o w secure else writeReg s b n o w secure

/-- ISTAT_W1C (R413). -/
def execIstatW1c (actor : Actor) (page : Nat) (w : Word) (s : State) : Host.Outcome State Fault Refusal :=
  .next (pageWrite s actor page fun b n => writePage s b n oISTAT w (actor == .secureActor))

/-- IEN_WRITE (R413). -/
def execIenWrite (actor : Actor) (page : Nat) (w : Word) (s : State) : Host.Outcome State Fault Refusal :=
  .next (pageWrite s actor page fun b n => writePage s b n oIEN w (actor == .secureActor))

/-- IFORCE (R413). -/
def execIforce (actor : Actor) (page : Nat) (w : Word) (s : State) : Host.Outcome State Fault Refusal :=
  .next (pageWrite s actor page fun b n => writePage s b n 0x018 w (actor == .secureActor))

/-- A write to the MSI-X table: the last word of an entry holds its mask, the others are stored (R405, R413). -/
def writeMsix (s : State) (off : Nat) (w : Word) : State :=
  let v := (off - msixTable) / 16
  if off % 16 ≠ 12 then setReg s off w
  else if bit w 0 then { s with host := { s.host with mask := SMap.set true s.host.mask v true } }
  else unmask s v

/-- A write of BAR0 that is not 4 B aligned to 4 B is discarded and counted (R406). -/
def badWrite (s : State) (a : Actor) : State := if a == .secureActor || !hostReaches s || s.dev == .boot then s else countRange s

/-- A 4 B write at an aligned offset of BAR0 (R16, R457). -/
def bar0Write (s : State) (a : Actor) (off : Nat) (w : Word) : State :=
  let secure := a == .secureActor
  if msixTable ≤ off ∧ off < msixTable + 0x400 then (if secure || hostReaches s then writeMsix s off w else s)
  else if msixPba ≤ off ∧ off < msixPba + 8 then s
  else pageWrite s a (off / 0x1000) fun b n => writePage s b n (off % 0x1000) w secure

/-- REGISTER_WRITE (R12, R13, R16, R382, R406, R457, R458): an access at an offset of BAR0; the table's row is the 4 B write, and reads and
accesses of another size come with it (log entry 134). -/
def execRegisterWrite (actor : Actor) (off : Nat) (a : Bar0Access) (s : State) : Host.Outcome State Fault Refusal :=
  .next (match a with
    | .word w => if off % 4 ≠ 0 then badWrite s actor else bar0Write s actor off w
    | .bytes _ => badWrite s actor
    | .read n => bar0Read s actor off n)

/-! ### LND_CMD (R286, R445) -/

/-- The host writes LND_CMD with GO. -/
def lndGo (s : State) (op i : Nat) : State :=
  hostPageWrite s (Block.lnd.page 0) fun s => lndCommand (clearSeal (wake s) (Block.lnd.page 0)) false op i

/-- PAGEIN (R286). -/
def execPagein (card : BitVec 19) (s : State) : Host.Outcome State Fault Refusal := .next (lndGo s 1 card.toNat)

/-- PAGEOUT (R286). -/
def execPageout (card : BitVec 19) (s : State) : Host.Outcome State Fault Refusal := .next (lndGo s 2 card.toNat)

end Sys2Proof.Machine
end

