-- ==== Sys2Proof/Machine/Dispatch.lean ====
section
/-! DEFINITION. The dispatch: one arm per command, each one call of its meaning. -/

namespace Sys2Proof.Machine

/-- The effect of a command on everything but the queue. -/
def exec (i : Instr) (s : State) : Host.Outcome State Fault Refusal :=
  match i with
  | .nop site slot w => Sys2Proof.Machine.execNop site slot w s
  | .halt site w => Sys2Proof.Machine.execHalt site w s
  | .haltComplete site => Sys2Proof.Machine.execHaltComplete site s
  | .br site w => Sys2Proof.Machine.execBr site w s
  | .loop site w => Sys2Proof.Machine.execLoop site w s
  | .loopBackEdge site => Sys2Proof.Machine.execLoopBackEdge site s
  | .salu site w => Sys2Proof.Machine.execSalu site w s
  | .salui site w => Sys2Proof.Machine.execSalui site w s
  | .sli site w => Sys2Proof.Machine.execSli site w s
  | .aop site w => Sys2Proof.Machine.execAop site w s
  | .sld site w => Sys2Proof.Machine.execSld site w s
  | .sst site w => Sys2Proof.Machine.execSst site w s
  | .qreq site w => Sys2Proof.Machine.execQreq site w s
  | .qreqRetire site => Sys2Proof.Machine.execQreqRetire site s
  | .qwait site w => Sys2Proof.Machine.execQwait site w s
  | .qwaitRetire site => Sys2Proof.Machine.execQwaitRetire site s
  | .bell site w => Sys2Proof.Machine.execBell site w s
  | .xsend site w => Sys2Proof.Machine.execXsend site w s
  | .xrecv site w => Sys2Proof.Machine.execXrecv site w s
  | .wopen site w => Sys2Proof.Machine.execWopen site w s
  | .slip site w => Sys2Proof.Machine.execSlip site w s
  | .cens site w => Sys2Proof.Machine.execCens site w s
  | .mma site w => Sys2Proof.Machine.execMma site w s
  | .mconv site w => Sys2Proof.Machine.execMconv site w s
  | .mdist site w => Sys2Proof.Machine.execMdist site w s
  | .sliceAccumulate site => Sys2Proof.Machine.execSliceAccumulate site s
  | .replayDecision site => Sys2Proof.Machine.execReplayDecision site s
  | .mdrain site w => Sys2Proof.Machine.execMdrain site w s
  | .drainRowWrite site => Sys2Proof.Machine.execDrainRowWrite site s
  | .mscale site w => Sys2Proof.Machine.execMscale site w s
  | .vadd site w vext => Sys2Proof.Machine.execVadd site w vext s
  | .vsub site w vext => Sys2Proof.Machine.execVsub site w vext s
  | .vmul site w vext => Sys2Proof.Machine.execVmul site w vext s
  | .vfma site w vext => Sys2Proof.Machine.execVfma site w vext s
  | .vmin site w vext => Sys2Proof.Machine.execVmin site w vext s
  | .vmax site w vext => Sys2Proof.Machine.execVmax site w vext s
  | .vcmp site w vext => Sys2Proof.Machine.execVcmp site w vext s
  | .vsel site w vext => Sys2Proof.Machine.execVsel site w vext s
  | .vcvtPlain site w vext => Sys2Proof.Machine.execVcvtPlain site w vext s
  | .vcvtSlice site w vext => Sys2Proof.Machine.execVcvtSlice site w vext s
  | .vcvtRecombine7 site w vext => Sys2Proof.Machine.execVcvtRecombine7 site w vext s
  | .vcvtRecombine6 site w vext => Sys2Proof.Machine.execVcvtRecombine6 site w vext s
  | .vred site w vext => Sys2Proof.Machine.execVred site w vext s
  | .vdiv site w vext => Sys2Proof.Machine.execVdiv site w vext s
  | .vsqrt site w vext => Sys2Proof.Machine.execVsqrt site w vext s
  | .vrcp site w vext => Sys2Proof.Machine.execVrcp site w vext s
  | .vrsqrt site w vext => Sys2Proof.Machine.execVrsqrt site w vext s
  | .vexp site w vext => Sys2Proof.Machine.execVexp site w vext s
  | .vlog site w vext => Sys2Proof.Machine.execVlog site w vext s
  | .vtanh site w vext => Sys2Proof.Machine.execVtanh site w vext s
  | .vld site w vext => Sys2Proof.Machine.execVld site w vext s
  | .vst site w vext => Sys2Proof.Machine.execVst site w vext s
  | .vupd site w vext => Sys2Proof.Machine.execVupd site w vext s
  | .vectorBeatWrite site => Sys2Proof.Machine.execVectorBeatWrite site s
  | .landingWrite site => Sys2Proof.Machine.execLandingWrite site s
  | .sendingRead site => Sys2Proof.Machine.execSendingRead site s
  | .requestLapsed site q req => Sys2Proof.Machine.execRequestLapsed site q req s
  | .poisonPosted site q req => Sys2Proof.Machine.execPoisonPosted site q req s
  | .bellArrive site => Sys2Proof.Machine.execBellArrive site s
  | .bellRelease => Sys2Proof.Machine.execBellRelease s
  | .exchangePhaseEnd site => Sys2Proof.Machine.execExchangePhaseEnd site s
  | .bellTimeout => Sys2Proof.Machine.execBellTimeout s
  | .superstepOverrun => Sys2Proof.Machine.execSuperstepOverrun s
  | .evalOverrun => Sys2Proof.Machine.execEvalOverrun s
  | .jobLate => Sys2Proof.Machine.execJobLate s
  | .censusFold => Sys2Proof.Machine.execCensusFold s
  | .routerGrant node plane out => Sys2Proof.Machine.execRouterGrant node plane out s
  | .exchangeArrival site => Sys2Proof.Machine.execExchangeArrival site s
  | .addfRead site => Sys2Proof.Machine.execAddfRead site s
  | .addfWrite site => Sys2Proof.Machine.execAddfWrite site s
  | .fence site => Sys2Proof.Machine.execFence site s
  | .groupUngate group => Sys2Proof.Machine.execGroupUngate group s
  | .gddr7Access mc unit ce ue => Sys2Proof.Machine.execGddr7Access mc unit ce ue s
  | .controllerUnitArrival mc => Sys2Proof.Machine.execControllerUnitArrival mc s
  | .ledgerAdd mc ce ue => Sys2Proof.Machine.execLedgerAdd mc ce ue s
  | .ledgerForward f => Sys2Proof.Machine.execLedgerForward f s
  | .roomBankAccess room bank => Sys2Proof.Machine.execRoomBankAccess room bank s
  | .bankWakeDone room bank => Sys2Proof.Machine.execBankWakeDone room bank s
  | .bankGate room bank => Sys2Proof.Machine.execBankGate room bank s
  | .gateTimeout room bank => Sys2Proof.Machine.execGateTimeout room bank s
  | .loanAdmit => Sys2Proof.Machine.execLoanAdmit s
  | .cardFetchDone key ue => Sys2Proof.Machine.execCardFetchDone key ue s
  | .pageInDone key => Sys2Proof.Machine.execPageInDone key s
  | .loanRetire key => Sys2Proof.Machine.execLoanRetire key s
  | .loanLapse key => Sys2Proof.Machine.execLoanLapse key s
  | .replicaReread key unit => Sys2Proof.Machine.execReplicaReread key unit s
  | .loanPoison key => Sys2Proof.Machine.execLoanPoison key s
  | .hostLineComplete owner line ok data => Sys2Proof.Machine.execHostLineComplete owner line ok data s
  | .streamReady stream tile must => Sys2Proof.Machine.execStreamReady stream tile must s
  | .streamAck stream => Sys2Proof.Machine.execStreamAck stream s
  | .rgsSubmit entry => Sys2Proof.Machine.execRgsSubmit entry s
  | .submit entry => Sys2Proof.Machine.execSubmit entry s
  | .retry => Sys2Proof.Machine.execRetry s
  | .discard => Sys2Proof.Machine.execDiscard s
  | .accessionStart => Sys2Proof.Machine.execAccessionStart s
  | .accessionDone => Sys2Proof.Machine.execAccessionDone s
  | .accessionResume => Sys2Proof.Machine.execAccessionResume s
  | .quadrantPllLock => Sys2Proof.Machine.execQuadrantPllLock s
  | .armedComplete host => Sys2Proof.Machine.execArmedComplete host s
  | .ready worker => Sys2Proof.Machine.execReady worker s
  | .go => Sys2Proof.Machine.execGo s
  | .drainStart => Sys2Proof.Machine.execDrainStart s
  | .drainComplete => Sys2Proof.Machine.execDrainComplete s
  | .jobFault => Sys2Proof.Machine.execJobFault s
  | .fault sender job cause => Sys2Proof.Machine.execFault sender job cause s
  | .arrive worker len => Sys2Proof.Machine.execArrive worker len s
  | .release len => Sys2Proof.Machine.execRelease len s
  | .bootEntry mgrSel => Sys2Proof.Machine.execBootEntry mgrSel s
  | .bootComplete => Sys2Proof.Machine.execBootComplete s
  | .recovery img => Sys2Proof.Machine.execRecovery img s
  | .powerOnReset railLost => Sys2Proof.Machine.execPowerOnReset railLost s
  | .moduleReset => Sys2Proof.Machine.execModuleReset s
  | .softwareReset => Sys2Proof.Machine.execSoftwareReset s
  | .thermalTrip => Sys2Proof.Machine.execThermalTrip s
  | .watchdogReset => Sys2Proof.Machine.execWatchdogReset s
  | .perstN => Sys2Proof.Machine.execPerstN s
  | .functionLevelReset => Sys2Proof.Machine.execFunctionLevelReset s
  | .hostLinkDown => Sys2Proof.Machine.execHostLinkDown s
  | .hostLinkUp mode width => Sys2Proof.Machine.execHostLinkUp mode width s
  | .thermalTick r => Sys2Proof.Machine.execThermalTick r s
  | .dSleepEntry => Sys2Proof.Machine.execDSleepEntry s
  | .wakeTrigger => Sys2Proof.Machine.execWakeTrigger s
  | .selfRefreshExitDone => Sys2Proof.Machine.execSelfRefreshExitDone s
  | .ctrlEnClear actor page => Sys2Proof.Machine.execCtrlEnClear actor page s
  | .ctrlDrainSet actor page => Sys2Proof.Machine.execCtrlDrainSet actor page s
  | .ctrlAbort actor page => Sys2Proof.Machine.execCtrlAbort actor page s
  | .ctrlEnSet actor page => Sys2Proof.Machine.execCtrlEnSet actor page s
  | .ctrlDrainClear actor page => Sys2Proof.Machine.execCtrlDrainClear actor page s
  | .blockDrainComplete page => Sys2Proof.Machine.execBlockDrainComplete page s
  | .istatW1c actor page w => Sys2Proof.Machine.execIstatW1c actor page w s
  | .ienWrite actor page w => Sys2Proof.Machine.execIenWrite actor page w s
  | .iforce actor page w => Sys2Proof.Machine.execIforce actor page w s
  | .glbXlog0Read actor => Sys2Proof.Machine.execGlbXlog0Read actor s
  | .timSecRead actor => Sys2Proof.Machine.execTimSecRead actor s
  | .step actor => Sys2Proof.Machine.execStep actor s
  | .registerWrite actor off a => Sys2Proof.Machine.execRegisterWrite actor off a s
  | .bar2Access a => Sys2Proof.Machine.execBar2Access a s
  | .hdmAccess a => Sys2Proof.Machine.execHdmAccess a s
  | .dmaTail tail => Sys2Proof.Machine.execDmaTail tail s
  | .dmaDescriptorDone words data poisoned => Sys2Proof.Machine.execDmaDescriptorDone words data poisoned s
  | .pagein card => Sys2Proof.Machine.execPagein card s
  | .pageout card => Sys2Proof.Machine.execPageout card s
  | .lndCmdDone data badLines ce ue => Sys2Proof.Machine.execLndCmdDone data badLines ce ue s
  | .regionSet src args => Sys2Proof.Machine.execRegionSet src args s
  | .regionClear src args => Sys2Proof.Machine.execRegionClear src args s
  | .regionRead src args => Sys2Proof.Machine.execRegionRead src args s
  | .adopt src args => Sys2Proof.Machine.execAdopt src args s
  | .adoptComplete => Sys2Proof.Machine.execAdoptComplete s
  | .scrubComplete => Sys2Proof.Machine.execScrubComplete s
  | .setDigest src args => Sys2Proof.Machine.execSetDigest src args s
  | .secWrite src args => Sys2Proof.Machine.execSecWrite src args s
  | .pageWorld src args => Sys2Proof.Machine.execPageWorld src args s
  | .mgrTrust src args => Sys2Proof.Machine.execMgrTrust src args s
  | .commitSvn src args => Sys2Proof.Machine.execCommitSvn src args s
  | .revoke src args => Sys2Proof.Machine.execRevoke src args s
  | .getVersion => Sys2Proof.Machine.execGetVersion s
  | .getCapabilities => Sys2Proof.Machine.execGetCapabilities s
  | .negotiateAlgorithms => Sys2Proof.Machine.execNegotiateAlgorithms s
  | .getDigests => Sys2Proof.Machine.execGetDigests s
  | .getCertificate slot offset len => Sys2Proof.Machine.execGetCertificate slot offset len s
  | .challenge slot nonce => Sys2Proof.Machine.execChallenge slot nonce s
  | .getMeasurements index signed => Sys2Proof.Machine.execGetMeasurements index signed s
  | .keyExchange exchange => Sys2Proof.Machine.execKeyExchange exchange s
  | .finish session verify => Sys2Proof.Machine.execFinish session verify s
  | .spdmHeartbeat session => Sys2Proof.Machine.execSpdmHeartbeat session s
  | .sessionHeartbeatTimeout session => Sys2Proof.Machine.execSessionHeartbeatTimeout session s
  | .keyUpdate session => Sys2Proof.Machine.execKeyUpdate session s
  | .endSession session => Sys2Proof.Machine.execEndSession session s
  | .vendorDefinedRequest session code args => Sys2Proof.Machine.execVendorDefinedRequest session code args s
  | .cxlTableAccess => Sys2Proof.Machine.execCxlTableAccess s
  | .discovery doe => Sys2Proof.Machine.execDiscovery doe s
  | .doeAbort doe => Sys2Proof.Machine.execDoeAbort doe s
  | .linkTrainDone port gen peer peerPort => Sys2Proof.Machine.execLinkTrainDone port gen peer peerPort s
  | .linkTrainRetry port => Sys2Proof.Machine.execLinkTrainRetry port s
  | .linkFlitGrant port => Sys2Proof.Machine.execLinkFlitGrant port s
  | .flitResend port failed => Sys2Proof.Machine.execFlitResend port failed s
  | .linkDown port => Sys2Proof.Machine.execLinkDown port s
  | .linkMessageRoute m => Sys2Proof.Machine.execLinkMessageRoute m s
  | .noroute worker => Sys2Proof.Machine.execNoroute worker s
  | .heartbeat => Sys2Proof.Machine.execHeartbeat s
  | .heartbeatMiss worker => Sys2Proof.Machine.execHeartbeatMiss worker s
  | .mgrLost => Sys2Proof.Machine.execMgrLost s
  | .lpiNotice port own => Sys2Proof.Machine.execLpiNotice port own s
  | .portWake port => Sys2Proof.Machine.execPortWake port s
  | .loss worker reporter port => Sys2Proof.Machine.execLoss worker reporter port s
  | .probeTimeout worker => Sys2Proof.Machine.execProbeTimeout worker s
  | .probeAnswer worker => Sys2Proof.Machine.execProbeAnswer worker s
  | .fatal worker => Sys2Proof.Machine.execFatal worker s
  | .takeoverCopyDone worker copy ok => Sys2Proof.Machine.execTakeoverCopyDone worker copy ok s
  | .wingSpareRequest bay worker grade fprint => Sys2Proof.Machine.execWingSpareRequest bay worker grade fprint s
  | .jobRelay r => Sys2Proof.Machine.execJobRelay r s
  | .routeWrite index entry => Sys2Proof.Machine.execRouteWrite index entry s
  | .mirrorWrite worker secure addr data => Sys2Proof.Machine.execMirrorWrite worker secure addr data s
  | .sealed worker epoch => Sys2Proof.Machine.execSealed worker epoch s
  | .commit epoch => Sys2Proof.Machine.execCommit epoch s
  | .censusRead worker words => Sys2Proof.Machine.execCensusRead worker words s
  | .timeAlign t => Sys2Proof.Machine.execTimeAlign t s
  | .ppsEdge interval => Sys2Proof.Machine.execPpsEdge interval s
  | .ppsLost => Sys2Proof.Machine.execPpsLost s
  | .alignmentTimeout => Sys2Proof.Machine.execAlignmentTimeout s
  | .keeperCommandVc11 manager code args => Sys2Proof.Machine.execKeeperCommandVc11 manager code args s
  | .acknowledgementReturn site q req => Sys2Proof.Machine.execAcknowledgementReturn site q req s
  | .electricalIdleLoss port => Sys2Proof.Machine.execElectricalIdleLoss port s
  | .vectorUnmask vector => Sys2Proof.Machine.execVectorUnmask vector s
  | .configurationRequest r => Sys2Proof.Machine.execConfigurationRequest r s
  | .hdmDecoderCommit => Sys2Proof.Machine.execHdmDecoderCommit s
  | .functionReady => Sys2Proof.Machine.execFunctionReady s

end Sys2Proof.Machine
end

