-- ==== Sys2Proof/WellFormed.lean ====
section
/-! DEFINITION. Well-formed commands: every operand names a unit that every Novhar has (R3, R7, R40, R54, R269, R278). -/

namespace Sys2Proof

/-- A physical site, 0 to 2,111 (R54). -/
def siteOk (x : Site) : Bool := decide (x < 2112)
/-- A queue of a tile, 0 to 15 (R40). -/
def queueOk (q : Nat) : Bool := decide (q < 16)
/-- A room, 0 to 63, and a bank of it, 0 to 15 (R278). -/
def roomBankOk (r b : Nat) : Bool := decide (r < 64) && decide (b < 16)
/-- A link port, 0 to 15 (R340). -/
def portOk (p : Nat) : Bool := decide (p < 16)
/-- A worker ID, 0 to 9,999 (R5). -/
def workerOk (w : Nat) : Bool := decide (w < 10000)
/-- A register page: base / 0x1000 (R456). -/
def pageOk (p : Nat) : Bool := decide (p ≤ 0x5000)
/-- A source of Keeper commands. -/
def ksourceOk : KSource → Bool
  | .mailbox => true
  | .secure => true
  | .vc11 m => decide (m < 16384)
/-- A loan's key: an entry of the lending schedule, or a LOAN request. -/
def loanKeyOk : LoanKey → Bool
  | .sched n => decide (n < 65536)
  | .demand s q _ => siteOk s && queueOk q
/-- An owner of host lines. -/
def hostOwnerOk : HostOwner → Bool
  | .tile s q _ => siteOk s && queueOk q
  | .loan k => loanKeyOk k
  | .replica k => loanKeyOk k
/-- A Keeper command's argument block: eight words in the mailbox (R437); a session or VC 11 carries any length, of which
no command needs more than the three words and 1 KiB of SEC_WRITE (R426, R483). -/
def argsOk (src : KSource) (a : List Word) : Bool :=
  match src with
  | .mailbox => decide (a.length ≤ 8)
  | _ => decide (a.length ≤ 259)
/-- A link address: a worker ID or a manager number (R346). -/
def addrOk (w : Nat) : Bool := workerOk w || (decide (0x4000 ≤ w) && decide (w < 0x40A0))
/-- A vector command's slot. -/
def vecOk (s : Site) : Bool := siteOk s

/-- The well-formed commands. -/
def Instr.wellFormed : Instr → Bool
  | .nop s _ _ => siteOk s
  | .halt s _ => siteOk s
  | .haltComplete s => siteOk s
  | .br s _ => siteOk s
  | .loop s _ => siteOk s
  | .loopBackEdge s => siteOk s
  | .salu s _ => siteOk s
  | .salui s _ => siteOk s
  | .sli s _ => siteOk s
  | .aop s _ => siteOk s
  | .sld s _ => siteOk s
  | .sst s _ => siteOk s
  | .qreq s _ => siteOk s
  | .qreqRetire s => siteOk s
  | .qwait s _ => siteOk s
  | .qwaitRetire s => siteOk s
  | .bell s _ => siteOk s
  | .xsend s _ => siteOk s
  | .xrecv s _ => siteOk s
  | .wopen s _ => siteOk s
  | .slip s _ => siteOk s
  | .cens s _ => siteOk s
  | .mma s _ => siteOk s
  | .mconv s _ => siteOk s
  | .mdist s _ => siteOk s
  | .sliceAccumulate s => siteOk s
  | .replayDecision s => siteOk s
  | .mdrain s _ => siteOk s
  | .drainRowWrite s => siteOk s
  | .mscale s _ => siteOk s
  | .vadd s _ _ => vecOk s
  | .vsub s _ _ => vecOk s
  | .vmul s _ _ => vecOk s
  | .vfma s _ _ => vecOk s
  | .vmin s _ _ => vecOk s
  | .vmax s _ _ => vecOk s
  | .vcmp s _ _ => vecOk s
  | .vsel s _ _ => vecOk s
  | .vcvtPlain s _ _ => vecOk s
  | .vcvtSlice s _ _ => vecOk s
  | .vcvtRecombine7 s _ _ => vecOk s
  | .vcvtRecombine6 s _ _ => vecOk s
  | .vred s _ _ => vecOk s
  | .vdiv s _ _ => vecOk s
  | .vsqrt s _ _ => vecOk s
  | .vrcp s _ _ => vecOk s
  | .vrsqrt s _ _ => vecOk s
  | .vexp s _ _ => vecOk s
  | .vlog s _ _ => vecOk s
  | .vtanh s _ _ => vecOk s
  | .vld s _ _ => vecOk s
  | .vst s _ _ => vecOk s
  | .vupd s _ _ => vecOk s
  | .vectorBeatWrite s => siteOk s
  | .landingWrite s => siteOk s
  | .sendingRead s => siteOk s
  | .requestLapsed s q _ => siteOk s && queueOk q
  | .poisonPosted s q _ => siteOk s && queueOk q
  | .bellArrive s => siteOk s
  | .bellRelease => true
  | .exchangePhaseEnd s => siteOk s
  | .bellTimeout => true
  | .superstepOverrun => true
  | .evalOverrun => true
  | .jobLate => true
  | .censusFold => true
  | .routerGrant n p _ => siteOk n && decide (p < 2)
  | .exchangeArrival s => siteOk s
  | .addfRead s => siteOk s
  | .addfWrite s => siteOk s
  | .fence s => siteOk s
  | .groupUngate g => decide (g < 32)
  | .gddr7Access mc u ce ue =>
      decide (mc < 10) && decide (u < 6250000000) && ce.all (fun g => decide (g < 8)) && ue.all (fun g => decide (g < 8))
  | .controllerUnitArrival mc => decide (mc < 10)
  | .ledgerAdd mc ce ue => decide (mc < 10) && ce.all (fun g => decide (g < 8)) && ue.all (fun g => decide (g < 8))
  | .ledgerForward f => match f with
      | .send => true
      | .receive w _ _ g d => workerOk w && decide (g < 64) && decide (d.length ≤ 256)
  | .roomBankAccess r b => roomBankOk r b
  | .bankWakeDone r b => roomBankOk r b
  | .bankGate r b => roomBankOk r b
  | .gateTimeout r b => roomBankOk r b
  | .loanAdmit => true
  | .cardFetchDone k _ => loanKeyOk k
  | .pageInDone k => loanKeyOk k
  | .loanRetire k => loanKeyOk k
  | .loanLapse k => loanKeyOk k
  | .replicaReread k _ => loanKeyOk k
  | .loanPoison k => loanKeyOk k
  | .hostLineComplete o _ _ d => hostOwnerOk o && decide (d.length ≤ 64)
  | .streamReady n t _ => decide (n < 2560256) && decide (t < 2048)
  | .streamAck n => decide (n < 2560256)
  | .rgsSubmit _ => true
  | .submit _ => true
  | .retry => true
  | .discard => true
  | .accessionStart => true
  | .accessionDone => true
  | .accessionResume => true
  | .quadrantPllLock => true
  | .armedComplete h => decide (h.length ≤ 16)
  | .ready w => workerOk w
  | .go => true
  | .drainStart => true
  | .drainComplete => true
  | .jobFault => true
  | .fault w _ c => addrOk w && (match c with | .deviceLost v => workerOk v | _ => true)
  | .arrive w len => workerOk w && decide (len < 2 ^ 16)
  | .release len => decide (len < 2 ^ 16)
  | .bootEntry _ => true
  | .bootComplete => true
  | .recovery i => decide (i.ecdsaSlot < 256) && decide (i.lmsSlot < 256)
  | .powerOnReset _ => true
  | .moduleReset => true
  | .softwareReset => true
  | .thermalTrip => true
  | .watchdogReset => true
  | .perstN => true
  | .functionLevelReset => true
  | .hostLinkDown => true
  | .hostLinkUp m w => decide (1 ≤ m ∧ m ≤ 5) && (w == 1 || w == 2 || w == 4 || w == 8)
  | .thermalTick r => decide (r.logic.length ≤ 4) && decide (r.sram.length ≤ 4) && decide (r.gddr.length ≤ 20) && decide (r.conv.length ≤ 6)
  | .dSleepEntry => true
  | .wakeTrigger => true
  | .selfRefreshExitDone => true
  | .ctrlEnClear _ p => pageOk p
  | .ctrlDrainSet _ p => pageOk p
  | .ctrlAbort _ p => pageOk p
  | .ctrlEnSet _ p => pageOk p
  | .ctrlDrainClear _ p => pageOk p
  | .blockDrainComplete p => pageOk p
  | .istatW1c _ p _ => pageOk p
  | .ienWrite _ p _ => pageOk p
  | .iforce _ p _ => pageOk p
  | .glbXlog0Read _ => true
  | .timSecRead _ => true
  | .step _ => true
  | .registerWrite _ o a => decide (o < 0x8000000) && (match a with | .word _ => true | .bytes n => n != 4 && n != 0 | .read n => n != 0)
  | .bar2Access _ => true
  | .hdmAccess _ => true
  | .dmaTail _ => true
  | .dmaDescriptorDone ws _ _ => decide (ws.length = 8)
  | .pagein _ => true
  | .pageout _ => true
  | .lndCmdDone _ _ _ _ => true
  | .regionSet k a => ksourceOk k && argsOk k a
  | .regionClear k a => ksourceOk k && argsOk k a
  | .regionRead k a => ksourceOk k && argsOk k a
  | .adopt k a => ksourceOk k && argsOk k a
  | .adoptComplete => true
  | .scrubComplete => true
  | .setDigest k a => ksourceOk k && argsOk k a
  | .secWrite k a => ksourceOk k && argsOk k a
  | .pageWorld k a => ksourceOk k && argsOk k a
  | .mgrTrust k a => ksourceOk k && argsOk k a
  | .commitSvn k a => ksourceOk k && argsOk k a
  | .revoke k a => ksourceOk k && argsOk k a
  | .getVersion => true
  | .getCapabilities => true
  | .negotiateAlgorithms => true
  | .getDigests => true
  | .getCertificate n _ _ => decide (n < 8)
  | .challenge n _ => decide (n < 8)
  | .getMeasurements _ _ => true
  | .keyExchange _ => true
  | .finish _ _ => true
  | .spdmHeartbeat _ => true
  | .sessionHeartbeatTimeout _ => true
  | .keyUpdate _ => true
  | .endSession _ => true
  | .vendorDefinedRequest _ _ a => argsOk .secure a
  | .cxlTableAccess => true
  | .discovery d => decide (d < 2)
  | .doeAbort d => decide (d < 2)
  | .linkTrainDone p g _ _ => portOk p && (g == 1 || g == 2)
  | .linkTrainRetry p => portOk p
  | .linkFlitGrant p => portOk p
  | .flitResend p _ => portOk p
  | .linkDown p => portOk p
  | .linkMessageRoute m => decide (m.dest < 32768) && decide (m.src < 32768) && decide (m.vc < 12) && decide (m.port.getD 0 < 16)
  | .noroute w => workerOk w
  | .heartbeat => true
  | .heartbeatMiss w => workerOk w
  | .mgrLost => true
  | .lpiNotice p _ => portOk p
  | .portWake p => portOk p
  | .loss w r p => workerOk w && addrOk r && portOk p
  | .probeTimeout w => workerOk w
  | .probeAnswer w => workerOk w
  | .fatal w => workerOk w
  | .takeoverCopyDone w c _ => workerOk w && decide (c < 3)
  | .wingSpareRequest b w g _ => decide (b < 16) && workerOk w && decide (g < 3)
  | .jobRelay r => workerOk r.worker && r.workers.all workerOk && decide (r.lead < 160)
  | .routeWrite _ _ => true
  | .mirrorWrite w _ _ d => workerOk w && decide (d.length ≤ 256)
  | .sealed w _ => workerOk w
  | .commit _ => true
  | .censusRead w _ => workerOk w
  | .timeAlign t => match t with
      | .ask u => addrOk u
      | .serve d => addrOk d
      | .reply _ _ => true
  | .ppsEdge _ => true
  | .ppsLost => true
  | .alignmentTimeout => true
  | .keeperCommandVc11 m _ a => decide (m < 16384) && argsOk (.vc11 m) a
  | .acknowledgementReturn s q _ => siteOk s && queueOk q
  | .electricalIdleLoss p => portOk p
  | .vectorUnmask v => decide (v < 64)
  | .configurationRequest _ => true
  | .hdmDecoderCommit => true
  | .functionReady => true

end Sys2Proof
end

