-- ==== Sys2Proof/Safety.lean ====
section
/-! DEFINITION. What the statements say about a step: that a command completes, what it leaves unchanged, and the state that
the commands of one bundle read. -/

namespace Sys2Proof.Machine

/-- The command has its effect at this state: `exec` answers a next state, no fault and no refusal. -/
def Completes (i : Instr) (s : State) : Prop := ∃ t, exec i s = .next t

/-- A safe step: the machine goes on, whatever waits at the front of its queue. -/
def SafeStep (s : State) : Prop := ∃ t, step s = .next t

/-- Every command that waits is well formed. -/
def QueueOk (s : State) : Prop := ∀ i ∈ s.pending, i.wellFormed = true

/-! ### Frames -/

/-- Nothing but the clock (the cycle, the time and the chronicle it drives) and tile `x` differs. -/
def OnlyTile (x : Site) (s t : State) : Prop :=
  t = { s with tiles := t.tiles, cycle := t.cycle, time := t.time, phase := t.phase, chron := t.chron } ∧ ∀ y, y ≠ x → t.tile y = s.tile y

/-- As `OnlyTile`, but free values have been drawn too. -/
def OnlyTileDraws (x : Site) (s t : State) : Prop :=
  t = { s with tiles := t.tiles, cycle := t.cycle, time := t.time, phase := t.phase, chron := t.chron, free := t.free } ∧
    ∀ y, y ≠ x → t.tile y = s.tile y

/-- As `OnlyTileDraws`; and in a job in debug mode, what a hazard does (R394): its registers, its interrupt, the fault of DEBUG_STOP. -/
def TileAndHazards (x : Site) (s t : State) : Prop :=
  t = { s with tiles := t.tiles, cycle := t.cycle, time := t.time, phase := t.phase, chron := t.chron, free := t.free, regs := t.regs, host := t.host,
               dev := t.dev, rgs := t.rgs } ∧
    (∀ y, y ≠ x → t.tile y = s.tile y) ∧ (debugJob s = false → OnlyTileDraws x s t)

/-- As `TileAndHazards` where `calm` holds; where it does not, what the spec calls unpredictable has happened, and the job may fault (R11). -/
def TileOrFault (x : Site) (calm : Prop) (s t : State) : Prop :=
  t = { s with tiles := t.tiles, cycle := t.cycle, time := t.time, phase := t.phase, chron := t.chron, free := t.free, regs := t.regs, host := t.host,
               dev := t.dev, rgs := t.rgs } ∧
    (∀ y, y ≠ x → t.tile y = s.tile y) ∧ (calm → TileAndHazards x s t)

/-- Nothing but the clock and register words, with the host interface's interrupt state that they drive, differs. -/
def OnlyRegs (s t : State) : Prop :=
  t = { s with regs := t.regs, host := t.host, cycle := t.cycle, time := t.time, phase := t.phase, chron := t.chron }

/-- Every byte of GDDR7 outside [a, a + n) reads as before. -/
def GddrOutside (a n : Nat) (s t : State) : Prop := ∀ b, (b < a ∨ a + n ≤ b) → t.gddr.byte b = s.gddr.byte b

/-- Every byte of a tile's memory reads as before. -/
def TileMemSame (t u : Tile) : Prop := ∀ a, u.byteAt a = t.byteAt a

/-! ### The state that a slot command reads: `issueTile`, `issueState` (Machine/TileOps.lean) -/

/-- The bundle of tile `x` issues, and no slot of it has met an issue fault (R41, R185). -/
def Issues (s : State) (x : Site) : Prop := canIssue s x = true ∧ (s.tile x).bundle.fault = none

/-- The tile once its bundle has issued: the next is due a cycle later, at the next address (R41, R159). -/
def Tile.next (t : Tile) : Tile := { t with now := t.now + 1, pc := (t.pc + 16) % 2 ^ 21, fell := true, bundle := Bundle.empty }

/-- None of the granules that hold `n` bytes from `a` on meets another granule of a list in its bank (R219, R221). -/
def NoClash (gs : List Nat) (a n : Nat) : Prop := ∀ i < n, bankMeets gs (granOf (a + i)) = false

/-- The command of a slot completes at tile `x` with no fault: it leaves the tile as `T`, and only the clock and the tile differ. -/
def IssuesAs (i : Instr) (x : Site) (s : State) (T : Tile) : Prop := ∃ t, exec i s = .next t ∧ t.tile x = T ∧ OnlyTile x s t

/-- What SALU's operation `fn` of `a` and `b` is, as the table of R168 spells it. -/
def SaluSpec (fn : Nat) (a b r : Word) : Prop :=
  (fn = 0 → r = a + b) ∧ (fn = 1 → r = a - b) ∧ (fn = 2 → r = a &&& b) ∧ (fn = 3 → r = a ||| b) ∧ (fn = 4 → r = a ^^^ b) ∧
  (fn = 5 → r = a <<< (b.toNat % 32)) ∧ (fn = 6 → r = a >>> (b.toNat % 32)) ∧ (fn = 7 → r = a.sshiftRight (b.toNat % 32)) ∧
  (fn = 8 → r = a * b) ∧
  (fn = 9 → r = if a.toInt < b.toInt then 1 else 0) ∧ (fn = 10 → r = if a.toNat < b.toNat then 1 else 0) ∧
  (fn = 11 → r.toInt = min a.toInt b.toInt) ∧ (fn = 12 → r.toInt = max a.toInt b.toInt)

/-- An actor's write reaches page `page`, which is instance `n` of block `b`: the host while its link, Memory Space Enable and the function
allow it, on no secure page, and in BOOT on the GLB page alone; a secure actor while the device is out of reset (R415, R424, R453). -/
def PageOpen (s : State) (a : Actor) (page : Nat) (b : Block) (n : Nat) : Prop :=
  pageBlock page = some (b, n) ∧ unusedPage s b n = false ∧
    (a = .host → hostReaches s = true ∧ pageSecure s page = false ∧ (s.dev ≠ .boot ∨ page = 0)) ∧
    (a = .secureActor → s.inReset = false)

/-- The bell of the superstep in progress has been released in cycle `c` (R21 to R23). -/
def Released (s t : State) (c : Nat) : Prop :=
  superstep t = (superstep s + 1) % 2 ^ 32 ∧ t.gddr = s.gddr ∧ t.dev = s.dev ∧
  (∀ x ∈ jobSites s, (t.tile x).phase = (if (s.tile x).bellL = 0 then .compute else .exchange) ∧
    (t.tile x).exEnd = c + (s.tile x).bellL ∧ (t.tile x).arrived = none ∧ (t.tile x).granArrived = []) ∧
  (∀ x, x ∉ jobSites s → t.tile x = s.tile x)

/-! ### Invariants -/

/-- GDDR7, and the memory of every tile and room that is not at its reset value, is in its canonical form. -/
def MemoriesCanonical (s : State) : Prop :=
  s.gddr.wf = true ∧ (∀ p ∈ s.tiles, p.2.mem.wf = true) ∧ ∀ p ∈ s.rooms, p.2.mem.wf = true

/-- No two entries of the region table that are in use share a unit (R274); and what a running region command is about to enter shares
none with another entry. -/
def RegionsApart (s : State) : Prop :=
  (∀ p ∈ s.regions, ∀ q ∈ s.regions, p.1 ≠ q.1 → p.2.overlaps q.2 = false) ∧
  ∀ c, s.keeper.running = some c → s.keeper.scrub ≠ [] → overlapsOther s (wordAt c.args 0).toNat (newRegion c) = false

/-- Fuses only ever blow: the minimum SVNs rise, revocation bits stay set, and every other fuse is as it was made (R430, R433). -/
def FusesRise (a b : Fuse) : Prop :=
  b = { a with svnKfw := b.svnKfw, svnDfw := b.svnDfw, revoke := b.revoke } ∧ a.svnKfw ≤ b.svnKfw ∧ a.svnDfw ≤ b.svnDfw ∧
    ∀ i, a.revoke.getLsbD i = true → b.revoke.getLsbD i = true

end Sys2Proof.Machine
end

