-- ==== Sys2Proof/Certificates/Slice0/Obligations.lean ====
section
/-! DEFINITION. The statements for the provers. -/

open Sys2Proof Sys2Proof.Machine


/-! ### The machine's step, its queue and its reset state -/

/-- A step takes the command at the front of the queue and runs it on the state with the rest of the queue. On an empty queue the block
idles (the model's choice, log entry 2). -/
def Obligations.QueueSteps : Prop :=
  (∀ (c : Instr) (s : State), step { s with pending := c :: s.pending } = exec c s) ∧
  ∀ s : State, s.pending = [] → step s = .next s

/-! ### The control slot -/

/-- NOP only moves the bundle on; HALT stops the issue of later bundles (R183); BELL makes the tile wait, with the length it names (R22,
R179). Nothing else of the tile, and nothing but the clock beside it, changes. A NOP of the matrix or the vector slot fills that slot
of the bundle (the model's record, log entry 3), and one whose word spells another instruction is not this command. HALT_COMPLETE: a
halting tile whose work is finished and whose requests have all posted sets HALTED and discards its outcomes (R32, R183), and the Registrar
keeps the cycle of the last HALT, up to which it measures the superstep (R37); where it leaves a stage stream without a partner the job
faults with reason 0x12 (R329). -/
def Obligations.NopHaltBell : Prop :=
  (∀ (s : State) (x : Site), Issues s x →
    let T := issueTile s x
    IssuesAs (.nop x .control 0) x s T.next ∧
    (∀ k, k ≠ SlotKind.control → (s.tile x).slotTaken k = false → IssuesAs (.nop x k 0) x s (T.holdSlot k (.nop x k 0))) ∧
    (T.phase ≠ .exchange →
      IssuesAs (.halt x 0) x s { T.next with phase := .halting } ∧
      ∀ w : BitVec 26, fld w 16 10 = 0 →
        IssuesAs (.bell x w) x s { T.next with phase := .waiting, bellL := fld w 0 16, bellAt := T.now, arrived := none })) ∧
  (∀ (s : State) (x : Site) (k : SlotKind) (w : BitVec 48), slotOpcode k w ≠ 0 → opcodeAssigned k (slotOpcode k w) = true →
    exec (.nop x k w) s = .next s) ∧
  (∀ (s : State) (x : Site), s.dev = .run →
    let c := haltCycle s (s.tile x)
    let T := ((s.tile x).upTo c).latchMem (c - 1)
    let u := (toCycle s c).putTile x { T with halted := true, queues := [], outcomes := [] }
    let v : State := { u with rgs := { u.rgs with haltedAt := max u.rgs.haltedAt c } }
    T.phase = .halting → T.halted = false → T.quiet = true →
    s.cycle ≤ c ∧ (s.tile x).now < c ∧ (v.tile x).halted = true ∧ (v.tile x).queues = [] ∧ (v.tile x).outcomes = [] ∧
    (streamUnmatched v x = [] → exec (.haltComplete x) s = .next v) ∧
    (streamUnmatched v x ≠ [] → ∃ t, exec (.haltComplete x) s = .next t ∧ t.dev = .faulted ∧ t.tiles = v.tiles ∧
      ∃ f, t.rgs.fault = some f ∧ f.reason ≤ 0x12 ∧ (T.upset = false → f.reason = 0x12)))

/-- SALU and SALUI complete for every assigned FN: SD, from the latency on, reads as the operation of SA and SB, or of SA and the
sign-extended immediate, as they were in the issue cycle; SLI writes its immediate, or puts it in the high half; AOP's three modes write AD
:= AA + IMM, AD := SA and SD := AA. s0 reads 0 whatever is written. Each is readable from the issue cycle + 1 on, a MUL from + 3 on, and
nothing but the register write, the program counter, the clock and the bundle differs (R163, R168, R184). An FN that the table does not list,
and AOP MODE 0b11, is an illegal encoding: the job faults with ISSUE, detail 2 (R185). -/
def Obligations.ScalarOps : Prop :=
  ∀ (s : State) (x : Site) (w : BitVec 26), Issues s x →
    let T := issueTile s x
    let writes (i : Instr) (t : State) : Prop := exec i s = .next t ∧
      t.tile x = { T.next with regWrites := (t.tile x).regWrites } ∧ OnlyTile x s t
    let toS (i : Instr) (lat d : Nat) (v : Word) : Prop := ∃ t, writes i t ∧
      ((t.tile x).upTo (T.now + lat)).sreg d = (if d = 0 then 0 else v)
    let toA (i : Instr) (d : Nat) (v : Word) : Prop := ∃ t, writes i t ∧ ((t.tile x).upTo (T.now + 1)).areg d = v
    let illegal (i : Instr) : Prop := ∃ t, exec i s = .next t ∧ t.dev = .faulted ∧
      ∃ f, t.rgs.fault = some f ∧ f.reason = 1 ∧ f.detail = 2
    (fld w 0 6 = 0 → fld w 6 5 ≤ 12 →
      ∃ v, SaluSpec (fld w 6 5) (T.sreg (fld w 16 5)) (T.sreg (fld w 11 5)) v ∧
        toS (.salu x w) (if fld w 6 5 = 8 then 3 else 1) (fld w 21 5) v) ∧
    (12 < fld w 6 5 → illegal (.salu x w)) ∧
    (fld w 12 4 ≤ 9 →
      ∃ v, SaluSpec ([0, 2, 3, 4, 5, 6, 7, 9, 10, 8].getD (fld w 12 4) 0) (T.sreg (fld w 16 5)) (BitVec.ofInt 32 (sfld w 0 12)) v ∧
        toS (.salui x w) (if fld w 12 4 = 9 then 3 else 1) (fld w 21 5) v) ∧
    (9 < fld w 12 4 → illegal (.salui x w)) ∧
    (fld w 16 4 = 0 →
      toS (.sli x w) 1 (fld w 21 5)
        (if bit w 20 then BitVec.ofNat 32 (fld w 0 16 * 65536 + (T.sreg (fld w 21 5)).toNat % 65536)
         else BitVec.ofNat 32 (fld w 0 16))) ∧
    (fld w 24 2 = 0 → toA (.aop x w) (fld w 20 4) (T.areg (fld w 16 4) + BitVec.ofInt 32 (sfld w 0 16))) ∧
    (fld w 24 2 = 1 → fld w 0 15 = 0 → toA (.aop x w) (fld w 20 4) (T.sreg (fld w 15 5))) ∧
    (fld w 24 2 = 2 → fld w 0 15 = 0 → toS (.aop x w) 1 (fld w 19 5) (T.areg (fld w 15 4))) ∧
    (fld w 24 2 = 3 → illegal (.aop x w))

/-- SLD completes: SD reads, from the issue cycle + 3, the word at AA + 4 × OFF, modulo 2²¹, bits [1:0] ignored, as memory holds it in the
issue cycle (R169), where no other scheduled granule meets it in its bank (R221; else a value that nothing constrains, log entry 10). What
other units write in the issue cycle itself the word has too, once they have written it before a later cycle's read (R218).
SST completes: its word is due at that address in the cycle after issue. INC advances AA by 4 × OFF, readable from the issue cycle + 1.
Every byte of memory reads as before in the issue cycle; of the tile, only the writes on their way, the record of what has met in a bank or
been found in debug mode, and the bundle's own fields differ, and nothing beside it but what a hazard of debug mode does and the free fault
of what has met in a bank (R11, R221). -/
def Obligations.LoadStore : Prop :=
  ∀ (s : State) (x : Site) (w : BitVec 26), Issues s x →
    let T := issueTile s x
    let a := addr21 (Int.ofNat (T.areg (fld w 17 4)).toNat + 4 * sfld w 0 16) / 4 * 4
    let advanced (u : Tile) : Prop := bit w 16 = true →
      (u.upTo (T.now + 1)).areg (fld w 17 4) = T.areg (fld w 17 4) + BitVec.ofInt 32 (4 * sfld w 0 16)
    (∃ (t : State) (v : Word), exec (.sld x w) s = .next t ∧
      (NoClash (T.foreseen.readsAt T.now) a 4 → v = BitVec.ofNat 32 (leNat (T.readMem a 4))) ∧
      ((t.tile x).upTo (T.now + 3)).sreg (fld w 21 5) = (if fld w 21 5 = 0 then 0 else v) ∧
      advanced (t.tile x) ∧ TileMemSame T (t.tile x) ∧
      t.tile x = { T.next with regWrites := (t.tile x).regWrites, found := [], upset := false } ∧
      TileOrFault x (T.upset = false) s t) ∧
    (∃ t : State, exec (.sst x w) s = .next t ∧ advanced (t.tile x) ∧ TileMemSame T (t.tile x) ∧
      (∃ m ∈ (t.tile x).memWrites, m.at_ = T.now + 1 ∧ m.addr = a ∧ m.data = natLe 4 (T.sreg (fld w 21 5)).toNat ∧
        ∀ v, v ∈ (t.tile x).memWrites ↔ v = m ∨ v ∈ T.memWrites) ∧
      (bit w 16 = false → (t.tile x).regWrites = T.regWrites) ∧
      t.tile x = { T.next with regWrites := (t.tile x).regWrites, memWrites := (t.tile x).memWrites } ∧ OnlyTileDraws x s t)

/-- BR: whether it is taken, where the next bundle lies, and when it issues: in I + 1 not taken or to a buffered target, in I + 3
otherwise; a taken branch ends the loops whose bodies do not hold the target, and the loop buffer keeps its loop only while that is
active (R170, R173). LOOP starts its body or, with a count of 0, skips it in I + 3; the back-edge of the innermost loop counts down to
the first bundle of the body, at no cost where the loop buffer holds the body and two cycles otherwise, and leaves the loop at the
last iteration (R171 to R173). -/
def Obligations.BranchAndLoops : Prop :=
  (∀ (s : State) (x : Site) (w : BitVec 26), Issues s x →
    let T := issueTile s x
    let v := (T.sreg (fld w 18 5)).toInt
    let cond := fld w 23 3
    let taken : Prop := cond = 0 ∨ (cond = 1 ∧ v = 0) ∨ (cond = 2 ∧ v ≠ 0) ∨ (cond = 3 ∧ v < 0) ∨ (cond = 4 ∧ 0 ≤ v) ∨
      (cond = 5 ∧ 0 < v) ∨ (cond = 6 ∧ v ≤ 0)
    let target := if bit w 17 then fld (T.areg (fld w 13 4)) 4 17 * 16 else addr21 (Int.ofNat T.pc + 16 * sfld w 0 17)
    cond ≠ 7 → (cond = 0 → fld w 18 5 = 0) → (bit w 17 = true → fld w 0 13 = 0) → (taken → target < 0x1C0000) →
    (¬ taken → IssuesAs (.br x w) x s T.next) ∧
    (taken → ∃ t, exec (.br x w) s = .next t ∧ OnlyTile x s t ∧
      (t.tile x).now = T.now + (if T.buffered target then 1 else 3) ∧
      (t.tile x).loops = T.loops.filter (fun l => decide (l.first ≤ target) && decide (target ≤ l.last)) ∧
      ((t.tile x).loopBuf = T.loopBuf ∨ (t.tile x).loopBuf = none) ∧
      (∀ b, (t.tile x).loopBuf = some b → ∃ l ∈ (t.tile x).loops, l.first = b.first ∧ l.last = b.last) ∧
      t.tile x = { T with pc := target, now := (t.tile x).now, loops := (t.tile x).loops, loopBuf := (t.tile x).loopBuf,
                          fell := false, stall := .none, bundle := Bundle.empty })) ∧
  (∀ (s : State) (x : Site) (w : BitVec 26), Issues s x → (bit w 13 = true → fld w 0 8 = 0) →
    let T := issueTile s x
    let first := T.pc + 16
    let last := T.pc + 16 * (fld w 14 12 + 1)
    let n := if bit w 13 then (T.sreg (fld w 8 5)).toNat else fld w 0 13 + 1
    T.loops.length < 4 → (∀ l ∈ T.loops, last ≤ l.last) →
    (n = 0 → IssuesAs (.loop x w) x s { T with pc := (last + 16) % 2 ^ 21, now := T.now + 3, fell := false, stall := .none,
                                               bundle := Bundle.empty }) ∧
    (n ≠ 0 → IssuesAs (.loop x w) x s { T.next with loops := { first := first, last := last, count := n } :: T.loops,
                                                    loopBuf := some { first := first, last := last, count := 0 } })) ∧
  (∀ (s : State) (x : Site) (l : LoopRec) (rest : List LoopRec),
    let T := s.tile x
    let mine := ∃ b, T.loopBuf = some b ∧ b.first = l.first ∧ b.last = l.last
    s.dev = .run → T.pwr = .active → T.loops = l :: rest → T.fell = true → l.last + 16 = T.pc →
    (1 < l.count → mine ∧ l.last - l.first < 1024 →
      exec (.loopBackEdge x) s = .next (s.setTile x
        { T with loops := { l with count := l.count - 1 } :: rest, pc := l.first, fell := false,
                 loopBuf := some { l with count := 1 } })) ∧
    (1 < l.count → ¬ (mine ∧ l.last - l.first < 1024) →
      exec (.loopBackEdge x) s = .next (s.setTile x
        { T with loops := { l with count := l.count - 1 } :: rest, pc := l.first, fell := false, now := T.now + 2 })) ∧
    (l.count ≤ 1 → mine → exec (.loopBackEdge x) s = .next (s.setTile x { T with loops := rest, loopBuf := none })) ∧
    (l.count ≤ 1 → ¬ mine → exec (.loopBackEdge x) s = .next (s.setTile x { T with loops := rest })))

/-- A slot command whose code names a fault issues nothing: TIL_IFAULT holds the code and the bundle's address, and in RUN the job faults
with reason ISSUE (R185). Shown for: an opcode not assigned, a NOP with a bit set, VEXT without a vector instruction; HALT and BELL in an
exchange phase; a reserved bit or an unassigned FN or MODE of HALT, SALU, SALUI, SLI and AOP; a branch with COND 7 or beyond tile memory; a
LOOP too deep or not nested, one with a count of 0 too (the model's reading, log entry 29); QWAIT on an empty queue. A fault met by the
matrix or vector slot counts when the bundle closes, and the lowest code is recorded. -/
def Obligations.IssueFaults : Prop :=
  ∀ (s : State) (x : Site), canIssue s x = true →
    let T := issueTile s x
    let faulted (i : Instr) (k : Nat) : Prop := ∃ t, exec i s = .next t ∧ t.dev = .faulted ∧
      (∃ f, t.rgs.fault = some f ∧ f.reason = 1 ∧ f.detail = k ∧ f.site = x) ∧
      (t.tile x).ifault = BitVec.ofNat 32 (k % 256 + (T.pc / 16 % 2 ^ 17) * 256 + 2 ^ 31) ∧
      TileMemSame T (t.tile x) ∧ (t.tile x).sregs = T.sregs ∧ (t.tile x).aregs = T.aregs ∧ (t.tile x).vregs = T.vregs ∧
      (t.tile x).queues = T.queues ∧ ∀ y, y ≠ x → t.tile y = s.tile y
    (∀ k, (s.tile x).bundle.fault = some k → faulted (.nop x .control 0) k ∧ (k < 0x10 → T.phase = .exchange → faulted (.halt x 0) k)) ∧
    ((s.tile x).bundle.fault = none →
      (∀ w : BitVec 48, opcodeAssigned .control (fld w 26 6) = false → fld w 26 6 ≠ 0x3F → faulted (.nop x .control w) 1) ∧
      (∀ w : BitVec 48, fld w 26 6 = 0 → fld w 0 26 ≠ 0 → faulted (.nop x .control w) 2) ∧
      (∀ w : BitVec 48, fld w 26 6 = 0x3F → faulted (.nop x .control w) 3) ∧
      (∀ (k : SlotKind) (w : BitVec 48), k ≠ .control → opcodeAssigned k (fld w 43 5) = false → (s.tile x).slotTaken k = false →
        ∃ t, exec (.nop x k w) s = .next t ∧ (t.tile x).bundle.fault = some 1 ∧ t.dev = .run ∧ TileMemSame T (t.tile x)) ∧
      (T.phase = .exchange → faulted (.halt x 0) 0x10 ∧ ∀ w, fld w 16 10 = 0 → faulted (.bell x w) 0x10) ∧
      (∀ w, w ≠ 0 → faulted (.halt x w) 2) ∧
      (∀ w, fld w 0 6 ≠ 0 ∨ 12 < fld w 6 5 → faulted (.salu x w) 2) ∧
      (∀ w, 9 < fld w 12 4 → faulted (.salui x w) 2) ∧
      (∀ w, fld w 16 4 ≠ 0 → faulted (.sli x w) 2) ∧
      (∀ w, fld w 24 2 = 3 ∨ (fld w 24 2 ≠ 0 ∧ fld w 0 15 ≠ 0) → faulted (.aop x w) 2) ∧
      (∀ w, fld w 23 3 = 7 ∨ (fld w 23 3 = 0 ∧ fld w 18 5 ≠ 0) ∨ (bit w 17 = true ∧ fld w 0 13 ≠ 0) → faulted (.br x w) 2) ∧
      (∀ w, fld w 23 3 = 0 → fld w 18 5 = 0 → bit w 17 = true → fld w 0 13 = 0 →
        0x1C0000 ≤ fld (T.areg (fld w 13 4)) 4 17 * 16 → faulted (.br x w) 0x0D) ∧
      (∀ w, (bit w 13 = true → fld w 0 8 = 0) →
        4 ≤ T.loops.length ∨ (∃ l ∈ T.loops, l.last < T.pc + 16 * (fld w 14 12 + 1)) → faulted (.loop x w) 0x0C) ∧
      (∀ w, fld w 0 17 = 0 → T.queue (fld w 22 4) = [] → faulted (.qwait x w) 0x11))

/-- XSEND reads LEN granules at AS, bits [20:5] of it (log entry 28), from its issue cycle on and injects them with the header that AT names,
whatever bit [31] of AT (the model's choice, log entry 107); XRECV outside debug mode only fills its slot, and in debug mode counts hazards
(R180, R181). -/
def Obligations.ExchangeSlots : Prop :=
  ∀ (s : State) (x : Site) (w : BitVec 26), Issues s x →
    let T := issueTile s x
    let n := ceilDiv (fld w 12 6 + 1) 4
    T.phase = .exchange →
    (fld w 0 5 = 0 → (fld w 8 2 = 0 → fld w 5 3 = 0) → T.xFree ≤ T.now → T.now + n ≤ T.exEnd →
      ∀ d, placedSite s (fld (T.areg (fld w 18 4)) 0 11) = some d →
      ∃ (t : State) (f : XSend), exec (.xsend x w) s = .next t ∧
        t.tile x = { T.next with xsends := T.xsends ++ [f], xFree := T.now + n } ∧ f.issue = T.now ∧ f.len = fld w 12 6 + 1 ∧
        f.latched = 0 ∧ f.out = [] ∧
        f.src = fld (T.areg (fld w 22 4)) 5 16 * 32 ∧ f.flit.src = x ∧ f.flit.dst = d ∧
        f.flit.win = fld (T.areg (fld w 18 4)) 11 3 ∧ f.flit.off = fld (T.areg (fld w 18 4)) 14 16 ∧
        f.flit.plane = fld (T.areg (fld w 18 4)) 30 1 ∧ f.flit.pri = fld w 10 2 ∧ f.flit.addf = fld w 8 2 ∧
        f.flit.vc = (if fld w 8 2 = 0 then 8 else fld w 5 3) ∧ OnlyTileDraws x s t) ∧
    (fld w 16 6 = 0 → ∃ t, exec (.xrecv x w) s = .next t ∧ t.tile x = T.next ∧ TileAndHazards x s t)

/-- WOPEN, SLIP and CENS: the window and the call slip change from the cycle after issue, the counter, as of the cycles before the issue
cycle, is readable in SD from the issue cycle + 2, saturated to 32 bits (R182, R216, R232, R237). Nothing else of the tile changes, and
beside it only what a hazard of debug mode does. -/
def Obligations.WindowSlipCensus : Prop :=
  ∀ (s : State) (x : Site) (w : BitVec 26), Issues s x →
    let T := issueTile s x
    (fld w 0 14 = 0 → ∃ (t : State) (v : WinWrite), exec (.wopen x w) s = .next t ∧ TileAndHazards x s t ∧
      t.tile x = { T.next with winWrites := T.winWrites ++ [v] } ∧ v.at_ = T.now + 1 ∧ v.win = fld w 23 3 ∧
      (bit w 14 = true → v.value.isOpen = false) ∧
      (bit w 14 = false → v.value.isOpen = true ∧ v.value.base = fld (T.areg (fld w 19 4)) 5 16 * 32 ∧
        v.value.bound = min (fld (T.areg (fld w 15 4)) 5 16 * 32) 0x1C0000)) ∧
    (fld w 0 13 = 0 → fld w 13 2 ≠ 3 →
      IssuesAs (.slip x w) x s { T.next with
        slipWrites := T.slipWrites ++
          [{ at_ := T.now + 1, ctr := fld w 20 6, mode := fld w 13 2, value := T.sreg (fld w 15 5) }] }) ∧
    (fld w 0 11 = 0 → IssuesAs (.cens x w) x s
      (T.writeReg (T.now + 2) (.s (fld w 21 5))
        (if fld w 11 10 < 256 then BitVec.ofNat 32 (min (T.countBefore T.now (fld w 11 10)) 0xFFFFFFFF) else 0)).next)

/-! ### Queue instructions and the traffic of the queues -/

/-- QREQ on a full queue stalls, its whole bundle with it; otherwise it takes a slot at the end of its queue for the request that the
record at AR gives: KIND, RG, STREAM, TAG, LADDR, LEN, DEADLINE, TARGET and WORKER, started in its issue cycle (R29, R164, R174, R175).
The record lies at bits [20:5] of AR, whatever its other bits (the model's reading, log entry 28); it is what memory holds, with what is
written in that cycle (R218), where no other scheduled granule meets it in its bank (R221). A bad record is issue fault 0x12, and a
request that its kind does not allow faults the job (R293 to R296, R323, R326). A stalled QREQ does the same as soon as its queue has a
free slot, in the cycle in which the other slots of its bundle issue, and the next bundle issues in the cycle after. Request numbers are
not reused while outstanding (the model's own numbering). -/
def Obligations.QreqPlacesRequest : Prop :=
  let placed (i : Instr) (s u : State) (x : Site) (T : Tile) (q a : Nat) : Prop :=
    let ws := recordRead u T a T.now
    let r := mkRequest u T ws T.now
    (NoClash (T.foreseen.readsAt T.now) a 32 → ws = leWords 8 ((T.asRead T.now).readMem a 32)) ∧
    (recordBad ws = true → ∃ t, exec i s = .next t ∧ t.dev = .faulted ∧ (t.tile x).queues = T.queues ∧
      ∃ f, t.rgs.fault = some f ∧ f.reason = 1 ∧ f.detail = 0x12 ∧ f.site = x) ∧
    (recordBad ws = false → ∀ reason detail, retireFault u x r = some (reason, detail) →
      ∃ t, exec i s = .next t ∧ t.dev = .faulted ∧ (t.tile x).queues = T.queues ∧
        ∃ f, t.rgs.fault = some f ∧ f.reason = reason ∧ f.detail = detail ∧ f.site = x) ∧
    (recordBad ws = false → retireFault u x r = none → (∀ o ∈ T.queue q, o.id ≠ T.nextReq) →
      ∃ (t : State) (p : Request), exec i s = .next t ∧ (t.tile x).queue q = T.queue q ++ [p] ∧
        kindOfCode (fld (wordAt ws 0) 0 4) = some p.kind ∧ p.laddr = fld (wordAt ws 1) 0 21 ∧
        p.len = (if p.kind = .loanwait then 0 else fld (wordAt ws 2) 0 16) ∧
        p.target = (wordAt ws 4).toNat + (wordAt ws 5).toNat * 2 ^ 32 ∧ p.worker = fld (wordAt ws 6) 0 14 ∧
        p.stream = fld (wordAt ws 0) 8 8 ∧ p.tag = fld (wordAt ws 0) 16 16 ∧ p.rg = fld (wordAt ws 0) 4 3 ∧
        (p.kind ≠ .loan ∨ fld (wordAt ws 3) 0 24 ≠ 0 → p.deadline = fld (wordAt ws 3) 0 24) ∧
        (p.kind = .gread ∨ p.kind = .rread ∨ p.kind = .hread ∨ p.kind = .loan ∨ p.kind = .srecv → p.nolapse = bit (wordAt ws 0) 7) ∧
        p.start = T.now ∧ p.id = T.nextReq ∧ p.landed = 0 ∧ p.sent = 0 ∧ p.acked = 0 ∧
        (p.kind ≠ .loanwait → p.posted = none) ∧
        (∀ j, j ≠ q → (t.tile x).queue j = T.queue j) ∧ (t.tile x).nextReq = T.nextReq + 1 ∧ (t.tile x).stall = .none ∧
        (t.tile x).now = T.now + 1 ∧ (t.tile x).pc = (T.pc + 16) % 2 ^ 21 ∧ TileMemSame T (t.tile x) ∧
        (t.tile x).sregs = T.sregs ∧ (t.tile x).aregs = T.aregs ∧ (t.tile x).vregs = T.vregs ∧ ∀ y, y ≠ x → t.tile y = s.tile y)
  (∀ (s : State) (x : Site) (w : BitVec 26), Issues s x → fld w 0 18 = 0 →
    let T := issueTile s x
    let q := fld w 22 4
    let a := fld (T.areg (fld w 18 4)) 5 16 * 32
    (8 ≤ (T.queue q).length → IssuesAs (.qreq x w) x s { T.unissued with stall := .qreq q a, bundle := { T.bundle with undo := none } }) ∧
    ((T.queue q).length < 8 → placed (.qreq x w) s (issueState s x) x T q a)) ∧
  (∀ (s : State) (x : Site) (q a : Nat), s.dev = .run → (s.tile x).stall = .qreq q a →
    let c := Nat.max (s.tile x).now s.cycle
    let v := issueWaiting (s.onTile x (·.retireIn c)) x
    ((s.tile x).queue q).length < 8 → Issues v x → (∀ y, y ≠ x → v.tile y = s.tile y) →
    ((s.tile x).bundle.matrix = none → (s.tile x).bundle.vector = none → (issueTile v x).now = c) ∧
    placed (.qreqRetire x) s (issueState v x) x (issueTile v x) q a)

/-- QWAIT: where the oldest request's outcome was posted in an earlier cycle, it retires in its issue cycle: the slot is free,
the outcome code is readable in SD from the next cycle, a LAPSED or a LAPSED-POISON counts in the census; where not, it stalls, its whole
bundle with it, and QWAIT_RETIRE does the same in cycle max(I, P + 1), in which the bundle's other slots issue; the next bundle issues
in the cycle after (R30, R164, R176, R330). -/
def Obligations.QwaitReturnsOutcome : Prop :=
  let retires (i : Instr) (s : State) (x : Site) (T : Tile) (q sd : Nat) (rest : List Request) (o : ReqOutcome) : Prop :=
    ∃ t, exec i s = .next t ∧ (t.tile x).queue q = rest ∧ (∀ j, j ≠ q → (t.tile x).queue j = T.queue j) ∧
      ((t.tile x).upTo (T.now + 1)).sreg sd = (if sd = 0 then 0 else match o with | .done => 0 | .lapsed => 1 | .poison => 2) ∧
      (∀ n k, T.now < n → (t.tile x).countBefore n k =
        (T.countBefore n k + if (o = .lapsed ∧ k = 131) ∨ (o = .poison ∧ k = 132) then 1 else 0) % 2 ^ 40) ∧
      (t.tile x).stall = .none ∧ (t.tile x).now = T.now + 1 ∧ (t.tile x).pc = (T.pc + 16) % 2 ^ 21 ∧ TileMemSame T (t.tile x) ∧
      (t.tile x).aregs = T.aregs ∧ (t.tile x).vregs = T.vregs ∧ ∀ y, y ≠ x → t.tile y = s.tile y
  (∀ (s : State) (x : Site) (w : BitVec 26), Issues s x → fld w 0 17 = 0 →
    let T := issueTile s x
    let q := fld w 22 4
    ∀ r rest, T.queue q = r :: rest →
    (∀ o p, r.posted = some (o, p) → p < T.now → retires (.qwait x w) s x T q (fld w 17 5) rest o) ∧
    ((r.posted = none ∨ ∃ o p, r.posted = some (o, p) ∧ T.now ≤ p) →
      IssuesAs (.qwait x w) x s { T.unissued with stall := .qwait q (fld w 17 5), bundle := { T.bundle with undo := none } })) ∧
  (∀ (s : State) (x : Site) (q sd : Nat) (r : Request) (rest : List Request) (o : ReqOutcome) (p : Nat), s.dev = .run →
    (s.tile x).stall = .qwait q sd → (s.tile x).queue q = r :: rest → r.posted = some (o, p) →
    let c := Nat.max (s.tile x).now (p + 1)
    let v := issueWaiting (s.onTile x (·.retireIn c)) x
    let T := issueTile v x
    Issues v x → T.queue q = r :: rest → (∀ y, y ≠ x → v.tile y = s.tile y) →
    ((s.tile x).bundle.matrix = none → (s.tile x).bundle.vector = none → T.now = c) ∧
    retires (.qwaitRetire x) s x T q sd rest o)

/-- REQUEST_LAPSED posts LAPSED in cycle start + deadline on a request that can lapse, a LOAN's on its open chunks too, and so does nothing
to one with NOLAPSE, no deadline or a kind that cannot lapse; ACKNOWLEDGEMENT_RETURN posts DONE once every granule is acknowledged;
POISON_POSTED posts LAPSED-POISON, over a LAPSED of the same cycle too, or under NOLAPSE faults the job with reason NOLAPSE_POISON and
issue code 0x13 (R175, R177, R185, R299). -/
def Obligations.OutcomesPost : Prop :=
  ∀ (s : State) (x : Site) (q id : Nat) (r : Request), jobRuns s = true → (s.tile x).request q id = some r →
    (r.posted = none →
      (r.kind = .gread ∨ r.kind = .rread ∨ r.kind = .hread ∨ r.kind = .srecv → r.nolapse = false → r.deadline ≠ 0 →
        ∃ t, exec (.requestLapsed x q id) s = .next t ∧ OnlyTile x s t ∧ t.cycle = Nat.max s.cycle (r.start + r.deadline) ∧
          (t.tile x).request q id = some { r with posted := some (.lapsed, r.start + r.deadline) } ∧
          t.tile x = { s.tile x with queues := (t.tile x).queues } ∧ ∀ j, j ≠ q → (t.tile x).queue j = (s.tile x).queue j) ∧
      (∀ l h, r.kind = .loan → r.nolapse = false → r.deadline ≠ 0 → loanOf s (.demand x q id) = some l → h ∈ l.chunks → h.st = .open →
        h.site ≠ noSite →
        ∃ t, exec (.requestLapsed x q id) s = .next t ∧ t.gddr = s.gddr ∧ t.dev = s.dev ∧
          (t.tile x).request q id = some { r with posted := some (.lapsed, r.start + r.deadline) }) ∧
      (r.nolapse = true ∨ r.deadline = 0 ∨ r.kind.canLapse = false ∨ r.kind = .loanwait → exec (.requestLapsed x q id) s = .next s) ∧
      (r.kind = .gwrite ∨ r.kind = .rwrite ∨ r.kind = .accum → r.grans ≤ r.acked →
        ∃ t, exec (.acknowledgementReturn x q id) s = .next t ∧ OnlyTile x s t ∧ t.cycle = s.cycle ∧
          (t.tile x).request q id = some { r with posted := some (.done, s.cycle) } ∧
          t.tile x = { s.tile x with queues := (t.tile x).queues, ackAt := (t.tile x).ackAt } ∧
          (t.tile x).ackAt = (if r.kind = .accum then s.cycle else (s.tile x).ackAt))) ∧
    (r.posted = none ∨ r.posted = some (.lapsed, s.cycle) →
      r.kind = .gread ∨ r.kind = .rread ∨ r.kind = .hread ∨ r.kind = .srecv → r.poisoned = true →
      (r.nolapse = false →
        ∃ t, exec (.poisonPosted x q id) s = .next t ∧ OnlyTile x s t ∧ t.cycle = s.cycle ∧
          (t.tile x).request q id = some { r with posted := some (.poison, s.cycle) } ∧
          t.tile x = { s.tile x with queues := (t.tile x).queues }) ∧
      (r.nolapse = true →
        ∃ t, exec (.poisonPosted x q id) s = .next t ∧ t.dev = .faulted ∧
          (∃ f, t.rgs.fault = some f ∧ f.reason = 5 ∧ f.site = x) ∧
          (t.tile x).ifault = BitVec.ofNat 32 (0x13 + (r.pc / 16 % 2 ^ 17) * 256 + 2 ^ 31)))

/-- SENDING_READ takes the next 32 source bytes of the request whose granule became ready first, in the first cycle in which its bank's
read port is free of scheduled clients and of waiting arrivals, as tile memory holds them in that cycle, into the send buffer (R222, R254).
The last granule of a GWRITE or ACCUM, or one that ends a 256 B unit, takes all that the buffer holds of the request to its controller as
one unit (R270); of an HWRITE, or one that ends a 64 B line, the line to the host (R295); a granule of an RWRITE goes to its bank (R278),
one of an SSEND towards its SRECV's landing area or to the other device (R327). LANDING_WRITE writes the granule that is due first at its
address, in the first cycle in which its bank's write port is free, where its request still wants it; its call slip takes it back, and the
request's last granule posts DONE (R45, R229, R236). Between granules of different banks the order of readiness, and of the cycles in which
they can be written, is the model's reading (log entry 41), as are the granules in which a host line leaves and those that wait where an
interface refuses work (log entry 114). -/
def Obligations.QueueTraffic : Prop :=
  (∀ (s : State) (x : Site) (q : Nat) (r : Request), s.dev = .run → nextSend s x = some (q, r) → (s.tile x).request q r.id = some r →
    (s.tile x).sendBuf.length < 128 →
    let c := sendCycle s x r
    let T := (s.tile x).upTo c
    let a := r.laddr + 32 * r.sent
    let g : SendGran := { q := q, id := r.id, idx := r.sent, data := (T.asRead c).readMem a 32 }
    let gs := (s.tile x).sendOf q r.id ++ [g]
    let ends (n : Nat) : Prop := r.sent + 1 = r.grans ∨ (r.target + 32 * (r.sent + 1)) % n = 0
    let whole := ends 256
    let R := (s.tile x).ranked
    let b := max s.cycle r.ready
    let busy (n : Nat) : List Nat := R.readsAt n ++ planAt (R.arrivalPlan b).reads n
    let sent (t : State) : Prop := exec (.sendingRead x) s = .next t ∧ t.cycle = c ∧ t.gddr = s.gddr ∧
      (t.tile x).request q r.id = some { r with sent := r.sent + 1 } ∧ TileMemSame T (t.tile x)
    let kept (t : State) : Prop := (t.tile x).sendBuf = (s.tile x).sendBuf ++ [g] ∧ OnlyTile x s t
    let left (t : State) : Prop := (t.tile x).sendOf q r.id = [] ∧ t.dev = s.dev ∧ t.regs = s.regs ∧ ∀ y, y ≠ x → t.tile y = s.tile y
    (∀ i < 256, bankFree (busy (b + i)) (granOf a) = true → (∀ j < i, bankFree (busy (b + j)) (granOf a) = false) → c = b + i) ∧
    (r.kind = .gwrite ∨ r.kind = .accum → ∃ t, sent t ∧ (¬ whole → kept t) ∧
      (whole → left t ∧
        ∃ u : UnitMsg, (t.ctl (mcOf u.unit)).arrivals = (s.ctl (mcOf u.unit)).arrivals ++ [u] ∧ u.kind = r.kind ∧
          u.owner = .tile x q r.id ∧ u.data = gs.map (·.data) ∧ u.count = gs.length ∧ u.rg = r.rg ∧
          ∀ h ∈ gs.head?, u.idx = h.idx ∧ 256 * u.unit + 32 * u.first = (r.target + 32 * h.idx) / 32 * 32)) ∧
    (r.kind = .rwrite → ∃ t, sent t ∧ left t ∧
      let n := r.target / 2 ^ 23 % 64
      ∀ h ∈ gs, ∃ m : RoomAcc, m.owner = .tile x q r.id ∧ m.write = true ∧ m.gran = (r.target % 2 ^ 23 / 32 + h.idx) % 2 ^ 18 ∧
        m.idx = h.idx ∧ m.data = h.data ∧
        (if accepts s (Block.rdr.page n) then m ∈ ((t.room n).bank (bankOf m.gran)).accs ∨ m ∈ ((t.room n).bank (bankOf m.gran)).held
         else m ∈ (t.room n).offered)) ∧
    (r.kind = .hwrite → ∃ t, sent t ∧ (¬ ends 64 → kept t) ∧
      (ends 64 → left t ∧ ∀ h ∈ gs.head?,
        let line := (r.target + 32 * h.idx) / 64
        t.host.wlines = s.host.wlines ++ [(.tile x q r.id, line, gs.flatMap (·.data))] ∧
        (if accepts s (Block.hif.page 0) then (HostOwner.tile x q r.id, line, 1) ∈ t.host.lines
         else t.host.offered = s.host.offered ++ [(.tile x q r.id, line, 1)]))) ∧
    (r.kind = .ssend → let st := s.stream (streamKey s r)
      let j := st.sends.findIdx fun e => e.site == x && e.q == q && e.id == r.id
      (r.worker ≠ ownWid s → ∃ t, sent t ∧ left t ∧
        t.linkOut = s.linkOut ++ gs.map fun h =>
          { dest := r.worker, src := ownWid s, vc := 8, what := "streamData",
            words := [r.stream, x, j, h.idx, if jobSecure s then 1 else 0] ++ h.data.map (·.toNat) }) ∧
      (∀ e rr, r.worker = ownWid s → st.recvs[j]? = some e → (s.tile e.site).request e.q e.id = some rr → (s.tile e.site).pwr ≠ .fenced →
        ∃ t, sent t ∧ (t.tile x).sendOf q r.id = [] ∧ (∀ y, y ≠ x → y ≠ e.site → t.tile y = s.tile y) ∧
          ∀ h ∈ gs, ∃ l : Landing, l.addr = addr21 (Int.ofNat (rr.laddr + 32 * h.idx)) ∧ l.data = h.data ∧
            l.owner = .stream r.stream e.q e.id ∧
            (l ∈ (t.tile e.site).transit ∨ l ∈ (t.tile e.site).landing ∨
              ((t.tile e.site).anyWindow l.addr = false ∧ t.dev = .faulted))))) ∧
  (∀ (s : State) (x : Site) (i c : Nat) (l : Landing) (q id : Nat) (r : Request), jobRuns s = true →
    (s.tile x).transit = [] → nextLanding s x = some (i, l, c) → l.owner = .req q id → (s.tile x).request q id = some r →
    r.posted = none → r.kind ≠ .loan → l.addr + l.data.length ≤ 0x1C0000 →
    let U : Tile := (({ s.tile x with landing := (s.tile x).landing.eraseIdx i } : Tile).setSlip l.slip
      { (s.tile x).slip l.slip with flight := ((s.tile x).slip l.slip).flight - 1 }).grantSlips
    ∃ t, exec (.landingWrite x) s = .next t ∧ t.cycle = Nat.max s.cycle c ∧ (t.tile x).landing = (s.tile x).landing.eraseIdx i ∧
      (∀ k (h : k < l.data.length), (t.tile x).byteAt (l.addr + k) = l.data[k]) ∧
      (∀ b, b < 2 ^ 21 → (b < l.addr ∨ l.addr + l.data.length ≤ b) → (t.tile x).byteAt b = (U.toWrite c).byteAt b) ∧
      ((t.tile x).slip l.slip).flight = ((s.tile x).slip l.slip).flight - 1 ∧
      (t.tile x).request q id = some { r with landed := r.landed + 1,
                                              posted := if r.landed + 1 = r.grans then some (.done, c) else none } ∧
      (∀ y, y ≠ x → t.tile y = s.tile y) ∧ t.gddr = s.gddr)

/-! ### The matrix slot -/

/-- MMA, MCONV and MDIST issue: the feeding instruction joins the tile's with the fields of its encoding, its descriptors at bits [20:7] of
its address registers, its first notional feed cycle at I + 7, or at D + 23 where a drain of its tile issued in D and that is later, whether
or not its first period begins with bubbles (the model's choice, log entry 104); ACC = 0 sets the tile's kind, ACC = 1 leaves it; nothing
else of the tile changes but the record of the bundle's slot (R74, R81, R116, R186, R187, R189). SLICE_ACCUMULATE folds the tile's next
slice into its output tile and touches no other; an element of kind INTEGER gains the exact sum of its terms (R63, R85, R126); only a
descriptor of unpredictable results, or what has met in a bank, may fault the job (R11, R68, R69, R221). -/
def Obligations.FeedsAccumulate : Prop :=
  (∀ (s : State) (x : Site) (w : BitVec 43) (op : FeedOp), Issues s x → (s.tile x).slotTaken .matrix = false →
    let T := issueTile s x
    let i : Instr := match op with | .mma => .mma x w | .mconv => .mconv x w | .mdist => .mdist x w
    feedCode op T w = none →
    ∃ (t : State) (f : Feed), exec i s = .next t ∧ OnlyTileDraws x s t ∧ s.free < t.free ∧
      t.tile x = { T.holdSlot .matrix i with feeds := T.feeds ++ [f], acc0 := (t.tile x).acc0, acc1 := (t.tile x).acc1 } ∧
      f.op = op ∧ f.acc = fld w 42 1 ∧ f.add = bit w 41 ∧ f.fa = fld w 37 4 ∧
      f.fb = fld w 33 4 ∧ f.da = fld (T.areg (fld w 29 4)) 7 14 * 128 ∧ f.db = fld (T.areg (fld w 25 4)) 7 14 * 128 ∧
      f.rb = fld w 23 2 ∧ f.mode = fld w 20 3 ∧ f.issue = T.now ∧ f.words = [] ∧ f.slice = 0 ∧ f.round = 0 ∧
      (T.drainOf (fld w 42 1) = none → f.t0 = T.now + 7) ∧
      (∀ d, T.drainOf (fld w 42 1) = some d → f.t0 = max (T.now + 7) (d + 23)) ∧
      f.kind = (if 3 ≤ f.mode then (if f.fa = 0xB then .extremumI else .extremumF) else if f.fa = 0xB then .integer
                else if f.fa = 0xE ∨ f.fa = 0xF then .slice else .window) ∧
      (f.add = false → (t.tile x).acc f.acc = { T.acc f.acc with kind := f.kind }) ∧
      (f.add = true → (t.tile x).acc f.acc = T.acc f.acc) ∧ (t.tile x).acc (1 - f.acc) = T.acc (1 - f.acc)) ∧
  (∀ (s : State) (x : Site) (T : Tile) (f g : Feed) (w : SliceWords), s.dev = .run → (s.tile x).pwr = .active →
    nextSlice (s.tile x) = some (T, f, w) → T.feeds.find? (fun h => h.issue == f.issue) = some g → g.acc ≤ 1 →
    ∃ t, exec (.sliceAccumulate x) s = .next t ∧ w.at_ ≤ t.cycle ∧ w.rdy < t.cycle ∧
      TileOrFault x (T.upset = false ∧ (g.bad = true → g.round ≠ 0 ∨ g.slice ≠ 0)) s t ∧
      (∀ k, { SMap.get Elem.zero ((t.tile x).acc g.acc).elems k with ovr := false } =
            { SMap.get Elem.zero (accumulate g w g.bad (T.acc g.acc)).1.elems k with ovr := false }) ∧
      (g.slice + 1 < g.slices ∨ (T.acc g.acc).scaled = false →
        ((t.tile x).acc g.acc).elems = (accumulate g w g.bad (T.acc g.acc)).1.elems) ∧
      (t.tile x).acc (1 - g.acc) = T.acc (1 - g.acc) ∧ TileMemSame T (t.tile x) ∧
      (t.tile x).sregs = T.sregs ∧ (t.tile x).aregs = T.aregs ∧ (t.tile x).vregs = T.vregs) ∧
  (∀ (e : Elem) (w : Nat) (terms : List Int), (e.integer w terms).v = e.v + terms.sum)

/-- REPLAY_DECISION at t_end,k + 13: an overflow with budget left raises OSC by one, while it is below 254, the limit that R200 gives an OSC
(the model's reading, log entry 26), counts one REPLAY event and asks for the next round; without either it sets OVF and counts one OVF
event; without an overflow the instruction accumulates no more. The rounds of an instruction that has no need of them are still read: it stays
among the tile's feeds until its generators have come past its last round (R134, R135, R330). -/
def Obligations.ReplayDecides : Prop :=
  ∀ (s : State) (x : Site) (f : Feed), s.dev = .run → (s.tile x).pwr = .active →
    (s.tile x).feeds.find? (fun g => g.awaiting) = some f → f.acc ≤ 1 →
    let c := f.t0 + f.round * (f.span + 7) + f.span - 1 + 13
    let T := (s.tile x).toWrite c
    let again := f.ovr = true ∧ f.round < f.rb ∧ (T.acc f.acc).osc.toNat < 254
    ∃ t, exec (.replayDecision x) s = .next t ∧ TileOrFault x (T.upset = false) s t ∧ t.cycle = Nat.max s.cycle c ∧
      (∀ k, ((t.tile x).acc k).elems = (T.acc k).elems) ∧
      (again → ((t.tile x).acc f.acc).osc = (T.acc f.acc).osc + 1 ∧ (t.tile x).ovf = T.ovf ∧
        (∀ n, T.now ≤ n → c < n → (t.tile x).countBefore n 128 = (T.countBefore n 128 + 1) % 2 ^ 40) ∧
        ∀ g ∈ (t.tile x).feeds, g.issue = f.issue → g.round = f.round + 1 ∧ g.slice = 0 ∧ g.awaiting = false) ∧
      (¬ again → ((t.tile x).acc f.acc).osc = (T.acc f.acc).osc ∧
        ∀ g ∈ (t.tile x).feeds, g.issue = f.issue → g.closed = true ∧ g.awaiting = false ∧ g.rnd ≤ g.rb) ∧
      (f.ovr = true → ¬ again → (t.tile x).ovf = true ∧
        ∀ n, T.now ≤ n → c < n → (t.tile x).countBefore n 130 = (T.countBefore n 130 + 1) % 2 ^ 40) ∧
      (f.ovr = false → (t.tile x).ovf = T.ovf ∧ (t.tile x).census = T.census) ∧
      TileMemSame T (t.tile x) ∧ (t.tile x).sregs = T.sregs ∧ (t.tile x).aregs = T.aregs ∧ (t.tile x).vregs = T.vregs

/-- MDRAIN samples the output tile and its scale state as it issues and leaves both unchanged; where it issues before tL + 7, which R75 calls
unpredictable, the job may fault (R11). DRAIN_ROW_WRITE writes the next of its 32
rows in cycle D + i + 5, after every row and beat due before it: with DST 0 to base + 32 × pitch × i in tile memory, an MX row's scale byte
to its own address, also where that lies inside the row (the model's choice, log entry 105), unless another granule meets it in its bank in
that cycle (R221) or a later-issued write has taken its bytes (R218);
with DST 1 to the elements of its vector register. Every byte of memory outside the row and the scale byte keeps its value (R84, R147,
R192, R193, R194). MSCALE sets OSC, OFMT and SCALED of its output tile from the cycle after issue (R131, R136, R199). -/
def Obligations.DrainsAndScales : Prop :=
  (∀ (s : State) (x : Site) (w : BitVec 43), Issues s x → (s.tile x).slotTaken .matrix = false →
    let T := issueTile s x
    drainCode T w = none →
    ∃ (t : State) (d : Drain), exec (.mdrain x w) s = .next t ∧ TileOrFault x (d.early = false) s t ∧ (d.early = false → OnlyTileDraws x s t) ∧
      (d.early = true ↔ ∃ tl, T.accTL (fld w 42 1) = some tl ∧ T.now < tl + 7) ∧
      t.tile x = { T.holdSlot .matrix (.mdrain x w) with
        drains := T.drains ++ [d], drainAt := some T.now, drain0At := if fld w 42 1 = 0 then some T.now else T.drain0At,
        drain1At := if fld w 42 1 = 0 then T.drain1At else some T.now } ∧
      d.src = T.acc (fld w 42 1) ∧ d.toReg = bit w 41 ∧ d.ofmt = fld w 37 4 ∧ d.rm = fld w 34 3 ∧ d.sat = bit w 33 ∧
      d.scm = bit w 32 ∧ d.part = bit w 31 ∧ d.base = fld (T.areg (fld w 27 4)) 5 16 * 32 ∧
      d.sbase = fld (T.areg (fld w 23 4)) 0 21 ∧ d.pitch = fld w 15 8 + 1 ∧ d.vr = fld w 28 3 ∧ d.ofs = fld w 22 6 ∧
      d.row = 0 ∧ d.issue = T.now) ∧
  (∀ (s : State) (x : Site) (d : Drain) (rest : List Drain), s.dev = .run → (s.tile x).pwr = .active → (s.tile x).drains = d :: rest → d.row < 32 →
    let c := d.issue + d.row + 5
    let n := fmtBits d.ofmt
    let T := (s.tile x).settleWriters (c, issueRank d.issue 0)
    let U := T.toWrite c
    let a := (d.base + 32 * d.pitch * d.row) % 2 ^ 21
    let b := (d.sbase + d.row) % 2 ^ 21
    let row := packElems n ((drainRow d d.row).map Prod.fst)
    ∃ t, exec (.drainRowWrite x) s = .next t ∧ TileOrFault x ((T.writeRow d).upset = false) s t ∧ t.cycle = Nat.max s.cycle c ∧
      (t.tile x).drains = (if d.row = 31 then [] else [{ d with row := d.row + 1 }]) ++ rest ∧
      (t.tile x).acc0 = U.acc0 ∧ (t.tile x).acc1 = U.acc1 ∧ (t.tile x).sregs = U.sregs ∧ (t.tile x).aregs = U.aregs ∧
      (d.toReg = false → (t.tile x).vregs = U.vregs ∧
        (a + row.length ≤ 0x1C0000 → NoClash (U.putsAt c) a row.length → (∀ k, U.overridden c (issueRank d.issue 0) k = false) →
          ∀ i (h : i < row.length), (isMX d.ofmt = true → a + i ≠ b) → (t.tile x).byteAt (a + i) = row[i]) ∧
        (isMX d.ofmt = true → b < 0x1C0000 → NoClash (U.putsAt c) b 1 → (∀ k, U.overridden c (issueRank d.issue 0) k = false) →
          (t.tile x).byteAt b = BitVec.ofNat 8 (drainScale d d.row)) ∧
        (a + row.length ≤ 2 ^ 21 → ∀ k, k < 2 ^ 21 → (k < a ∨ a + row.length ≤ k) → (isMX d.ofmt = true → k ≠ b) →
          (t.tile x).byteAt k = U.byteAt k)) ∧
      (d.toReg = true → n = 16 ∨ n = 32 ∨ n = 64 → ∀ (j : Nat) (e : Nat × Machine.Class), (drainRow d d.row)[j]? = some e →
        (t.tile x).velem n d.vr d.ofs (32 * d.row + j) = e.1 % 2 ^ n)) ∧
  (∀ (s : State) (x : Site) (w : BitVec 43), Issues s x → (s.tile x).slotTaken .matrix = false →
    let T := issueTile s x
    mscaleCode T w = none →
    let osc := if bit w 36 then min (fld (T.sreg (fld w 31 5)) 0 8) 254 else fld w 28 8
    let c : ScaleWrite := { at_ := T.now + 1, acc := fld w 42 1, osc := BitVec.ofNat 8 osc, ofmt := BitVec.ofNat 4 (fld w 37 4),
                            scaled := bit w 41 }
    IssuesAs (.mscale x w) x s { T.holdSlot .matrix (.mscale x w) with scaleWrites := T.scaleWrites ++ [c] })

/-! ### The vector slot -/

/-- Every vector instruction (VADD, VSUB, VMUL, VFMA, VMIN, VMAX, VCMP, VSEL, VCVT in its four forms, VRED, VDIV, VSQRT, VRCP, VRSQRT,
VEXP, VLOG, VTANH, VLD, VST, VUPD) issues as one more instruction in flight, its fields, its scalar operand, its issue cycle and its
latency kept; with a VEXT slot it closes the bundle; VLD and VST with INC advance AA; nothing else of the tile changes but the record of
the bundle's slot, until the beats write (R145, R163, R167, R211). VECTOR_BEAT_WRITE: the beat that is due first, after every drain row
due before it, writes its elements and, where no other granule meets them in their banks and no later-issued write has taken them, its
bytes; no other tile changes. A supplied exponent out of range, a descriptor of unpredictable results and what has met in a bank may fault the
job (R11, R145, R147, R207, R211, R218, R221). -/
def Obligations.VectorSlot : Prop :=
  (∀ (s : State) (x : Site) (w : BitVec 43) (e : Option (BitVec 26)) (k : VKind), Issues s x → (s.tile x).slotTaken .vector = false →
    let T := issueTile s x
    let i := vectorInstr k x w e
    vectorCode k T w e = none →
    (∀ form, k = .cvtPlain ∧ form = 0 ∨ k = .cvtSlice ∧ form = 1 ∨ k = .rec7 ∧ form = 2 ∨ k = .rec6 ∧ form = 3 →
      fld (e.getD 0) 15 2 = form) →
    let inc := bit w 11 = true ∧ (k = .ld ∨ k = .st)
    ∃ (t : State) (o : VOp), exec i s = .next t ∧ TileOrFault x (o.outOfRange = false) s t ∧ (o.outOfRange = false → OnlyTileDraws x s t) ∧
      t.tile x = { (if e.isSome then T.next else T.holdSlot .vector i) with vops := T.vops ++ [o], regWrites := (t.tile x).regWrites } ∧
      o.kind = k ∧ o.issue = T.now ∧ o.w = w ∧ o.vext = e.getD 0 ∧ o.results = [] ∧ o.lat = vLat s.fuse.b0 k w (e.getD 0) ∧
      o.fmt = vF w ∧ o.n = vN w ∧ o.beats = vBeats k w (e.getD 0) ∧
      (e.isSome = true → o.scalar = T.sreg (xSS (e.getD 0))) ∧
      (¬ inc → (t.tile x).regWrites = T.regWrites) ∧
      (inc → ((t.tile x).upTo (T.now + 1)).areg (fld w 14 4) = T.areg (fld w 14 4) + BitVec.ofNat 32 (32 * ceilDiv (vWords w) 8))) ∧
  (∀ (s : State) (x : Site) (o p : VOp) (r : BeatResult), s.dev = .run → (s.tile x).pwr = .active →
    nextBeatOp (s.tile x).vops (s.tile x).beatDue = some o →
    let c := (s.tile x).beatDue o
    let T := ((s.tile x).settleRows (c, issueRank o.issue 2)).beforeBeat c
    T.vops.find? (fun v => v.issue == o.issue) = some p → p.results[o.next]? = some r →
    ∃ t, exec (.vectorBeatWrite x) s = .next t ∧
      TileOrFault x (((T.applyBeat o c r).passBeat o).upset = false ∧ (latchDesc (s.tile x) (o.issue + 3) o).misled = false) s t ∧ t.cycle = Nat.max s.cycle c ∧
      (r.writes = [] → (t.tile x).vregs = T.vregs) ∧ (r.stores = [] → TileMemSame T (t.tile x)) ∧
      (∀ v ofs i, r.writes = [v] → v.bit = 2048 * ofs + i * v.width → (0 < v.width ∧ v.width ≤ 32 ∨ v.width = 64) →
        v.value < 2 ^ v.width → (t.tile x).velem v.width v.reg ofs i = v.value) ∧
      (∀ a bs, r.stores = [(a, bs)] → a + bs.length ≤ 0x1C0000 → NoClash (T.putsAt c) a bs.length →
        (∀ k, T.overridden c (issueRank o.issue 2) k = false) →
        (∀ i (h : i < bs.length), (t.tile x).byteAt (a + i) = bs[i]) ∧
        ∀ k, k < 2 ^ 21 → (k < a ∨ a + bs.length ≤ k) → (t.tile x).byteAt k = T.byteAt k) ∧
      (t.tile x).sregs = T.sregs ∧ (t.tile x).aregs = T.aregs ∧ (t.tile x).acc0 = T.acc0 ∧ (t.tile x).acc1 = T.acc1 ∧
      (∀ v ∈ (t.tile x).vops, v.issue = o.issue → o.next + 1 < o.beats ∧ v.next = o.next + 1))

/-! ### Bell and supersteps -/

/-- BELL_ARRIVE: a tile that has executed BELL, all of whose remote accumulates have posted, arrives in the later of the cycle of its BELL
and that of its last acknowledgement (R20). With the last tile of a device that is not the root of a job that spans devices, ARRIVE goes to
the root (R354), with the device's longest exchange phase (the model's choice, log entry 110); before that nothing is sent.
EXCHANGE_PHASE_END: the phase ends in its end cycle and the tile computes (R22). Nothing else of the tile changes, and no other tile,
register or byte of GDDR7. -/
def Obligations.BellArrivesAndPhaseEnds : Prop :=
  ∀ (s : State) (x : Site), s.dev = .run →
    (inJob s x = true → (s.tile x).phase = .waiting → (s.tile x).arrived = none → (s.tile x).accumsAcked = true →
      let c := max (s.tile x).bellAt (s.tile x).ackAt
      ∃ t, exec (.bellArrive x) s = .next t ∧ t.cycle = max s.cycle c ∧
        t.tile x = { s.tile x with arrived := some c, arrTime := (t.tile x).arrTime } ∧
        (s.cycle ≤ c → (t.tile x).arrTime = t.time - t.phase) ∧
        t = { s with tiles := t.tiles, cycle := t.cycle, time := t.time, phase := t.phase, chron := t.chron, rgs := t.rgs, linkOut := t.linkOut } ∧
        (∀ y, y ≠ x → t.tile y = s.tile y) ∧
        (jobSpans s = false ∨ allArrived t = false → OnlyTile x s t) ∧
        (jobSpans s = true → s.rgs.arriveSent = false → allArrived t = true → bellRoot s ≠ ownWid s →
          t.rgs = { s.rgs with arriveSent := true } ∧
          t.linkOut = s.linkOut ++ [{ dest := bellRoot s, src := ownWid s, vc := 10, what := "arrive", words := [longestL s] }])) ∧
    ((s.tile x).phase = .exchange →
      ∃ t, exec (.exchangePhaseEnd x) s = .next t ∧ t.tile x = { s.tile x with phase := .compute } ∧ OnlyTile x s t ∧
        t.cycle = max s.cycle (s.tile x).exEnd)

/-- BELL_RELEASE: the bell is released 120 cycles after the last arrival, on every tile of the job in that one cycle: each begins its
exchange phase of its own length L, or with L = 0 the next compute phase, RGS_SUPERSTEP counts one up, wrapping at 2³², and the next
superstep is measured from the release and the job's longest L (R21, R22, R23, R37). RELEASE, from the root of a spanning job, does the same
on another device. GDDR7 and the tiles of no job keep what they hold. ARRIVE at the root counts the device once, and with the last device of
the job the root sends RELEASE to every other one, and to none before (R354). That ARRIVE and RELEASE carry the longest L, with which the
next superstep is measured, is the model's choice (log entry 110). -/
def Obligations.BellReleases : Prop :=
  (∀ s : State, s.dev = .run → (jobSites s).Nodup →
    (mayRelease s = true → s.cycle ≤ lastArrival s + 120 →
      ∃ t, exec .bellRelease s = .next t ∧ t.cycle = lastArrival s + 120 ∧ Released s t (lastArrival s + 120) ∧
        t.rgs.sk = lastArrival s + 120 + max (longestL s) s.rgs.lmax) ∧
    (∀ len, jobSpans s = true → bellRoot s ≠ ownWid s → s.rgs.arriveSent = true →
      ∃ t, exec (.release len) s = .next t ∧ t.cycle = s.cycle ∧ Released s t s.cycle ∧
        t.rgs.sk = s.cycle + max (longestL s) len)) ∧
  (∀ (s : State) (w len : Nat), s.dev = .run → jobSpans s = true → bellRoot s = ownWid s → w ∈ s.rgs.workers →
    ∃ t, exec (.arrive w len) s = .next t ∧ t = { s with rgs := t.rgs, linkOut := t.linkOut } ∧
      t.rgs = { s.rgs with lmax := max s.rgs.lmax len,
                           arrivedFrom := if w ∈ s.rgs.arrivedFrom then s.rgs.arrivedFrom else s.rgs.arrivedFrom ++ [w] } ∧
      ((∃ v ∈ s.rgs.workers, v ∉ t.rgs.arrivedFrom) → t.linkOut = s.linkOut) ∧
      ((∀ v ∈ s.rgs.workers, v ∈ t.rgs.arrivedFrom) → (∃ v ∈ s.rgs.workers, v ∉ s.rgs.arrivedFrom) →
        t.linkOut = s.linkOut ++ (s.rgs.workers.filter (· != ownWid s)).map fun v =>
          { dest := v, src := ownWid s, vc := 10, what := "release", words := [max s.rgs.lmax len] }))

/-- The time limits: BELL_TIMEOUT faults the job with reason BELL_TIMEOUT at the earliest arrival + the folio's timeout, unless the
release is due by then (R24); SUPERSTEP_OVERRUN, in the cycle after Sk + Bk, counts the overrun, records k, raises the overrun interrupt's
bit and goes on (R37); EVAL_OVERRUN, in the cycle after its segment's BOUND, records the map entry in RGS_EVAL, counts and raises the same
interrupt (R334); JOB_LATE sets LATE at the job's deadline, and raises it too (R390): with its IEN bit set, its vector unmasked and the host
link up, a message goes out where the condition was false (R412, R413). The last three change nothing but registers, the clock and what has
been flagged. -/
def Obligations.TimeLimits : Prop :=
  ∀ (s : State) (j : Job), s.dev = .run → s.rgs.job = some j →
    let overrunRaised (t : State) : Prop := regFld t (Block.rgs.page 0 * 0x1000 + oISTAT) 3 1 = 1 ∧
      (regFld s (Block.rgs.page 0 * 0x1000 + oIEN) 3 1 = 1 → SMap.get true s.host.mask 3 = false → s.host.mode ≠ 0 →
        SMap.get false s.host.cond 3 = false → 3 ∈ t.host.sent)
    (∀ a, firstArrival s = some a → mayRelease s = false ∨ a + j.bellTo * 84000 < cycleTime s (lastArrival s + 120) →
      ∃ t, exec .bellTimeout s = .next t ∧ t.dev = .faulted ∧ t.time = max s.time (a + j.bellTo * 84000) ∧
        (∃ f, t.rgs.fault = some f ∧ f.reason = 2) ∧ t.tiles = s.tiles ∧ t.gddr = s.gddr ∧ t.regs = s.regs) ∧
    (∀ k last, overrunDue s = some (k, last) →
      ∃ t, exec .superstepOverrun s = .next t ∧ OnlyRegs { s with rgs := { s.rgs with flagged := s.rgs.flagged ++ [k] } } t ∧
        t.cycle = max s.cycle (last + 1) ∧ regRaw t rRGS_OVK = BitVec.ofNat 32 k ∧
        regFld t rRGS_OVERRUN 0 16 = min (regFld s rRGS_OVERRUN 0 16 + 1) 65535 ∧ overrunRaised t) ∧
    (∀ i last, i < 256 → evalDue s = some (i, last) →
      ∃ t, exec .evalOverrun s = .next t ∧ OnlyRegs { s with rgs := { s.rgs with evalSeen := s.rgs.evalSeen ++ [i] } } t ∧
        t.cycle = max s.cycle (last + 1) ∧ regFld t rRGS_EVAL 16 8 = i ∧
        regFld t rRGS_EVAL 31 1 = 1 ∧ regFld t rRGS_EVAL 0 16 = min (regFld s rRGS_EVAL 0 16 + 1) 65535 ∧ overrunRaised t) ∧
    (j.deadline ≠ 0 → regFld s rRGS_OVERRUN 16 1 = 0 →
      ∃ t, exec .jobLate s = .next t ∧ OnlyRegs s t ∧
        t.time = max s.time (s.rgs.runTime + j.deadline * 84000) ∧ regFld t rRGS_OVERRUN 16 1 = 1 ∧ overrunRaised t)

/-- CENSUS_FOLD writes the 2,048 bytes of the oldest frozen entry at CEN_TABLE's base + 2,048 × (k mod 2^DEPTH): k in its first word, the
microstep, the chronicle stamp, the worker ID in its seventh, and from byte 256 on the 448 counters, the tiles' sums among them; it records
k in CEN_LAST, drops the frozen counts, and leaves every other byte of GDDR7 as it was; with DEPTH 0 nothing is folded (R331, R332, R336). -/
def Obligations.CensusFolds : Prop :=
  ∀ (s : State) (e : CenSnap) (rest : List CenSnap), s.dev = .run ∨ s.dev = .drain → s.cen.snaps = e :: rest → (jobSites s).Nodup →
    let a := regFld s rCEN_TABLE 0 20 * 0x200000 + e.first % 2 ^ regFld s rCEN_TABLE 20 4 * 2048
    (regFld s rCEN_TABLE 20 4 = 0 → exec .censusFold s = .next s) ∧
    (regFld s rCEN_TABLE 20 4 ≠ 0 →
      ∃ t, exec .censusFold s = .next t ∧
        t = { s with gddr := t.gddr, ecc := t.ecc, tiles := t.tiles, cen := { s.cen with snaps := rest }, regs := t.regs, host := t.host } ∧
        GddrOutside a 2048 s t ∧
        gddrWord t a = BitVec.ofNat 32 e.first ∧ gddrWord t (a + 4) = e.micro ∧ gddrWord t (a + 8) = BitVec.ofNat 32 e.sec ∧
        gddrWord t (a + 12) = BitVec.ofNat 32 e.ns ∧ gddrWord t (a + 24) = BitVec.ofNat 32 (ownWid s) ∧
        (∀ i < 448, (foldCounts s e)[i]? = some (gddrWord t (a + 256 + 4 * i))) ∧
        (∀ x ∈ jobSites s, t.tile x = { s.tile x with snaps := (s.tile x).snaps.drop 1 }) ∧
        (∀ x, x ∉ jobSites s → t.tile x = s.tile x) ∧
        regRaw t rCEN_LAST = BitVec.ofNat 32 e.first ∧ regFld t rCEN_STAT 0 1 = 1)

/-! ### The mesh and tile power -/

/-- ROUTER_GRANT: the output grants the flit that its arbitration picks, in the first cycle it can; a flit without ADDF leaves as it came.
Towards a neighbour it is ready there two cycles later, and on a seam bridge S later still; at the local output it enters the tile's
arrival buffer two cycles later (R251, R252, R254); a fenced tile's discards it, counted (R264, R266). -/
def Obligations.RouterGrants : Prop :=
  ∀ (s : State) (node plane c : Nat) (out : Side) (d : Cand) (r : Router), meshMoves s = true →
    grantCycle (injectUpTo s node (s.cycle + 1)) node plane out = some c →
    let u := injectUpTo (toCycle s c) node c
    arbitrate u node plane c out = some (d, r) →
    ∃ (t : State) (f : Flit), exec (.routerGrant node plane out) s = .next t ∧ t.cycle = max s.cycle c ∧
      t.gddr = s.gddr ∧ t.ctls = s.ctls ∧ t.lend = s.lend ∧ t.dev = u.dev ∧ t.rgs = u.rgs ∧
      ((s.tile node).xsends = [] → u = toCycle s c) ∧
      f.dst = d.2.dst ∧ f.src = d.2.src ∧ f.vc = d.2.vc ∧ f.win = d.2.win ∧ f.off = d.2.off ∧ f.addf = d.2.addf ∧
      (d.2.addf = 0 → f = d.2) ∧
      (out = .loc → (t.router node).held.length < (u.router node).held.length ∧
        ((u.tile node).pwr ≠ .fenced →
          t.tile node = { u.tile node with
            arrivals := (u.tile node).arrivals ++ [{ flit := f, entry := c + 2, targets := none, noted := false, sums := none }] }) ∧
        ((u.tile node).pwr = .fenced → t.tile node = u.tile node ∧
          regFld t rXNW_FDROP 0 32 = min (regFld u rXNW_FDROP 0 32 + 1) (2 ^ 32 - 1))) ∧
      (out ≠ .loc →
        let n := neighbour node out
        t.tiles = u.tiles ∧
        { input := n.2.1, flit := { f with ready := c + 2 + (if n.2.2 then seamDelay u else 0) } } ∈ (t.router n.1).held ∧
        (n.1 ≠ node → (t.router n.1).held = (u.router n.1).held ++
          [{ input := n.2.1, flit := { f with ready := c + 2 + (if n.2.2 then seamDelay u else 0) } }]))

/-- The exchange port. The flits that enter up to a cycle are checked, each in its entry cycle (R234): a granule outside its window is
dropped and counted, memory unchanged, and the job faults with reason WINDOW. Where none does, a granule inside its window is written to
it, in the first cycle from its flit's entry on in which its bank's write port is free, and no other byte changes (R234, R254, R255). Of the
ADDF flits that no earlier sum holds up the one that can read first reads its granule, in the first cycle in which its bank's read port is
free, and the sum is written at least two cycles after, in the first cycle in which the write port is free (R258; an earlier flit holds one
up only from its own read on, the model's reading, log entry 127). -/
def Obligations.ArrivalsWritten : Prop :=
  ∀ (s : State) (x : Site) (a0 : Arrival) (rest0 : List Arrival), s.dev = .run ∨ s.dev = .drain → (s.tile x).pwr = .active →
    debugJob s = false → (s.tile x).arrivals = a0 :: rest0 →
    (a0.flit.addf = 0 → ∀ a rest d,
      let e := max s.cycle a0.entry
      let R := ((s.tile x).upTo e).checkArrivals e
      R.arrivals = a :: rest → a.flit.data = [d] →
      (∀ addr, d.length = 32 → a.targets = some [(true, addr)] → addr + 32 ≤ 0x1C0000 →
        let c := R.foreseen.writeFree [granOf addr] e
        let v := enterUpTo s x c
        let T := (v.tile x).upTo c
        let U : Tile := { T with arrivals := T.arrivals.tail }
        v.dev ≠ .faulted →
        ∃ t, exec (.exchangeArrival x) s = .next t ∧ TileOrFault x ((portPut c U (addr, d)).upset = false) s t ∧ t.cycle = c ∧
          (t.tile x).arrivals.length = rest0.length ∧
          (∀ i (h : i < d.length), (t.tile x).byteAt (addr + i) = d[i]) ∧
          (∀ b, b < 2 ^ 21 → (b < addr ∨ addr + 32 ≤ b) → (t.tile x).byteAt b = (U.toWrite c).byteAt b) ∧
          SMap.get false (t.tile x).granArrived (granOf addr) = true) ∧
      (∀ (g : Arrival) (r : Nat), (((s.tile x).settleEffects a0.entry).checkArrivals a0.entry).arrivals.head? = some g →
        g.targets = some [(false, r)] → a.targets = some [(false, r)] → a0.noted = false →
        let T := ((enterUpTo s x e).tile x).upTo e
        ∃ t, exec (.exchangeArrival x) s = .next t ∧ t.dev = .faulted ∧ t.cycle = e ∧
          (∃ f, t.rgs.fault = some f ∧ f.reason ≤ 3 ∧ (T.upset = false → f.reason = 3 ∧ f.site = x)) ∧
          (t.tile x).arrivals.length = rest0.length ∧ bit (t.tile x).wfault 31 = true ∧
          (rest0 = [] → (t.tile x).wdrop = BitVec.ofNat 32 (min ((s.tile x).wdrop.toNat + 1) 0xFFFFFFFF)) ∧
          TileMemSame T (t.tile x) ∧ (∀ y, y ≠ x → t.tile y = s.tile y) ∧ t.gddr = s.gddr)) ∧
    (∀ i a b c d addr,
      let R := ((s.tile x).upTo s.cycle).checkArrivals ((s.tile x).arrivals.foldl (fun m g => max m g.entry) s.cycle)
      nextRead s R = some (i, b, c) →
      let v := enterUpTo s x c
      let T := (v.tile x).upTo c
      v.dev ≠ .faulted → T.arrivals[i]? = some a → a.flit.data = [d] → a.targets = some [(true, addr)] →
      let r := addfGran a.flit.addf ((T.asRead c).readMem addr 32) d
      c = R.foreseen.readFree b.grans (max s.cycle b.entry) ∧
      (∀ p ∈ R.arrivals.zipIdx, p.1.flit.addf ≠ 0 → p.1.sums = none → readBlocked (R.arrivals.take p.2) p.1 = false →
        c ≤ R.foreseen.readFree p.1.grans (max s.cycle p.1.entry)) ∧
      ∃ t, exec (.addfRead x) s = .next t ∧ TileOrFault x (T.upset = false) s t ∧ t.cycle = max s.cycle c ∧ TileMemSame T (t.tile x) ∧
        (t.tile x).arrivals[i]? = some { a with sums := some (c, [r.1], addfEvents a.flit.addf r.2) }) ∧
    (∀ rd sum ev d addr, a0.flit.data = [d] → a0.targets = some [(true, addr)] → a0.sums = some (rd, [sum], ev) →
      sum.length = 32 → addr + 32 ≤ 0x1C0000 →
      let e := max s.cycle (rd + 2)
      let c := ((s.tile x).upTo e).foreseen.writeFree [granOf addr] e
      let v := enterUpTo s x c
      let T := (v.tile x).upTo c
      v.dev ≠ .faulted →
      ∃ t, exec (.addfWrite x) s = .next t ∧ t.cycle = c ∧ rd + 2 ≤ c ∧ (t.tile x).arrivals.length = rest0.length ∧
        TileOrFault x ((portPut c { T with arrivals := T.arrivals.tail } (addr, sum)).upset = false) s t ∧
        ∀ i (h : i < sum.length), (t.tile x).byteAt (addr + i) = sum[i])

/-- FENCE: the tile is FENCED and holds nothing, and the flits of its arrival buffer, and the run-time flits on their way to it, are discarded
and counted; what waits at its local output is discarded as its router grants it; a
residency with data in its group ends, and every tile that retains it goes to OFF; a job in RUN or DRAIN that uses the tile faults with
reason FENCE, one that is ungating remembers the fence (R52, R242, R264). GROUP_UNGATE: the group's tiles are ACTIVE but for a fenced one,
5 µs on; outside its resident ranges such a tile holds zeros, inside them what it retained; with the last group ungating ends, and a fence
that came meanwhile faults the job (R51, R52, R227, R241). -/
def Obligations.FenceAndUngate : Prop :=
  (∀ (s : State) (x n : Nat), logicalAt s.fuse x = some n → (s.tile x).pwr ≠ .fenced →
    ∃ t, exec (.fence x) s = .next t ∧ (t.tile x).pwr = .fenced ∧ (∀ a, (t.tile x).byteAt a = 0) ∧ (t.tile x).queues = [] ∧
      (t.tile x).arrivals = [] ∧ (t.tile x).transit = [] ∧ t.routers = s.routers ∧ t.gddr = s.gddr ∧ t.cycle = s.cycle ∧
      regFld t rXNW_FDROP 0 32 =
        min (regFld s rXNW_FDROP 0 32 + ((s.tile x).arrivals.length + ((s.tile x).transit.length + 3) / 4)) (2 ^ 32 - 1) ∧
      (∀ y, y ≠ x → t.tile y = s.tile y ∨ ((s.tile y).pwr = .retain ∧ (t.tile y).pwr = .off)) ∧
      (∀ r ∈ s.rgs.resid, (∃ q ∈ r.groups, q.2 = groupOf n) → ∀ q ∈ r.groups, ∀ y ∈ groupSites s.fuse q.2, (t.tile y).pwr ≠ .retain) ∧
      (inJob s x = false → t.dev = s.dev) ∧
      (inJob s x = true → s.dev = .run ∨ s.dev = .drain →
        t.dev = .faulted ∧ ∃ f, t.rgs.fault = some f ∧ f.reason = 0x15 ∧ f.site = x) ∧
      (inJob s x = true → s.dev = .armed → s.rgs.arm ≠ .done → t.dev = .armed ∧ t.rgs.fenceArm = some (min x (s.rgs.fenceArm.getD x)))) ∧
  (∀ (s : State) (g : Nat), s.dev = .armed → s.rgs.arm = .ungate → g ∈ jobGroups s →
    groupUp s g = false ∨ (∀ h ∈ jobGroups s, groupUp s h = true) →
    ∃ t, exec (.groupUngate g) s = .next t ∧ t.time = max s.time (s.rgs.armAt + 5 * 84000) ∧ t.gddr = s.gddr ∧ groupUp t g = true ∧
      (∀ x ∈ groupSites s.fuse g, ((s.tile x).pwr = .fenced ∨ (s.tile x).pwr = .active → t.tile x = s.tile x) ∧
        ((s.tile x).pwr ≠ .fenced → (s.tile x).pwr ≠ .active → (t.tile x).pwr = .active ∧
          ∀ a, a < 2 ^ 21 →
            ((∀ r ∈ residRanges s g, ¬ (r.1 ≤ a ∧ a < r.2)) → (t.tile x).byteAt a = 0) ∧
            ((∃ r ∈ residRanges s g, r.1 ≤ a ∧ a < r.2) → (s.tile x).pwr = .retain → (t.tile x).byteAt a = (s.tile x).byteAt a))) ∧
      (∀ x, x ∉ groupSites s.fuse g → t.tile x = s.tile x) ∧
      ((∀ h ∈ jobGroups s, h ≠ g → groupUp s h = true) →
        (s.rgs.fenceArm = none → t.dev = .armed ∧ t.rgs.arm = .done) ∧
        (∀ y, s.rgs.fenceArm = some y → t.dev = .faulted ∧ ∃ f, t.rgs.fault = some f ∧ f.reason = 0x15 ∧ f.site = y)))

/-! ### Memory tiers and lending -/

/-- CONTROLLER_UNIT_ARRIVAL: a controller with EN = 0 or DRAIN = 1 takes no unit (R396, R462). Else the first unit that neither earlier
units of its request nor a full group queue hold back is checked against the region table (R275, R276). A GREAD that is allowed waits for
its read. A GWRITE that is allowed and not mirrored changes exactly its granules, which are acknowledged. An access that the table does not
allow changes no memory and faults the job with reason REGION, its address recorded where none is yet (shown where nothing of its request is
ahead of it). A non-secure write to the secure world changes nothing and is logged (R424, R425). -/
def Obligations.UnitsChecked : Prop :=
  (∀ (s : State) (mc : Nat), accepts s (Block.mct.page mc) = false → exec (.controllerUnitArrival mc) s = .next s) ∧
  ∀ (s : State) (mc : Nat) (u : UnitMsg) (rest : List UnitMsg), s.dev = .run ∨ s.dev = .drain → accepts s (Block.mct.page mc) = true →
    takeFirst (fun v => !unitBlocked s mc v) (s.ctl mc).arrivals = some (u, rest) →
    (checkAccess s u.secure u.access (256 * u.unit) = .ok → u.kind = .gread →
      (∀ n l, ledgerOf s u.unit = some (n, l) → l.rclr = true → l.isMX = true → wholeUnits s u = true) →
      ∃ t, exec (.controllerUnitArrival mc) s = .next t ∧
        t.ctl mc = { s.ctl mc with arrivals := rest, reads := (s.ctl mc).reads ++ [u] } ∧
        (∀ m, m ≠ mc → t.ctl m = s.ctl m) ∧ t = { s with ctls := t.ctls }) ∧
    (checkAccess s u.secure u.access (256 * u.unit) = .ok → u.kind = .gwrite → localRange s = none →
      ∀ x q id, u.owner = .tile x q id → (s.tile x).pwr ≠ .fenced →
      let a := 256 * u.unit + 32 * u.first
      ∃ t, exec (.controllerUnitArrival mc) s = .next t ∧ (t.ctl mc).arrivals = rest ∧
        (∀ i (h : i < u.data.flatten.length), t.gddr.byte (a + i) = u.data.flatten[i]) ∧
        GddrOutside a u.data.flatten.length s t ∧ t = { s with ctls := t.ctls, gddr := t.gddr, ecc := t.ecc, tiles := t.tiles } ∧
        (∀ y, y ≠ x → t.tile y = s.tile y) ∧
        ∀ r, (s.tile x).request q id = some r → (t.tile x).request q id = some { r with acked := r.acked + u.count }) ∧
    (∀ k, checkAccess s u.secure u.access (256 * u.unit) = .violation k →
      (∀ m < 10, (∀ v ∈ (s.ctl m).reads, v.owner ≠ u.owner) ∧ ∀ g ∈ (s.ctl m).groups, ∀ v ∈ g.2, v.owner ≠ u.owner) →
      ∃ t, exec (.controllerUnitArrival mc) s = .next t ∧ t.dev = .faulted ∧ t.gddr = s.gddr ∧ t.tiles = s.tiles ∧ t.rooms = s.rooms ∧
        (∃ f, t.rgs.fault = some f ∧ f.reason = 4 ∧ f.detail = mc ∧ f.site = u.owner.site) ∧
        (regFld s (rMCT_RFAULT mc) 31 1 = 0 → regRaw t (rMCT_RFADDR mc) = BitVec.ofNat 32 u.unit)) ∧
    (∀ n, checkAccess s u.secure u.access (256 * u.unit) = .shut n → u.kind = .gwrite ∨ u.kind = .accum →
      ∃ t, exec (.controllerUnitArrival mc) s = .next t ∧ t.gddr = s.gddr ∧ t.dev = s.dev ∧ t.rooms = s.rooms ∧
        (keyOpen s.time s.keeper.keys (u.source.code + 8 * n) = false → s.keeper.xlog.length < 16 →
          ∃ e, t.keeper.xlog = s.keeper.xlog ++ [e] ∧ e.write = true ∧ e.entry = n ∧ e.addr = 256 * u.unit + 32 * u.first))

/-- GDDR7_ACCESS serves the read of a unit that is pending: a clean unit's granules set out to the tile that asked and, where its call
slip admits them, enter its landing buffer at the request's addresses; an uncorrectable unit counts one UE and poisons the
request (R236, R271, R297). GDDR7 keeps every byte, and no other tile changes. -/
def Obligations.ReadsServed : Prop :=
  ∀ (s : State) (mc unit : Nat) (u : UnitMsg) (x q id : Nat) (r : Request), s.dev = .run ∨ s.dev = .drain →
    (s.ctl mc).reads.filter (fun v => v.unit == unit) = [u] → u.owner = .tile x q id → u.unit = unit →
    (s.ctl mc).cached unit = none → (s.tile x).request q id = some r → r.posted = none →
    (unitBad s unit = false → ledgerOf s unit = none → mcOf unit = mc → (s.tile x).transit = [] → (s.tile x).pwr ≠ .fenced →
      u.first + u.count ≤ 8 →
      let T := (s.tile x).settleEffects s.cycle
      (T.slip q).flight + u.count ≤ (T.slip q).allot →
      ∃ t, exec (.gddr7Access mc unit [] []) s = .next t ∧ (∀ v ∈ (t.ctl mc).reads, v.unit ≠ unit) ∧ t.gddr = s.gddr ∧ t.dev = s.dev ∧
        (t.tile x).landing = (s.tile x).landing ++ (List.range u.count).map (fun i =>
          ({ addr := (r.laddr + 32 * (u.idx + i)) % 2 ^ 21, data := s.gddr.read (256 * unit + 32 * (u.first + i)) 32,
             owner := .req q id, slip := q, win := 0, off := 0 } : Landing)) ∧
        ∀ y, y ≠ x → t.tile y = s.tile y) ∧
    (∀ g, g < 8 →
      ∃ t, exec (.gddr7Access mc unit [] [g]) s = .next t ∧ (∀ v ∈ (t.ctl mc).reads, v.unit ≠ unit) ∧ t.gddr = s.gddr ∧ t.dev = s.dev ∧
        (t.tile x).request q id = some { r with poisoned := true } ∧ (∀ y, y ≠ x → t.tile y = s.tile y) ∧
        SMap.get Ecc.good t.ecc (8 * unit + g) = .uncorrectable ∧
        regFld t (rMCT_ECC mc) 16 16 = min (regFld s (rMCT_ECC mc) 16 16 + 1) 65535)

/-- LEDGER_ADD takes the first unit of the round robin's next group, adds it into the unit that the controller's cache holds, and
acknowledges it (R312, R314); a unit that has to be fetched and cannot be read counts a UE and faults the job (R318); an INT64 sum within
the format is exact (R138). LEDGER_FORWARD sends the oldest forwarded unit to its home worker, or queues one that arrives at its
controller (R311), also where the device has sent READY and another of its job may be in RUN before it (R378), and, of a worker whose job has
ended its part on this device, after that (the model's choice, log entry 129). -/
def Obligations.LedgersAdd : Prop :=
  (∀ (s : State) (mc g : Nat) (u : UnitMsg) (rest : List UnitMsg) (n : Nat) (l : LedgerFmt), s.dev = .run ∨ s.dev = .drain →
    (s.ctl mc).nextGroup = some g → (s.ctl mc).group g = u :: rest → mcOf u.unit = mc → ledgerOf s u.unit = some (n, l) →
    (unitBad s u.unit = false →
      ∃ t, exec (.ledgerAdd mc [] []) s = .next t ∧ (t.ctl mc).group g = rest ∧ (t.ctl mc).rr = (g + 1) % 8 ∧ t.dev = s.dev ∧
        (t.ctl mc).cached u.unit = some (addUnit l (fetchUnit s u.unit l) (32 * u.first) u.data.flatten).1 ∧
        ∀ x q id r, u.owner = .tile x q id → (s.tile x).request q id = some r →
          (t.tile x).request q id = some { r with acked := r.acked + u.count }) ∧
    (∀ k, k < 8 → (s.ctl mc).cached u.unit = none → l.init = false ∨ u.unit ∈ (s.ctl mc).inited →
      ∃ t, exec (.ledgerAdd mc [] [k]) s = .next t ∧ t.dev = .faulted ∧ t.gddr = s.gddr ∧ (t.ctl mc).cached u.unit = none ∧
        (∃ f, t.rgs.fault = some f ∧ f.reason = 0x0E ∧ f.detail = mc ∧ f.site = u.owner.site) ∧
        regFld t (rMCT_ECC mc) 16 16 = min (regFld s (rMCT_ECC mc) 16 16 + 1) 65535)) ∧
  (∀ e c : Nat, -(2 ^ 63) ≤ signed 64 e + signed 64 c → signed 64 e + signed 64 c < 2 ^ 63 →
    (addINT64 e c).1 = wrap 64 (signed 64 e + signed 64 c)) ∧
  (∀ (s : State) (u : UnitMsg) (rest : List UnitMsg), s.dev = .run ∨ s.dev = .drain → s.forward = u :: rest →
    ∃ (t : State) (m : LinkMsg), exec (.ledgerForward .send) s = .next t ∧ t.linkOut = s.linkOut ++ [m] ∧
      m.dest = forwardHome s u ∧ m.vc = u.rg ∧ m.what = "ledgerUnit" ∧
      t = { s with forward := rest, forwarded := s.forwarded ++ [u], linkOut := t.linkOut }) ∧
  (∀ (s : State) (w a g : Nat) (sec : Bool) (data : List Byte), takesTraffic s = true ∨ w ∈ s.rgs.past →
    ∃ (t : State) (u : UnitMsg), exec (.ledgerForward (.receive w sec a g data)) s = .next t ∧
      (t.ctl (mcOf (a / 256))).arrivals = (s.ctl (mcOf (a / 256))).arrivals ++ [u] ∧ u.owner = .remote w ∧ u.kind = .accum ∧
      u.secure = sec ∧ u.unit = a / 256 ∧ u.first = a / 32 % 8 ∧ u.count = data.length / 32 ∧ t = { s with ctls := t.ctls })

/-- A reading room's bank: while powered, or gating with writes still to come, it serves the granule at the head of its queue, a write's
bytes or its poison mark, a read of a poisoned granule as poison; the bytes of a clean read go to the tile that asked, into its landing
buffer where its call slip admits them, and those of a loan's towards its chunk's tile (R236, R278, R287, R297). A write that reaches a
gated or a waking bank faults the job with LATE_WRITE and is recorded, a read faults it with ROOM_READ; the wake ends 1,600 cycles after its
start, and a GATE that came with it acts then; a gating bank without a write in flight gates and holds nothing, with one it stays powered
after 8,192 cycles, and so it does for a write accepted in the cycle in which its count would be 0 (R279 to R281, R304, R306). -/
def Obligations.RoomBanks : Prop :=
  (∀ (s : State) (n b : Nat), n < 64 → b < 16 →
    (∀ a, s.dev = .run ∨ s.dev = .drain → ((s.room n).bank b).st.serves = true → ((s.room n).bank b).accs = [a] →
      (a.write = true →
        ∃ t, exec (.roomBankAccess n b) s = .next t ∧ ((t.room n).bank b).accs = [] ∧
          (a.poison = false → (∀ i (h : i < a.data.length), (t.room n).mem.byte (32 * a.gran + i) = a.data[i]) ∧
            ∀ c, (c < 32 * a.gran ∨ 32 * a.gran + a.data.length ≤ c) → (t.room n).mem.byte c = (s.room n).mem.byte c) ∧
          (a.poison = true → (t.room n).mem = (s.room n).mem ∧ SMap.get false (t.room n).poison a.gran = true)) ∧
      (∀ x q id r, a.write = false → SMap.get false (s.room n).poison a.gran = true → a.owner = .tile x q id →
        (s.tile x).request q id = some r → r.posted = none →
        ∃ t, exec (.roomBankAccess n b) s = .next t ∧ (t.tile x).request q id = some { r with poisoned := true } ∧
          (t.room n).mem = (s.room n).mem) ∧
      (a.write = false → SMap.get false (s.room n).poison a.gran = false →
        let data := (s.room n).mem.read (32 * a.gran) 32
        (∀ x q id r, a.owner = .tile x q id → (s.tile x).request q id = some r → r.posted = none → (s.tile x).pwr ≠ .fenced →
          (s.tile x).transit = [] →
          let T := (s.tile x).settleEffects s.cycle
          (T.slip q).flight < (T.slip q).allot →
          ∃ t, exec (.roomBankAccess n b) s = .next t ∧ ((t.room n).bank b).accs = [] ∧ (t.room n).mem = (s.room n).mem ∧ t.dev = s.dev ∧
            (t.tile x).landing = (s.tile x).landing ++
              [{ addr := (r.laddr + 32 * a.idx) % 2 ^ 21, data := data, owner := .req q id, slip := q, win := 0, off := 0 }] ∧
            t.gddr = s.gddr ∧ ∀ y, y ≠ x → t.tile y = s.tile y) ∧
        (∀ m l h, a.owner = .loan (.sched m) → loanOf s (.sched m) = some l → l.chunks = [h] → h.st = .open → h.site ≠ noSite →
          h.srcGran ≤ a.idx → a.idx < h.srcGran + h.len → (s.tile h.site).pwr ≠ .fenced → (s.tile h.site).transit = [] →
          let o := l.off + (a.idx - h.srcGran)
          (((s.tile h.site).settleEffects s.cycle).remoteTarget l.win o).isSome = true →
          ∃ (t : State) (e : Landing), exec (.roomBankAccess n b) s = .next t ∧ ((t.room n).bank b).accs = [] ∧
            (t.room n).mem = (s.room n).mem ∧ t.dev = s.dev ∧ e.data = data ∧ e.owner = .loan m ∧ e.win = l.win ∧ e.off = o ∧
            (e ∈ (t.tile h.site).transit ∨ e ∈ (t.tile h.site).landing) ∧ ∀ y, y ≠ h.site → t.tile y = s.tile y))) ∧
    (∀ a, s.dev = .run ∨ s.dev = .drain → ((s.room n).bank b).st.serves = false → ((s.room n).bank b).accs = [a] →
      ∃ t, exec (.roomBankAccess n b) s = .next t ∧ t.dev = .faulted ∧ (t.room n).mem = (s.room n).mem ∧
        (∃ f, t.rgs.fault = some f ∧ f.reason = (if a.write then 6 else 7) ∧ f.detail = n) ∧
        (a.write = true → regFld s (rRDR_LATE n) 31 1 = 0 →
          regRaw t (rRDR_LATE n) = BitVec.ofNat 32 (a.gran % 2 ^ 18 + a.owner.site % 2 ^ 12 * 2 ^ 18 + 2 ^ 31))) ∧
    (∀ c, ((s.room n).bank b).st = .waking c →
      ∃ t, exec (.bankWakeDone n b) s = .next t ∧ t.cycle = max s.cycle (c + 1600) ∧ (t.room n).mem = (s.room n).mem ∧
        ((t.room n).bank b).st = (if ((s.room n).bank b).gateAfter then .gating (c + 1600) none else .powered)) ∧
    (∀ c z, ((s.room n).bank b).st = .gating c z → (∀ a ∈ ((s.room n).bank b).accs, a.write = false) →
      ∃ t, exec (.bankGate n b) s = .next t ∧ ((t.room n).bank b).st = .gated ∧ t.cycle = max s.cycle (z.getD c) ∧
        (∀ a, b * 0x80000 ≤ a → a < (b + 1) * 0x80000 → (t.room n).mem.byte a = 0) ∧
        (∀ a, (a < b * 0x80000 ∨ (b + 1) * 0x80000 ≤ a) → (t.room n).mem.byte a = (s.room n).mem.byte a)) ∧
    (∀ c z, ((s.room n).bank b).st = .gating c z → (∃ a ∈ ((s.room n).bank b).accs, a.write = true) →
      ∃ t, exec (.gateTimeout n b) s = .next t ∧ ((t.room n).bank b).st = .stuck ∧ t.cycle = max s.cycle (c + 8192) ∧
        (t.room n).mem = (s.room n).mem ∧ regFld t (Block.rdr.page n * 0x1000 + oISTAT) 0 1 = 1)) ∧
  (∀ (s : State) (k : Bank) (a : RoomAcc), a.write = true → k.firstIdle s.cycle = true →
    (k.post s a).st = .powered ∧ (k.post s a).accs = k.accs ++ k.held ++ [a])

/-- A loan is admitted with its card to fetch while fewer than 4,096 are in flight, or in the place of one that retires then, and held
with HELD set otherwise (R289, R306); at start + deadline, admitted or not, every chunk that has not landed lapses, and the outcome stands
in its tile's table (R292, R293). The card of the loan that is served first is fetched: it is in the cache, or, unreadable, leaves the loan
without one and counts a UE (R285, R291, R484). A page-in whose lines are all in sets GPRESENT in the card (R290), and is left without a card
where the card has left the cache and cannot be read again (R285). Poisoned granules of an
object unit are asked of the next copy, and RETRY counts one (R298). A loan of which no clean copy remains, or without a card, posts
LAPSED-POISON on every open chunk that holds what is lost, POISON counts it once, and under NOLAPSE the job faults, for a loan to a home, which
has no chunk, too (R298, R299, R303, R306).
A loan with no open chunk and no stage left retires, its place free (R290). -/
def Obligations.Loans : Prop :=
  (∀ (s : State) (l : Loan) (rest : List Loan), s.dev = .run ∨ s.dev = .drain → accepts s (Block.lnd.page 0) = true →
    s.lend.started = l :: rest → cachedCard s l.card = none →
    (s.lend.loans.length < 4096 →
      ∃ t, exec .loanAdmit s = .next t ∧ t.lend.started = rest ∧ t.lend.loans = s.lend.loans ++ [{ l with stage := .card }] ∧
        regFld t rLND_LOANS 0 13 = s.lend.loans.length + 1 ∧ t = { s with lend := t.lend, regs := t.regs }) ∧
    (∀ r, 4096 ≤ s.lend.loans.length → s.lend.loans.find? (·.canRetire) = some r →
      ∃ t, exec .loanAdmit s = .next t ∧ t.lend.started = rest ∧ t = { s with lend := t.lend, regs := t.regs } ∧
        t.lend.loans = (s.lend.loans.filter fun m => decide (m.key ≠ r.key)) ++ [{ l with stage := .card }])) ∧
  (∀ (s : State) (l : Loan), s.dev = .run ∨ s.dev = .drain → accepts s (Block.lnd.page 0) = true →
    4096 ≤ s.lend.loans.length → (∀ m ∈ s.lend.loans, m.canRetire = false) →
    nextHeld s.lend.started = some l → debugJob s = false →
    ∃ t, exec .loanAdmit s = .next t ∧ regFld t rLND_LOANS 26 1 = 1 ∧ t.gddr = s.gddr ∧ t.dev = s.dev ∧
      t.lend.loans.length = s.lend.loans.length) ∧
  (∀ (s : State) (k : LoanKey) (l : Loan) (d : Nat), s.dev = .run ∨ s.dev = .drain → loanOf s k = some l → l.deadline = some d →
    ∃ t, exec (.loanLapse k) s = .next t ∧ t.cycle = max s.cycle (l.start + d) ∧ t.gddr = s.gddr ∧ t.rooms = s.rooms ∧
      (∃ m, loanOf t k = some m ∧ m.closed = true ∧ m.chunks.length = l.chunks.length ∧
        ∀ (i : Nat) (h p : Chunk), l.chunks[i]? = some h → m.chunks[i]? = some p →
          (h.st ≠ .open → p = h) ∧ (h.st = .open → p = { h with st := .lapsed (l.start + d) })) ∧
      ∀ h ∈ l.chunks, h.st = .open → h.site ≠ noSite → ∀ n, k = .sched n →
        SMap.find (t.tile h.site).outcomes (n % 256) = some (n, .lapsed)) ∧
  (∀ (s : State) (k : LoanKey) (l : Loan), s.dev = .run ∨ s.dev = .drain → inFlight s k = some l →
    (l.canRetire = true →
      ∃ t, exec (.loanRetire k) s = .next t ∧ inFlight t k = none ∧ (∀ m ∈ s.lend.loans, m.key ≠ k → m ∈ t.lend.loans) ∧
        t = { s with lend := t.lend, regs := t.regs }) ∧
    (firstCard s l = true → cachedCard s l.card = none → checkAccess s (jobSecure s) .card (cardAddr s l.card) = .ok →
      let mc := mcOf (cardAddr s l.card / 256)
      ((s.ctl mc).cached (cardAddr s l.card / 256) = none →
        ∃ t, exec (.cardFetchDone k true) s = .next t ∧ t.gddr = s.gddr ∧ t.dev = s.dev ∧ inFlight t k = some { l with lost := true } ∧
        regFld t (rMCT_ECC mc) 16 16 = min (regFld s (rMCT_ECC mc) 16 16 + 1) 65535) ∧
      (unitBad s (cardAddr s l.card / 256) = false →
        ∃ t, exec (.cardFetchDone k false) s = .next t ∧ t.gddr = s.gddr ∧ cachedCard t l.card = some (cardWords s l.card))) ∧
    (l.stage = .pageIn → l.bad = [] → (∀ p ∈ s.host.lines ++ s.host.offered, hostLoan p.1 ≠ some k) → cachedCard s l.card = none →
      checkAccess s (jobSecure s) .card (cardAddr s l.card) = .ok → unitBad s (cardAddr s l.card / 256) = true →
      (s.ctl (mcOf (cardAddr s l.card / 256))).cached (cardAddr s l.card / 256) = none →
      ∃ t, exec (.pageInDone k) s = .next t ∧ t.gddr = s.gddr ∧ t.tiles = s.tiles ∧
        inFlight t k = some { l with stage := .card, lost := true }) ∧
    (l.stage = .pageIn → l.bad = [] → (∀ p ∈ s.host.lines ++ s.host.offered, hostLoan p.1 ≠ some k) → l.dest = 0 →
      (cachedCard s l.card).isSome = true ∨
        (checkAccess s (jobSecure s) .card (cardAddr s l.card) = .ok ∧ unitBad s (cardAddr s l.card / 256) = false) →
      checkAccess s (jobSecure s) .gpresent (cardAddr s l.card) = .ok →
      ∃ t, exec (.pageInDone k) s = .next t ∧ bit (gddrWord t (cardAddr s l.card)) 2 = true ∧
        (∃ ws, cachedCard t l.card = some ws ∧ bit (wordAt ws 0) 2 = true) ∧
        GddrOutside (cardAddr s l.card) 32 s t ∧ t.tiles = s.tiles) ∧
    (∀ u g gs base, l.due u = g :: gs →
      let n := gs.foldl (fun m h => min m h.2) g.2
      let off := (base + 256 * u) % 32
      let grans := min 8 ((decodeCard l.words).size - 8 * u)
      (loanCopies l)[n]? = some (.gddr base) →
      ∃ t, exec (.replicaReread k u) s = .next t ∧ t.gddr = s.gddr ∧ t.tiles = s.tiles ∧
        regFld t rLND_ERR 0 16 = min (regFld s rLND_ERR 0 16 + 1) 65535 ∧
        (∃ m, inFlight t k = some m ∧ ∀ h ∈ g :: gs, h.2 = n → SMap.find m.bad h.1 = some (n, true)) ∧
        ∀ v ∈ unitsOf (base + 256 * u - off) (if off = 0 then grans else grans + 1),
          ∃ p ∈ (t.ctl (mcOf v.1)).arrivals, p.unit = v.1 ∧ p.first = v.2.1 ∧ p.owner = .copy k n) ∧
    (let pick (h : Chunk) : Prop := l.lost = true ∨ ∃ g ∈ l.gone, h.holdsUnit (g / 8) = true
     (∃ h ∈ l.chunks, h.st = .open ∧ pick h) → l.hasPoison = false →
      ∃ t, exec (.loanPoison k) s = .next t ∧ t.gddr = s.gddr ∧
        regFld t rLND_ERR 16 16 = min (regFld s rLND_ERR 16 16 + 1) 65535 ∧
        (∃ m, inFlight t k = some m ∧ m.poisoned = true ∧ m.chunks.length = l.chunks.length ∧
          ∀ (i : Nat) (h p : Chunk), l.chunks[i]? = some h → m.chunks[i]? = some p →
            (h.st = .open → pick h → p = { h with st := .poisoned s.cycle }) ∧
            (¬ pick h ∨ (h.st ≠ .open ∧ h.st ≠ .lapsed s.cycle) → p = h)) ∧
        (∀ n, k = .sched n → l.nolapse = true → t.dev = .faulted)) ∧
    (l.chunks = [] → l.lost = true ∨ l.gone ≠ [] → l.poisoned = false →
      ∃ t, exec (.loanPoison k) s = .next t ∧ t.gddr = s.gddr ∧ t.tiles = s.tiles ∧ inFlight t k = some { l with poisoned := true } ∧
        regFld t rLND_ERR 16 16 = min (regFld s rLND_ERR 16 16 + 1) 65535 ∧
        (∀ n, k = .sched n → l.nolapse = true → t.dev = .faulted ∧ ∃ f, t.rgs.fault = some f ∧ f.reason = 5)))

/-- HOST_LINE_COMPLETE: the granules of an HREAD line that comes clean, while the link is up, enter the landing buffer where the call slip
admits them; a line that does not come clean counts one HOSTUE and poisons the request; the last line of an HWRITE posts DONE, its bytes
the host's (R236, R295 to R297). STREAM_READY counts one more ready message, and the SSEND that it releases may send from now on (of one from another
device the source tile and whether its SRECV must have a partner are kept, the model's choice, log entry 109);
STREAM_ACK posts DONE on the oldest SSEND not yet acknowledged (R222, R327, R328). -/
def Obligations.HostLinesAndStreams : Prop :=
  (∀ (s : State) (x q id line : Nat) (data : List Byte) (r : Request), lineOutstanding (.tile x q id) line 512 s.host.lines = true →
    (s.tile x).request q id = some r → r.posted = none →
    let i := (lineGrans r line).1
    let n := (lineGrans r line).2
    (r.kind = .hread → s.host.mode ≠ 0 → data.length = 64 → (r.target / 32 + i) % 2 + n ≤ 2 → (s.tile x).transit = [] →
      (s.tile x).pwr ≠ .fenced →
      let T := (s.tile x).settleEffects s.cycle
      (T.slip q).flight + n ≤ (T.slip q).allot →
      ∃ t, exec (.hostLineComplete (.tile x q id) line true data) s = .next t ∧ t.gddr = s.gddr ∧ t.dev = s.dev ∧
        t.host.lines = removeLine (.tile x q id) line s.host.lines ∧ (∀ y, y ≠ x → t.tile y = s.tile y) ∧
        (t.tile x).landing = (s.tile x).landing ++ (List.range n).map (fun j =>
          ({ addr := (r.laddr + 32 * (i + j)) % 2 ^ 21, data := (data.drop (32 * ((r.target / 32 + i) % 2 + j))).take 32,
             owner := .req q id, slip := q, win := 0, off := 0 } : Landing))) ∧
    (r.kind = .hread →
      ∃ t, exec (.hostLineComplete (.tile x q id) line false data) s = .next t ∧ t.gddr = s.gddr ∧ t.dev = s.dev ∧
        t.host.lines = removeLine (.tile x q id) line s.host.lines ∧
        (t.tile x).request q id = some { r with poisoned := true } ∧
        regFld t rHIF_HOSTUE 0 32 = min (regFld s rHIF_HOSTUE 0 32 + 1) (2 ^ 32 - 1) ∧ ∀ y, y ≠ x → t.tile y = s.tile y) ∧
    (r.kind = .hwrite → r.acked + n = r.grans → s.host.mode ≠ 0 →
      ∃ t, exec (.hostLineComplete (.tile x q id) line true data) s = .next t ∧ t.gddr = s.gddr ∧ t.dev = s.dev ∧
        (t.tile x).request q id = some { r with acked := r.grans, posted := some (.done, s.cycle) } ∧
        (∀ bs, s.host.wlines.filter (fun p => decide (p.1 = HostOwner.tile x q id ∧ p.2.1 = line)) = [(.tile x q id, line, bs)] →
          t.host.data = bs) ∧ ∀ y, y ≠ x → t.tile y = s.tile y)) ∧
  (∀ (s : State) (n tile : Nat) (must : Bool), s.dev = .run ∨ s.dev = .drain →
    256 ≤ n ∨ ((s.stream n).readies < (s.stream n).recvs.length ∧ (s.stream n).sendSite.isSome = true) →
    ∃ t, exec (.streamReady n tile must) s = .next t ∧
      t.stream n = { s.stream n with readies := (s.stream n).readies + 1,
                                     asks := if 256 ≤ n then (s.stream n).asks ++ [(tile, must)] else (s.stream n).asks } ∧
      (∀ m, m ≠ n → t.stream m = s.stream m) ∧
      (n < 256 → t = { s with streams := t.streams, tiles := t.tiles }) ∧
      ∀ e r, (s.stream n).sends[(s.stream n).readies]? = some e → (s.tile e.site).request e.q e.id = some r →
        (t.tile e.site).request e.q e.id = some { r with ready := max r.ready s.cycle }) ∧
  (∀ (s : State) (n : Nat) (e : StreamEnd) (r : Request), s.dev = .run ∨ s.dev = .drain →
    256 ≤ n ∨ (∃ v, (s.stream n).recvs[(s.stream n).acks]? = some v ∧ streamDrained s n v = true) →
    (s.stream n).sends[(s.stream n).acks]? = some e → (s.tile e.site).request e.q e.id = some r → r.sent = r.grans →
    r.posted = none → (s.tile e.site).sendOf e.q e.id = [] →
    ∃ t, exec (.streamAck n) s = .next t ∧ t.stream n = { s.stream n with acks := (s.stream n).acks + 1 } ∧
      (t.tile e.site).request e.q e.id = some { r with posted := some (.done, s.cycle) } ∧
      (∀ y, y ≠ e.site → t.tile y = s.tile y) ∧ t = { s with streams := t.streams, tiles := t.tiles })

/-! ### Jobs -/

/-- RGS_SUBMIT and the SUBMIT doorbell: a free entry joins the end of the queue, its word 0 becomes SUBMITTED, and RESULT reads 0; a
full queue, an entry that already waits and a device hold leave the queue and GDDR7 alone, with RESULT 1, 2 and 3 (R374, R407). HOLD ends
by RETRY, which runs accession on the held entry again, or by DISCARD, which leaves it DISCARDED and the device in SLEEP (R376). Each such
write of the page clears its SEAL (R382). The head of the queue leaves SUBMITTED for ACCESSION while RGS accepts work and GDDR7 is awake
(R375). -/
def Obligations.SubmitHoldAccession : Prop :=
  (∀ (s : State) (i : BitVec 8), hostReaches s = true → s.dev ≠ .boot → pageSecure s (Block.rgs.page 0) = false →
    let n := i.toNat
    let ok (c : Instr) : Prop := ∃ t, exec c s = .next t ∧ t.rgs.queue = s.rgs.queue ++ [n] ∧
      gddrWord t (circAddr s n) = 1 ∧ GddrOutside (circAddr s n) 4 s t ∧ regFld t rRGS_SUBMIT 8 2 = 0 ∧ t.dev = s.dev ∧
      regRaw t (Block.rgs.reg 0 oSEAL) = 0
    let refused (c : Instr) (r : Nat) : Prop := ∃ t, exec c s = .next t ∧ regFld t rRGS_SUBMIT 8 2 = r ∧
      t = { s with regs := t.regs } ∧ regRaw t (Block.rgs.reg 0 oSEAL) = 0
    (s.devHold = false → (pendingEntries s).length < 256 → n ∉ pendingEntries s → ok (.rgsSubmit i) ∧ ok (.submit i)) ∧
    (s.devHold = true → refused (.rgsSubmit i) 3 ∧ refused (.submit i) 3) ∧
    (s.devHold = false → 256 ≤ (pendingEntries s).length → refused (.rgsSubmit i) 1 ∧ refused (.submit i) 1) ∧
    (s.devHold = false → (pendingEntries s).length < 256 → n ∈ pendingEntries s →
      refused (.rgsSubmit i) 2 ∧ refused (.submit i) 2)) ∧
  (∀ (s : State) (i : Nat), hostReaches s = true → pageSecure s (Block.rgs.page 0) = false → s.dev = .hold → s.devHold = false →
    s.rgs.cur = some i →
    (∃ t, exec .retry s = .next t ∧ t.dev = .accession ∧ t.rgs.cur = some i ∧ gddrWord t (circAddr s i) = 2 ∧
      GddrOutside (circAddr s i) 4 s t ∧ t.rgs.queue = s.rgs.queue ∧ regRaw t (Block.rgs.reg 0 oSEAL) = 0) ∧
    (∃ t, exec .discard s = .next t ∧ t.dev = .sleep ∧ t.rgs.cur = none ∧ gddrWord t (circAddr s i) = 10 ∧
      GddrOutside (circAddr s i) 4 s t ∧ t.rgs.queue = s.rgs.queue ∧ regRaw t (Block.rgs.reg 0 oSEAL) = 0)) ∧
  (∀ (s : State) (i : Nat) (rest : List Nat), s.rgs.queue = i :: rest → s.dev = .sleep → accepts s (Block.rgs.page 0) = true →
    gddrAwake s = true →
    ∃ t, exec .accessionStart s = .next t ∧ t.dev = .accession ∧ t.rgs.cur = some i ∧ t.rgs.queue = rest ∧
      gddrWord t (circAddr s i) = 2 ∧ GddrOutside (circAddr s i) 4 s t ∧ t.tiles = s.tiles)

/-- ACCESSION_DONE runs the checks in order: an entry that fails one is in HOLD with the first failing check's reason and detail in its word
0 and in RGS_HOLD, the hold interrupt set (R381, R398); a spanning folio that has passed the early ones and finds a half reduced waits, and
ACCESSION_RESUME takes it on once no half is (R263); one that passes every check is ARMED at the base that placement chooses, after the
entry, the folio and the cards have been read and the errors of their units counted (R271), status 4 and the fault register clear (R377,
R385), or has faulted there with a disabled block (R463). -/
def Obligations.AccessionOutcome : Prop :=
  ∀ (s : State) (i : Nat), s.dev = .accession → s.rgs.cur = some i → i < 256 →
    let c := circEntry s i
    let held (t : State) (r d : Nat) : Prop := t.dev = .hold ∧ t.rgs.held = true ∧ GddrOutside (circAddr s i) 4 s t ∧
      gddrWord t (circAddr s i) = BitVec.ofNat 32 (3 + r % 256 * 2 ^ 8 + d % 65536 * 2 ^ 16) ∧
      regFld t rRGS_HOLD 0 8 = r % 256 ∧ regFld t rRGS_HOLD 8 16 = d % 65536 ∧ regFld t rRGS_HOLD 24 8 = i ∧
      regFld t (Block.rgs.page 0 * 0x1000 + oISTAT) 1 1 = 1
    let armed (t : State) (b : Nat) : Prop :=
      (t.dev = .armed ∨ (t.dev = .faulted ∧ ∃ f, t.rgs.fault = some f ∧ f.reason = 0x18)) ∧
      (∃ j, t.rgs.job = some j ∧ j.entry = i ∧ j.base = b ∧ j.secure = c.secure ∧ j.folio = c.folio) ∧
      gddrWord t (circAddr s i) = 4 ∧ GddrOutside (circAddr s i) 4 s t ∧ regRaw t rRGS_FAULT = 0 ∧
      (t.dev = .armed → regFld t rCPW_DSTATE 0 2 = 2)
    let placed (u t : State) : Prop := match firstFailure (cardsFetched u i c) i c lateChecks with
      | some (r, d) => held t r d
      | none => match chooseBase (cardsFetched u i c) c with
        | some b => armed t b
        | none => held t 0x0A 0
    (s.rgs.seamWait = false → let u := folioFetched s i c
      ∃ t, exec .accessionDone s = .next t ∧ match firstFailure u i c earlyChecks with
        | some (r, d) => held t r d
        | none => if (readHeader u c.folio).span && halvesReduced u then t = { u with rgs := { u.rgs with seamWait := true } }
          else placed u t) ∧
    (s.rgs.seamWait = true → halvesReduced s = false →
      ∃ t, exec .accessionResume s = .next t ∧ placed { s with rgs := { s.rgs with seamWait := false } } t) ∧
    (s.rgs.seamWait = true → halvesReduced s = true → exec .accessionResume s = .next s)

/-- QUADRANT_PLL_LOCK starts the core clock at the first slow-clock edge from the end of the lock on, which takes 40 µs where a PLL was not
locked, and opens the bridges of a spanning job, which waits while a half is reduced; a PLL that was locked stays so (R261, R263, R441,
R442). That the lock is counted from the entry into ARMED, and that the edges lie at multiples of 40 ns, is the model's choice (log entry
68). ARMED_COMPLETE, where the copying of the cards meets no fault, loads every ACTIVE tile's image and takes a confined job into RUN:
superstep 0, status 5, the registers of the rule at 0 (R377). A spanning job: a device that completes ARMED sends READY to the root; READY
is counted at the root, or remembered until it is ARMED for that job (the model's choice, log entry 68), and with the last one GO leaves for
every device, and none before; GO takes a device that is ready into RUN in the next cycle, where superstep 0 begins; the bell timeout does
not run in ARMED (R378). -/
def Obligations.ArmedToRun : Prop :=
  (∀ (s : State) (j : Job), s.dev = .armed → s.rgs.job = some j →
    (s.rgs.arm = .pll → j.span = true → halvesReduced s = true → exec .quadrantPllLock s = .next s) ∧
    (s.rgs.arm = .pll → j.span = false ∨ halvesReduced s = false →
      ∃ t, exec .quadrantPllLock s = .next t ∧ t.clockOn = true ∧ t.clockStart = t.cycle ∧ t.rgs.arm = .ungate ∧ t.dev = .armed ∧
        t.gddr = s.gddr ∧ t.tiles = s.tiles ∧ regFld t rXNW_SEAM 2 1 = (if j.span then 1 else 0) ∧
        (let due := max s.time (s.rgs.armAt +
           (if (jobQuadrants s).all fun q => regFld s rCPW_DSTATE (3 + q) 1 == 1 then 0 else 40 * 84000))
         due ≤ t.time ∧ t.time < due + 3360 ∧ t.time % 3360 = 0 ∧ t.phase = 0 ∧ t.rgs.armAt = t.time) ∧
        ∀ q < 4, regFld t rCPW_DSTATE (7 + q) 1 = (if q ∈ jobQuadrants s then 1 else 0) ∧
          regFld t rCPW_DSTATE (3 + q) 1 = (if q ∈ jobQuadrants s then 1 else regFld s rCPW_DSTATE (3 + q) 1)) ∧
    (∀ host, s.rgs.arm = .done → jobSpans s = false → (copyCards s j host).dev = .armed →
      ∃ t, exec (.armedComplete host) s = .next t ∧ t.dev = .run ∧ superstep t = 0 ∧ t.rgs.runAt = s.cycle ∧ t.cycle = s.cycle ∧
        gddrWord t (circAddr s j.entry) = 5 ∧ GddrOutside (circAddr s j.entry) 64 s t ∧ t.cen.snaps = [] ∧
        regRaw t rRGS_EVAL = 0 ∧ regRaw t rLND_ERR = 0 ∧ regRaw t rXNW_MERGE = 0 ∧
        ((jobSites s).Nodup → ∀ n < 64 * j.groups, (s.tile (siteOf s.fuse (64 * j.base + n))).pwr = .active →
          let u := t.tile (siteOf s.fuse (64 * j.base + n))
          u.pc = fld (itemWord s j.folio 0 512 n 0) 4 17 * 16 ∧ u.halted = false ∧ u.now = s.cycle)) ∧
    exec .bellTimeout s = .next s) ∧
  (∀ (s : State) (j : Job), s.dev = .armed → s.rgs.job = some j → jobSpans s = true →
    let go := s.linkOut ++ ((s.rgs.workers.filter (· != ownWid s)) ++ [ownWid s]).map fun v =>
      ({ dest := v, src := ownWid s, vc := 10, what := "go", words := [] } : LinkMsg)
    (∀ w, bellRoot s = ownWid s → w ∈ s.rgs.workers →
      ∃ t, exec (.ready w) s = .next t ∧ t = { s with rgs := t.rgs, linkOut := t.linkOut } ∧
        t.rgs = { s.rgs with readyFrom := if w ∈ s.rgs.readyFrom then s.rgs.readyFrom else s.rgs.readyFrom ++ [w] } ∧
        ((∃ v ∈ s.rgs.workers, v ∉ t.rgs.readyFrom) → t.linkOut = s.linkOut) ∧
        ((∀ v ∈ s.rgs.workers, v ∈ t.rgs.readyFrom) → (∃ v ∈ s.rgs.workers, v ∉ s.rgs.readyFrom) → t.linkOut = go)) ∧
    (∀ host, s.rgs.arm = .done → ownWid s ∉ s.rgs.readyFrom → (copyCards s j host).dev = .armed →
      ∃ t, exec (.armedComplete host) s = .next t ∧ t.dev = .armed ∧ t.rgs.readyFrom = s.rgs.readyFrom ++ [ownWid s] ∧
        superstep t = 0 ∧
        (bellRoot s ≠ ownWid s →
          t.linkOut = s.linkOut ++ [{ dest := bellRoot s, src := ownWid s, vc := 10, what := "ready", words := [] }]) ∧
        (bellRoot s = ownWid s → (∃ v ∈ s.rgs.workers, v ∉ t.rgs.readyFrom) → t.linkOut = s.linkOut) ∧
        (bellRoot s = ownWid s → ownWid s ∈ s.rgs.workers → (∀ v ∈ s.rgs.workers, v ∈ t.rgs.readyFrom) → t.linkOut = go)) ∧
    (s.rgs.arm = .done → ownWid s ∈ s.rgs.readyFrom →
      ∃ t, exec .go s = .next t ∧ t.dev = .run ∧ t.cycle = s.cycle + 1 ∧ t.rgs.runAt = s.cycle + 1 ∧ t.rgs.sk = s.cycle + 1 ∧
        superstep t = superstep s ∧ gddrWord t (circAddr s j.entry) = 5 ∧ GddrOutside (circAddr s j.entry) 64 s t)) ∧
  (∀ (s : State) (w : Nat), s.dev ≠ .boot → s.inReset = false → w ∉ s.rgs.readyFrom →
    s.dev ≠ .armed ∨ jobSpans s = false ∨ bellRoot s ≠ ownWid s ∨ w ∉ s.rgs.workers →
    exec (.ready w) s = .next { s with rgs := { s.rgs with readyFrom := s.rgs.readyFrom ++ [w] } })

/-- DRAIN begins once every tile of the job is HALTED, status 6 (R375); it goes on while anything of the job is on its way, and then ends:
status 7, the tiles with declared residencies in RETAIN with their memory and the others OFF, the clocks stopped, and with no entry waiting
the device in SLEEP (R51, R379, R442). With an entry waiting the head of the queue goes into ACCESSION, the locked PLLs kept, or, while RGS
accepts no work, stays SUBMITTED with the device in SLEEP (R375, R379, R442, R462). -/
def Obligations.DrainRuns : Prop :=
  ∀ (s : State) (j : Job), s.rgs.job = some j →
    (s.dev = .run → (∀ x ∈ jobSites s, (s.tile x).halted = true) →
      ∃ t, exec .drainStart s = .next t ∧ t.dev = .drain ∧ gddrWord t (circAddr s j.entry) = 6 ∧
        GddrOutside (circAddr s j.entry) 4 s t ∧ t.tiles = s.tiles ∧ t.rgs.endedAt = some s.cycle) ∧
    (s.dev = .drain → drained s = false → exec .drainComplete s = .next s) ∧
    (s.dev = .drain → drained s = true → s.rgs.queue = [] → (jobSites s).Nodup →
      ∃ t, exec .drainComplete s = .next t ∧ t.dev = .sleep ∧ t.rgs.job = none ∧ t.rgs.cur = none ∧ t.clockOn = false ∧
        gddrWord t (circAddr s j.entry) = 7 ∧ regFld t (Block.rgs.page 0 * 0x1000 + oISTAT) 0 1 = 1 ∧
        ∀ n < 64 * j.groups,
          let k := 64 * j.base + n
          let x := siteOf s.fuse k
          ((s.tile x).pwr = .fenced → t.tile x = s.tile x) ∧
          ((s.tile x).pwr ≠ .fenced → (∃ r ∈ s.rgs.declared, ∃ q ∈ r.groups, q.2 = groupOf k) →
            (t.tile x).pwr = .retain ∧ (t.tile x).mem = (s.tile x).mem) ∧
          ((s.tile x).pwr ≠ .fenced → (¬ ∃ r ∈ s.rgs.declared, ∃ q ∈ r.groups, q.2 = groupOf k) →
            (t.tile x).pwr = .off ∧ (t.tile x).mem = [])) ∧
    (∀ i rest, s.dev = .drain → drained s = true → s.rgs.queue = i :: rest → i ≠ j.entry → regFld s rCPW_DSTATE 2 1 = 0 →
      ∃ t, exec .drainComplete s = .next t ∧ t.rgs.job = none ∧ t.clockOn = false ∧ gddrWord t (circAddr s j.entry) = 7 ∧
        regFld t rCPW_DSTATE 3 4 = regFld s rCPW_DSTATE 3 4 ∧ regFld t rCPW_DSTATE 7 4 = 0 ∧
        if accepts s (Block.rgs.page 0) then
          t.dev = .accession ∧ t.rgs.cur = some i ∧ t.rgs.queue = rest ∧ gddrWord t (circAddr s i) = 2
        else t.dev = .sleep ∧ t.rgs.cur = none ∧ t.rgs.queue = s.rgs.queue)

/-- JOB_FAULT: the device returns to SLEEP; every tile of the job but a fenced one is OFF and holds nothing; nothing is queued or retained;
RGS_FAULT holds reason, detail and site, RGS_FAULTK the superstep, and the entry the status 8 (R391, R398); a spanning job's other devices
and its manager, at the address that log entry 76 gives it, are sent FAULT (R392). FAULT that names the running job, or no job, from a
device of the job or a manager, faults it with REMOTE and its sender, or, where the message gives that cause, DEVICE_LOST and the lost
worker, or NO_ROUTE; one that names another job, or that comes when no job is in ARMED, RUN or DRAIN, is ignored (R347, R361, R392, R393).
That the message names the job and one of these causes is the model's choice (log entry 111). -/
def Obligations.JobFaults : Prop :=
  (∀ (s : State) (f : FaultRec) (j : Job), s.dev = .faulted → s.rgs.fault = some f → s.rgs.job = some j →
    f.reason < 256 → f.detail < 65536 → f.site < 4096 →
    ∃ t, exec .jobFault s = .next t ∧ t.dev = .sleep ∧ t.rgs.job = none ∧ t.rgs.queue = [] ∧ t.rgs.resid = [] ∧
      (∀ x ∈ jobSites s, ((t.tile x).pwr = .off ∨ (t.tile x).pwr = .fenced) ∧
        ((s.tile x).pwr ≠ .fenced → ∀ a, (t.tile x).byteAt a = 0)) ∧
      regFld t rRGS_FAULT 0 8 = f.reason ∧ regFld t rRGS_FAULT 8 8 = f.detail % 256 ∧ regFld t rRGS_FAULT 16 12 = f.site ∧
      regFld t rRGS_FAULT 31 1 = 1 ∧ regRaw t rRGS_FAULTK = BitVec.ofNat 32 f.k ∧
      gddrWord t (circAddr s j.entry) = BitVec.ofNat 32 (8 + f.reason * 2 ^ 8 + f.detail * 2 ^ 16) ∧
      (jobSpans s = true → ∀ v, (v ∈ s.rgs.workers ∧ v ≠ ownWid s) ∨ v = managerAddr s →
        ∃ m ∈ t.linkOut, m.dest = v ∧ m.src = ownWid s ∧ m.vc = 10 ∧ m.what = "fault")) ∧
  (∀ (s : State) (w : Nat) (job : Option Nat) (cause : FaultCause),
    let mine := s.dev = .armed ∨ s.dev = .run ∨ s.dev = .drain
    let named := ∀ n l m, job = some n → s.rgs.ref = some (l, m) → n = m
    (mine → w ∈ s.rgs.workers ∨ 0x4000 ≤ w → named →
      ∃ t, exec (.fault w job cause) s = .next t ∧ t.dev = .faulted ∧ t = { s with dev := t.dev, rgs := t.rgs } ∧
        ∃ f, t.rgs.fault = some f ∧ f.site = noSite ∧ (cause = .remote → f.reason = 0x17 ∧ f.detail = w) ∧
          (∀ v, cause = .deviceLost v → f.reason = 0x16 ∧ f.detail = v) ∧ (cause = .noRoute → f.reason = 0x14)) ∧
    (¬ mine ∨ ¬ named → exec (.fault w job cause) s = .next s))

/-! ### Boot, reset and power -/

/-- The five device resets: everything of the device at its reset value but the fuses, the flash, the pins and CPW_RSTCAUSE, and GDDR7,
whose bytes stay until the boot overwrites them; the clock, the waiting commands and the record of what was sent are the model's own. Every
register but CPW_RSTCAUSE reads its reset value. CAUSE names what reset the device and COUNT counts it, unless a rail was lost (R450, R451).
That a device already held in reset counts nothing, that only a power or thermal reset changes its cause, and that the watchdog does nothing
to it, is read from R455 and R482 (log entry 79). MODULE_RESET leaves MRST_N low (R480). -/
def Obligations.DeviceResets : Prop :=
  ∀ s : State,
    let clean (t : State) : Prop :=
      t = { State.reset with pending := s.pending, cycle := s.cycle, time := s.time, free := s.free, fuse := s.fuse, pins := t.pins,
                             regs := t.regs, gddr := s.gddr, ecc := s.ecc, linkOut := s.linkOut,
                             pow := { State.reset.pow with tripped := t.pow.tripped, lastTick := s.pow.lastTick },
                             host := { HostIf.reset with sent := s.host.sent },
                             keeper := { Keeper.reset with flash := s.keeper.flash } } ∧
      t.dev = .boot ∧ t.inReset = true ∧ (∀ x, t.tile x = Tile.off) ∧ t.regions = [] ∧ (∀ n, t.room n = Room.off) ∧ t.route = [] ∧
      t.chron.sec = 0 ∧ t.chron.ns = 0 ∧ (∀ o, o ≠ rCPW_RSTCAUSE → regRaw t o = regReset o) ∧
      t.pins = { s.pins with faultN := t.pins.faultN, pwrgd := t.pins.pwrgd, mrstN := t.pins.mrstN }
    let counted (t : State) (cause : Nat) : Prop :=
      (s.inReset = false → regFld t rCPW_RSTCAUSE 0 3 = cause ∧
        regFld t rCPW_RSTCAUSE 8 24 = min (regFld s rCPW_RSTCAUSE 8 24 + 1) (2 ^ 24 - 1)) ∧
      (s.inReset = true → regFld t rCPW_RSTCAUSE 8 24 = regFld s rCPW_RSTCAUSE 8 24 ∧
        regFld t rCPW_RSTCAUSE 0 3 = (if cause = 1 ∨ cause = 4 then cause else regFld s rCPW_RSTCAUSE 0 3))
    (∃ t, exec (.powerOnReset true) s = .next t ∧ clean t ∧ regRaw t rCPW_RSTCAUSE = 1) ∧
    (∃ t, exec (.powerOnReset false) s = .next t ∧ clean t ∧ counted t 1) ∧
    (∃ t, exec .moduleReset s = .next t ∧ clean t ∧ counted t 2 ∧ t.pins.mrstN = false) ∧
    (hostReaches s = true → s.dev ≠ .boot → pageSecure s (Block.cpw.page 0) = false →
      ∃ t, exec .softwareReset s = .next t ∧ clean t ∧ counted t 3) ∧
    (∃ t, exec .thermalTrip s = .next t ∧ clean t ∧ t.pins.faultN = false ∧ counted t 4) ∧
    (s.inReset = false → ∃ t, exec .watchdogReset s = .next t ∧ clean t ∧ counted t 5) ∧
    (s.inReset = true → exec .watchdogReset s = .next s)

/-- BOOT_ENTRY, which MRST_N high begins (log entry 132), samples MGR_SEL as it stands and verifies KFW, then DFW: slot A if its image passes
every check, else slot B, else the Keeper is in recovery; out of recovery the link ports that have a partner train (R8, R340, R344, R345,
R433). The part derives its DeviceID from UDS and, with an accepted KFW, CDI_KFW
from UDS and measurement 2, and locks UDS; in RMA it derives nothing (R430, R434). BOOT_COMPLETE leaves GDDR7 zero and the device in SLEEP,
or an NVH-MGR without MGR_SEL in a device hold (R8, R452); RECOVERY takes an image that passes every check into slot A of its type, and any
other image changes nothing (R433; that KFW then runs from slot A is read from it, log entry 82). -/
def Obligations.BootRuns : Prop :=
  ∀ s : State,
    (∀ sel, s.inReset = true → s.pow.tripped = false →
      let slot (itype : Nat) : Nat :=
        if imageCheck s.fuse itype (SMap.find s.keeper.flash (2 * (itype - 1))) = 0 then 1
        else if imageCheck s.fuse itype (SMap.find s.keeper.flash (2 * (itype - 1) + 1)) = 0 then 2 else 3
      ∃ t, exec (.bootEntry sel) s = .next t ∧ t.inReset = false ∧ t.mgrRole = sel ∧ t.pins = { s.pins with mgrSel := sel, mrstN := true, pwrgd := true } ∧ t.dev = s.dev ∧
        t.gddr = s.gddr ∧ t.fuse = s.fuse ∧ t.keeper.kfwSlot = slot 1 ∧ t.keeper.dfwSlot = (if slot 1 = 3 then 0 else slot 2) ∧
        (t.keeper.recovering = true ↔ slot 1 = 3 ∨ slot 2 = 3) ∧
        (t.keeper.recovering = false → ∀ p < 16, (t.port p).training = portTrains t p) ∧
        (s.keeper.udsLocked = false →
          (s.fuse.lifecycle = 2 → t.keeper.identity = none) ∧ (slot 1 ≠ 3 → t.keeper.udsLocked = true) ∧
          (s.fuse.lifecycle ≠ 2 → ∃ i, t.keeper.identity = some i ∧ i.deviceId = Config.publicKey s.fuse.uds ∧
            (slot 1 = 3 → i.cdi = none) ∧
            (slot 1 ≠ 3 → i.cdi = some (hmac384 (natBe 48 s.fuse.uds.toNat) (natBe 48 (measurement t 2).toNat)))))) ∧
    (s.dev = .boot → s.inReset = false → s.keeper.recovering = false →
      ∃ t, exec .bootComplete s = .next t ∧ t.gddr = [] ∧ t.tiles = s.tiles ∧
        (s.fuse.grade ≠ 3 ∨ s.mgrRole = true → t.dev = .sleep ∧ t.devHold = s.devHold) ∧
        (s.fuse.grade = 3 → s.mgrRole = false → t.dev = .hold ∧ t.devHold = true)) ∧
    (∀ img : Image, s.keeper.recovering = true → s.inReset = false → img.itype = 1 ∨ img.itype = 2 →
      ∃ t, exec (.recovery img) s = .next t ∧
        if imageCheck s.fuse img.itype.toNat (some img) = 0 then
          SMap.find t.keeper.flash (2 * (img.itype.toNat - 1)) = some img ∧ (img.itype = 1 → t.keeper.kfwSlot = 1) ∧
            t.gddr = s.gddr ∧ t.fuse = s.fuse
        else t = s)

/-- The host link: its loss takes MODE and the CXL enables to 0 and ends the descriptor in progress with STATUS 2; its training, with PERST_N
high, sets mode and width and HIF_ISTAT.LINK; an LND_CMD in progress ends by either, its host lines uncorrectable (R416, R482; log entry 133);
no job ends by either, shown where no re-read of a host replica is under way and no LND_CMD runs in ARMED. A function-level reset and PERST_N
low clear MSI-X and its table, the sessions, what DOE holds, Memory Space Enable and the HIF registers; the first also ends what ABORT ends.
FUNCTION_READY, with PERST_N high (log entry 132), ends the wait (R397, R400, R415, R450). -/
def Obligations.HostLink : Prop :=
  ∀ s : State,
    let fresh (t : State) : Prop := t.host.mask = [] ∧ t.host.pba = [] ∧ t.host.mse = false ∧ t.host.ready = false ∧
      t.spdm.sessions = [] ∧ t.spdm.data = [] ∧ t.spdm.data1 = [] ∧
      ∀ o, o / 0x1000 = 0x4008 ∨ o / 0x1000 = Block.hif.page 0 → regRaw t o = regReset o
    let calm := (∀ p ∈ s.host.lines, ∀ k, p.1 ≠ .replica k) ∧ (s.dev = .armed → s.lend.cmd = none)
    let ended (t : State) : Prop := t.lend.cmd = none ∧ (s.lend.cmd.isSome = true → regFld t rLND_CMD 29 2 ≠ 1)
    (s.host.mode ≠ 0 → ∃ t, exec .hostLinkDown s = .next t ∧ t.host.mode = 0 ∧ t.host.cacheEn = false ∧ t.host.memEn = false ∧
      t.host.hdm = false ∧ (calm → t.dev = s.dev) ∧ t.cycle = s.cycle ∧ ended t ∧ t.host.waiting = [] ∧ t.host.dma.busy = false ∧
      (s.host.dma.busy = true → t.host.dma.stopped = true ∧ t.host.dma.status = 2)) ∧
    (∀ m w, s.inReset = false → s.pins.perstN = true → s.host.mode = 0 → 1 ≤ m → m ≤ 5 → (w = 1 ∨ w = 2 ∨ w = 4 ∨ w = 8) →
      ∃ t, exec (.hostLinkUp m w) s = .next t ∧ t.host.mode = m ∧ t.host.width = w ∧ (calm → t.dev = s.dev) ∧ ended t ∧
        regFld t (Block.hif.page 0 * 0x1000 + oISTAT) 2 1 = 1 ∧ t.cycle = s.cycle) ∧
    (s.host.mode ≠ 0 → ∃ t, exec .functionLevelReset s = .next t ∧ fresh t ∧ t.host.mode = s.host.mode ∧
      (s.dev = .sleep → t.dev = .sleep ∧ t.gddr = s.gddr) ∧
      (s.dev = .run ∨ s.dev = .drain → t.dev = .faulted ∧ ∃ f, t.rgs.fault = some f ∧ f.reason = 0x19) ∧
      (∀ i, s.dev = .accession → s.rgs.cur = some i → t.dev = .sleep ∧ gddrWord t (circAddr s i) = 10)) ∧
    (∀ m w, s.pins.perstN = false → exec (.hostLinkUp m w) s = .next s) ∧
    (s.inReset = false →
      ∃ t, exec .perstN s = .next t ∧ fresh t ∧ t.host.mode = 0 ∧ (calm → t.dev = s.dev) ∧ t.pins = { s.pins with perstN := false }) ∧
    (s.inReset = true → exec .perstN s = .next { s with pins := { s.pins with perstN := false } }) ∧
    exec .functionReady s = .next { s with host := { s.host with ready := true }, pins := { s.pins with perstN := true } }

/-- THERMAL_TICK: at a trip threshold the device resets with cause THERMAL, and it is held in reset until every sensor reads below its
resume threshold (R449); otherwise each half's ceiling rises by one step where a sensor that acts on it has reached its throttle threshold
or the input power exceeds the cap, falls by one after ten ticks below resume, and stays at any reading between, with which the ten ticks begin
anew; the job's clock follows at the slow-clock edge after the tick, 40 ns on (R446, R447; log entry 78). THERMAL_TRIP between ticks is the
same reset (R449). D_SLEEP_ENTRY, DELAY milliseconds after the device was last busy, WAKE_TRIGGER and SELF_REFRESH_EXIT_DONE move CPW_DSTATE
as R445 says. -/
def Obligations.ThermalAndSleep : Prop :=
  (∀ (s : State) (r : Readings),
    (∃ t, exec .thermalTrip s = .next t ∧ t.inReset = true ∧ t.pins.faultN = false ∧ t.pow.tripped = true ∧
      regFld t rCPW_RSTCAUSE 0 3 = 4) ∧
    ((∃ p ∈ allReadings r, p.2.trip ≤ p.1) →
      ∃ t, exec (.thermalTick r) s = .next t ∧ t.inReset = true ∧ t.pins.faultN = false ∧ t.pow.tripped = true ∧
        regFld t rCPW_RSTCAUSE 0 3 = 4) ∧
    ((∀ p ∈ allReadings r, p.1 < p.2.trip) → s.inReset = true → s.pow.tripped = true →
      (∃ t, exec (.thermalTick r) s = .next t ∧ t.inReset = true ∧ (t.pow.tripped = false ↔ ∀ p ∈ allReadings r, p.1 < p.2.resume)) ∧
      ∀ sel, exec (.bootEntry sel) s = .next s) ∧
    ((∀ p ∈ allReadings r, p.1 < p.2.trip) → s.inReset = false →
      ∃ t, exec (.thermalTick r) s = .next t ∧ t.inReset = false ∧ t.dev = s.dev ∧ t.gddr = s.gddr ∧ t.tiles = s.tiles ∧
        ((∃ p ∈ actingOn r false, p.2.throttle ≤ p.1) ∨ regFld s rCPW_PCAP 0 12 < r.power →
          regFld t rCPW_FREQ 3 3 = min (regFld s rCPW_FREQ 3 3 + 1) 4) ∧
        ((∃ p ∈ actingOn r true, p.2.throttle ≤ p.1) ∨ regFld s rCPW_PCAP 0 12 < r.power →
          regFld t rCPW_FREQ 9 3 = min (regFld s rCPW_FREQ 9 3 + 1) 4) ∧
        ((∀ p ∈ actingOn r false, p.1 < p.2.throttle) → r.power ≤ regFld s rCPW_PCAP 0 12 →
          (∃ p ∈ actingOn r false, p.2.resume ≤ p.1) ∨ 95 * regFld s rCPW_PCAP 0 12 ≤ 100 * r.power →
          regFld t rCPW_FREQ 3 3 = regFld s rCPW_FREQ 3 3 ∧ t.pow.wBelow = 0) ∧
        ((∀ p ∈ actingOn r true, p.1 < p.2.throttle) → r.power ≤ regFld s rCPW_PCAP 0 12 →
          (∃ p ∈ actingOn r true, p.2.resume ≤ p.1) ∨ 95 * regFld s rCPW_PCAP 0 12 ≤ 100 * r.power →
          regFld t rCPW_FREQ 9 3 = regFld s rCPW_FREQ 9 3 ∧ t.pow.eBelow = 0) ∧
        (regFld t rCPW_FREQ 3 3 ≠ regFld s rCPW_FREQ 3 3 ∨ regFld t rCPW_FREQ 9 3 ≠ regFld s rCPW_FREQ 9 3 →
          t.pow.edge = t.time + 3360 ∧ jobStep t = stepUnder s (regFld s rCPW_FREQ 3 3) (regFld s rCPW_FREQ 9 3)) ∧
        ((∀ p ∈ actingOn r false, p.1 < p.2.throttle ∧ p.1 < p.2.resume) → 100 * r.power < 95 * regFld s rCPW_PCAP 0 12 →
          regFld t rCPW_FREQ 3 3 = (if 9 ≤ s.pow.wBelow then regFld s rCPW_FREQ 3 3 - 1 else regFld s rCPW_FREQ 3 3)) ∧
        ((∀ p ∈ actingOn r true, p.1 < p.2.throttle ∧ p.1 < p.2.resume) → 100 * r.power < 95 * regFld s rCPW_PCAP 0 12 →
          regFld t rCPW_FREQ 9 3 = (if 9 ≤ s.pow.eBelow then regFld s rCPW_FREQ 9 3 - 1 else regFld s rCPW_FREQ 9 3)))) ∧
  (∀ s : State, (mayDSleep s = true → ∃ t, exec .dSleepEntry s = .next t ∧ regFld t rCPW_DSTATE 0 2 = 0 ∧ OnlyRegs s t ∧
      t.time = max s.time (s.pow.busyAt + regFld s rCPW_IDLE 0 8 * 84000000)) ∧
    (mayDSleep s = false → exec .dSleepEntry s = .next s) ∧
    (regFld s rCPW_DSTATE 0 2 = 0 →
      ∃ t, exec .wakeTrigger s = .next t ∧ regFld t rCPW_DSTATE 0 2 = 1 ∧ regFld t rCPW_DSTATE 2 1 = 1 ∧
        t = { s with regs := t.regs, pow := { s.pow with busyAt := s.time } }) ∧
    (regFld s rCPW_DSTATE 0 2 ≠ 0 → exec .wakeTrigger s = .next { s with pow := { s.pow with busyAt := s.time } }) ∧
    (regFld s rCPW_DSTATE 2 1 = 0 → exec .selfRefreshExitDone s = .next s) ∧
    (regFld s rCPW_DSTATE 2 1 = 1 → s.host.waiting = [] → s.keeper.running = none →
      ∃ t, exec .selfRefreshExitDone s = .next t ∧ regFld t rCPW_DSTATE 2 1 = 0 ∧
        regFld t rCPW_DSTATE 0 2 = regFld s rCPW_DSTATE 0 2 ∧ OnlyRegs s t) ∧
    (∀ a n, regFld s rCPW_DSTATE 2 1 = 1 → regFld s rCPW_DSTATE 0 2 ≠ 0 → s.host.waiting = [.read a n] → s.keeper.running = none →
      tierOpen (setFld s rCPW_DSTATE 2 1 0) a n = true →
      ∃ t, exec .selfRefreshExitDone s = .next t ∧ regFld t rCPW_DSTATE 2 1 = 0 ∧ t.host.waiting = [] ∧ t.host.data.length = n ∧
        t.gddr = s.gddr ∧ t.dev = s.dev ∧ t.tiles = s.tiles))

/-! ### Register pages -/

/-- ISTAT_W1C clears the bits written 1, IEN_WRITE takes the assigned bits, IFORCE sets ISTAT bits as though their events had occurred; a
1 in a reserved bit is unpredictable: the registers of that page take free values, and the job may fault (R12; log entry 12). Each vector
of the page whose condition is then true sends its message, or sets its PBA bit while it is masked (R412, R413). The page's SEAL is cleared
(R465). Nothing but register words and that interrupt state changes. -/
def Obligations.InterruptRegisters : Prop :=
  ∀ (s : State) (a : Actor) (page : Nat) (b : Block) (n : Nat) (w : Word), PageOpen s a page b n →
    let istat := page * 0x1000 + oISTAT
    let ien := page * 0x1000 + oIEN
    let m := istatBits b n
    let unsealed (t : State) : Prop := regRaw t (page * 0x1000 + oSEAL) = 0
    let free (i : Instr) : Prop := ∃ t, exec i s = .next t ∧
      t = { s with regs := t.regs, host := t.host, dev := t.dev, rgs := t.rgs, free := s.free + 2 } ∧
      (t.dev = s.dev ∨ t.dev = .faulted) ∧ ∀ r, r / 0x1000 ≠ page → regRaw t r = regRaw s r
    let told (t : State) (fresh : Bool) : Prop := ∀ v ∈ pageVectors page, vectorCond t v = true →
      (fresh = true → SMap.get false s.host.cond v = false) →
      (SMap.get true s.host.mask v = false → s.host.mode ≠ 0 → v ∈ t.host.sent.drop s.host.sent.length) ∧
      (SMap.get true s.host.mask v = true → SMap.get false t.host.pba v = true)
    (reservedSet (headerFields b n oISTAT) w = false →
      ∃ t, exec (.istatW1c a page w) s = .next t ∧ OnlyRegs s t ∧ told t false ∧ unsealed t ∧
        ∀ i < 32, (regRaw t istat).getLsbD i = ((regRaw s istat).getLsbD i && !(w.getLsbD i && m.1.testBit i))) ∧
    (reservedSet (headerFields b n oIEN) w = false →
      ∃ t, exec (.ienWrite a page w) s = .next t ∧ OnlyRegs s t ∧ told t false ∧ unsealed t ∧
        ∀ i < 32, (regRaw t ien).getLsbD i = (w.getLsbD i && (m.1.testBit i || m.2.testBit i))) ∧
    (reservedSet (headerFields b n 0x018) w = false →
      ∃ t, exec (.iforce a page w) s = .next t ∧ OnlyRegs s t ∧ told t true ∧ unsealed t ∧
        ∀ i < 32, (regRaw t istat).getLsbD i = ((regRaw s istat).getLsbD i || (w.getLsbD i && (m.1.testBit i || m.2.testBit i)))) ∧
    (reservedSet (headerFields b n oISTAT) w = true → free (.istatW1c a page w)) ∧
    (reservedSet (headerFields b n oIEN) w = true → free (.ienWrite a page w)) ∧
    (reservedSet (headerFields b n 0x018) w = true → free (.iforce a page w))

/-- CTRL: clearing EN or setting DRAIN stops the block, and in RUN faults the job with BLOCK_DISABLED and the page (R396, R397, R464); ABORT
clears EN and reads DRAINED at once, on the RGS page faulting the job with HOST_ABORT, and in ACCESSION or ARMED the current entry becomes
DISCARDED there, without a job fault (R397); setting EN or clearing DRAIN makes the block accept work, DRAINED clear, and what was held back
from a room or from the host interface is taken up; of a memory controller the rest is shown where neither host accesses nor the Keeper wait
for it; STEP loads the chronicle from the step registers (R371); a block that accepts nothing and holds no
work becomes DRAINED (R462). -/
def Obligations.BlockControl : Prop :=
  ∀ (s : State) (a : Actor) (page : Nat) (b : Block) (n : Nat), PageOpen s a page b n →
    let ctrl := page * 0x1000 + oCTRL
    let stat := page * 0x1000 + oSTAT
    let stopped (i : Instr) (was : Bool) : Prop := ∃ t, exec i s = .next t ∧ accepts t page = false ∧
      t = { s with regs := t.regs, dev := t.dev, rgs := t.rgs } ∧
      (s.dev ≠ .run ∨ was = false → t.dev = s.dev ∧ t.rgs = s.rgs) ∧
      (s.dev = .run → was = true → t.dev = .faulted ∧ ∃ f, t.rgs.fault = some f ∧ f.reason = 0x18 ∧ f.detail = page)
    let accepting (i : Instr) : Prop := ∃ t, exec i s = .next t ∧ accepts t page = true ∧ regFld t stat 0 1 = 0 ∧
      ((b = .mct → s.host.waiting = [] ∧ s.keeper.running = none) → t.dev = s.dev ∧ t.gddr = s.gddr ∧ t.tiles = s.tiles) ∧
      (accepts s page = false → (b = .rdr → (t.room n).offered = []) ∧ (b = .hif → t.host.offered = []))
    let noCopies : Prop := (∀ u ∈ (s.ctl n).reads, ∀ k i, u.owner ≠ .copy k i) ∧
      ∀ q ∈ (s.room n).banks, ∀ u ∈ q.2.accs ++ q.2.held, ∀ k i, u.owner ≠ .copy k i
    let dropped (t : State) (i : Nat) : Prop := t.dev = .sleep ∧ t.rgs.cur = none ∧ t.rgs.job = none ∧ t.rgs.fault = s.rgs.fault ∧
      gddrWord t (circAddr s i) = 10 ∧ GddrOutside (circAddr s i) 4 s t
    (stopped (.ctrlEnClear a page) (regFld s ctrl 0 1 == 1)) ∧
    (stopped (.ctrlDrainSet a page) (regFld s ctrl 1 1 == 0)) ∧
    (∃ t, exec (.ctrlAbort a page) s = .next t ∧ regFld t ctrl 0 1 = 0 ∧ regFld t stat 0 1 = 1 ∧
      (s.dev = .run → t.dev = .faulted ∧ (noCopies → ∃ f, t.rgs.fault = some f ∧ f.reason = (if b = .rgs then 0x19 else 0x18) ∧
        f.detail = (if b = .rgs then 0 else page))) ∧
      (∀ i, b = .rgs → s.rgs.cur = some i → s.dev = .accession ∨ (s.dev = .armed ∧ s.rgs.job.isSome = true) → dropped t i)) ∧
    (regFld s ctrl 1 1 = 0 → accepting (.ctrlEnSet a page)) ∧
    (regFld s ctrl 0 1 = 1 → accepting (.ctrlDrainClear a page)) ∧
    (page = Block.tim.page 0 → ∃ t, exec (.step a) s = .next t ∧ t.chron.sec = (regRaw s rTIM_STEP_SEC).toNat ∧
      t.chron.ns = regFld s rTIM_STEP_NS 0 30 ∧ regFld t rTIM_STAT 3 1 = 1 ∧ t.dev = s.dev) ∧
    (s.inReset = false → accepts s page = false → workLeft s b n = false →
      ∃ t, exec (.blockDrainComplete page) s = .next t ∧ regFld t stat 0 1 = 1 ∧ t.dev = s.dev ∧ t.tiles = s.tiles) ∧
    (accepts s page = true → exec (.blockDrainComplete page) s = .next s)

/-- A register write by its access codes: RW takes the value from either world, RWS from the secure world alone, W1C clears, RO and the
other bits keep theirs; a write of a block's register clears SEAL (R16, R382); a write of 0 to an offset that no register has does
nothing (R12). A write that R12 or R13 leaves unpredictable gives registers
of that page free values and may fault the job; no memory, tile or room and no other page's register but the log's interrupt bit changes
(R11 to R13; log entry 12), shown of CTRL where no held work waits for its block. A read gives the register's word; a read of a hole, and an
access of another size than 4 B or not aligned to it, is counted in HIF_ERR.RANGE, a read then giving 0 and a write nothing (R406, R457,
R458). The non-secure host changes nothing on a secure page but the log (R424); a TIL page without a logical tile drops
writes with no entry (R60). Reading GLB_XLOG0 takes the oldest entry from the log (R425); reading TIM_SEC latches the nanoseconds (R371). -/
def Obligations.RegisterAccess : Prop :=
  (∀ (s : State) (a : Actor) (b : Block) (n o : Nat) (w : Word), PageOpen s a (b.page n) b n → o % 4 = 0 → o < 0x1000 →
    (unpredictable s b n o w (a == .secureActor) = true →
      (o = oCTRL → (b = .mct → s.host.waiting = [] ∧ s.keeper.running = none) ∧ (b = .rdr → (s.room n).offered = [])) →
      ∃ t, exec (.registerWrite a (b.reg n o) (.word w)) s = .next t ∧
        t = { s with regs := t.regs, keeper := t.keeper, host := t.host, dev := t.dev, rgs := t.rgs, ports := t.ports, rooms := t.rooms,
                     free := s.free + 2 } ∧
        (t.dev = s.dev ∨ t.dev = .faulted) ∧ (∀ m, t.room m = s.room m) ∧
        ∀ r, r / 0x1000 ≠ b.page n → r ≠ Block.glb.reg 0 oISTAT → regRaw t r = regRaw s r) ∧
    (0x040 ≤ o → fieldsOf b n o = Fields.none → exec (.registerWrite a (b.reg n o) (.word 0)) s = .next s) ∧
    (unpredictable s b n o w (a == .secureActor) = false → 0x040 ≤ o → fieldsOf b n o ≠ Fields.none →
      (b = .glb → o ≠ 0x080) → (b = .lnd → o ≠ 0x04C) → (b = .rgs → o ≠ 0x044 ∧ o ≠ 0x054) → (b = .cpw → o ≠ 0x05C) →
      (b = .lnk → o ≠ 0x108 ∧ o ≠ 0x11C) →
      let f := blockFields b n o
      ∃ t, exec (.registerWrite a (b.reg n o) (.word w)) s = .next t ∧ t = { s with regs := t.regs, keeper := t.keeper, host := t.host } ∧
        regRaw t (b.reg n 0x020) = 0 ∧ (a = .secureActor → t.keeper = s.keeper ∧ t.host = s.host) ∧
        ∀ i < 32, (regRaw t (b.reg n o)).getLsbD i =
          (if f.w1c.testBit i then (regRaw s (b.reg n o)).getLsbD i && !w.getLsbD i
           else if f.rw.testBit i || (a == .secureActor && f.rws.testBit i) then w.getLsbD i
           else (regRaw s (b.reg n o)).getLsbD i)) ∧
    (o ≠ 0x040 ∨ b ≠ .tim → o ≠ 0x0B0 ∨ b ≠ .glb →
      exec (.registerWrite a (b.reg n o) (.read 4)) s =
        .next { s with host := { s.host with data := natLe 4 (regRead s (b.reg n o)).toNat, poison := false } }) ∧
    (exec (.registerWrite a (b.reg n 0x020) (.word w)) s = .next (setReg s (b.reg n 0x020) w))) ∧
  (∀ (s : State) (off k : Nat) (w : Word), hostReaches s = true → s.dev ≠ .boot →
    let counted (t : State) : Prop := regFld t rHIF_ERR 0 16 = min (regFld s rHIF_ERR 0 16 + 1) 65535 ∧
      regFld t (Block.hif.page 0 * 0x1000 + oISTAT) 3 1 = 1 ∧ OnlyRegs s t
    (∃ t, exec (.registerWrite .host off (.bytes k)) s = .next t ∧ counted t) ∧
    (off % 4 ≠ 0 → ∃ t, exec (.registerWrite .host off (.word w)) s = .next t ∧ counted t) ∧
    (k ≠ 4 ∨ off % 4 ≠ 0 → ∃ t, exec (.registerWrite .host off (.read k)) s = .next t ∧ counted t ∧ t.host.data = natLe k 0) ∧
    (off % 4 = 0 → inMsix off = false → pageBlock (off / 0x1000) = none →
      (∃ t, exec (.registerWrite .host off (.read 4)) s = .next t ∧ counted t ∧ t.host.data = natLe 4 0) ∧
      ∃ t, exec (.registerWrite .host off (.word w)) s = .next t ∧ counted t)) ∧
  (∀ (s : State) (b : Block) (n o : Nat) (w : Word), pageBlock (b.page n) = some (b, n) → hostReaches s = true → s.dev ≠ .boot →
    o % 4 = 0 → o < 0x1000 →
    (unusedPage s b n = true → exec (.registerWrite .host (b.reg n o) (.word w)) s = .next s) ∧
    (unusedPage s b n = false → pageSecure s (b.page n) = true →
      (∃ t, exec (.registerWrite .host (b.reg n o) (.read 4)) s = .next t ∧ t.host.data = natLe 4 0 ∧
        (keyOpen s.time s.keeper.keys (8 * (64 + b.page n * 0x1000)) = false → s.keeper.xlog.length < 16 →
          ∃ e, t.keeper.xlog = s.keeper.xlog ++ [e] ∧ e.source = 0 ∧ e.write = false ∧ e.entry = 0x3F ∧ e.addr = b.page n * 0x1000)) ∧
      ∃ t, exec (.registerWrite .host (b.reg n o) (.word w)) s = .next t ∧ t = { s with regs := t.regs, keeper := t.keeper, host := t.host } ∧
        (∀ r, r ≠ Block.glb.reg 0 oISTAT → regRaw t r = regRaw s r) ∧
        (keyOpen s.time s.keeper.keys (8 * (64 + b.page n * 0x1000)) = false → s.keeper.xlog.length < 16 →
          ∃ e, t.keeper.xlog = s.keeper.xlog ++ [e] ∧ e.source = 0 ∧ e.write = true ∧ e.entry = 0x3F ∧
            e.addr = b.page n * 0x1000))) ∧
  (∀ (s : State) (a : Actor) (e : XEnt) (rest : List XEnt), PageOpen s a 0 .glb 0 → s.keeper.xlog = e :: rest →
    e.source < 8 → e.entry < 64 → e.lost < 256 →
    ∃ t, exec (.glbXlog0Read a) s = .next t ∧ t.keeper = { s.keeper with xlog := rest } ∧ t.host.data = natLe 4 (e.word 0).toNat ∧
      (rest = [] → regFld t (Block.glb.reg 0 oISTAT) 0 1 = 0)) ∧
  (∀ (s : State) (a : Actor), PageOpen s a (Block.tim.page 0) .tim 0 →
    ∃ t, exec (.timSecRead a) s = .next t ∧ t.host.data = natLe 4 s.chron.sec ∧ t.chron = { s.chron with latched := s.chron.ns } ∧
      t = { s with host := t.host, chron := t.chron })

/-! ### The host's data paths -/

/-- BAR2 and CXL.mem: a byte written is stored where GDDR7 has it and no region entry shuts the non-secure host out, and no other byte
changes; a byte read in the secure world or beyond 1,600 GB is 0, any other is what GDDR7 holds where no controller caches the
unit and no zero view covers it; a read changes no byte of GDDR7 (R403, R406, R424). What a write leaves in the bytes that the host may not
change then, those of the current entry and of entries pending, and in RUN of the folio, the catalogue and a region that the job uses, is
unpredictable: nothing is claimed of those bytes, and the job may fault (R11, R13, R39, R277, R282, R374; log entry 38). An access that GDDR7
does not serve yet, or that a controller with EN = 0 or DRAIN = 1 refuses, waits (R396, R445, R462). -/
def Obligations.HostMemory : Prop :=
  ∀ s : State, s.dev ≠ .boot →
    let sure (b : Nat) : Prop := runConfig s b = false ∧ inEntries s (pendingEntries s) b = false ∧
      (s.dev = .run → ∀ p, regionAt s b = some p → p.2.kind ≠ 1 ∧ p.2.kind ≠ 2)
    let serves (c : GAccess → Instr) : Prop :=
      (∀ (addr : Nat) (data : List Byte), tierOpen s addr data.length = true →
        ∃ t, exec (c (.write addr data)) s = .next t ∧ t.tiles = s.tiles ∧ (t.dev = s.dev ∨ t.dev = .faulted) ∧
        ((∀ b, addr ≤ b → b < addr + data.length → sure b) → t.dev = s.dev) ∧
        ∀ b, ((addr ≤ b ∧ b < addr + data.length ∧ b < gddrEnd ∧ hostShut s true b = none) → sure b →
            t.gddr.byte b = data.getD (b - addr) 0) ∧
          (¬ (addr ≤ b ∧ b < addr + data.length ∧ b < gddrEnd ∧ hostShut s true b = none) → t.gddr.byte b = s.gddr.byte b)) ∧
      (∀ a : GAccess, tierOpen s (accessRange a).1 (accessRange a).2 = false →
        ∃ t, exec (c a) s = .next t ∧ (regFld s rCPW_DSTATE 0 2 = 0 → regFld t rCPW_DSTATE 0 3 = 5) ∧
          t = { s with regs := t.regs, pow := { s.pow with busyAt := s.time },
                       host := { s.host with waiting := s.host.waiting ++ [a] } }) ∧
      (∀ addr len : Nat, tierOpen s addr len = true →
        ∃ t, exec (c (.read addr len)) s = .next t ∧ t.dev = s.dev ∧ t.tiles = s.tiles ∧ t.gddr = s.gddr ∧
        t.host.data.length = len ∧
        ∀ i < len, (gddrEnd ≤ addr + i ∨ (hostShut s false (addr + i)).isSome = true → t.host.data.getD i 1 = 0) ∧
          (addr + i < gddrEnd → hostShut s false (addr + i) = none →
            (∀ j < len, ((s.ctl (mcOf ((addr + j) / 256))).cached ((addr + j) / 256)).isNone = true ∧
              (ledgerOf s ((addr + j) / 256)).isNone = true) →
            t.host.data.getD i 0 = s.gddr.byte (addr + i)))
    (hostReaches s = true → serves .bar2Access) ∧ (hdmOpen s = true → serves .hdmAccess)

/-- DMA: a tail restarts the engine; what the engine makes of one outside the ring or past HEAD is unpredictable, a free tail in the ring,
and the job may fault (R13, R410; log entry 12). A descriptor with a reserved bit, a misaligned address or a
bad range ends with STATUS 2, HEAD left at it and the engine stopped. A good one with DIR = 0 moves its granules, those that the region table
shuts out and those that read as uncorrectable apart, and those where a host write is unpredictable (log entry 38) not claimed; one with
DIR = 1 gives the host what GDDR7 holds, 0 where the region table shuts it out, and changes no memory; it ends with STATUS 1, or 3 where a
granule was uncorrectable, with IRQ = 1 sets DMA_DONE either way, and HEAD goes on by one around the ring (R410, R411, R424); one that a
memory controller refuses stays in progress (R462). That a misaligned address and the bits of word 6 give STATUS 2, and that DMA_DONE is
set with STATUS 3 too, is read from R410 and R411 (log entry 90). -/
def Obligations.DmaEngine : Prop :=
  (∀ (s : State) (tail : BitVec 12), hostReaches s = true → s.dev ≠ .boot → pageSecure s (Block.hif.page 0) = false →
    (tailBad s tail.toNat = true →
      ∃ t, exec (.dmaTail tail) s = .next t ∧ t.host.dma.tail = (freeWord s).toNat % dmaRing s ∧ t.host.dma.stopped = false ∧
        t = { s with regs := t.regs, host := t.host, dev := t.dev, rgs := t.rgs, pow := { s.pow with busyAt := s.time },
                     free := s.free + 2 } ∧
        (t.dev = s.dev ∨ t.dev = .faulted)) ∧
    (tailBad s tail.toNat = false →
      ∃ t, exec (.dmaTail tail) s = .next t ∧ t.host.dma.tail = tail.toNat ∧ t.host.dma.stopped = false ∧
        t = { s with regs := t.regs, host := t.host, pow := { s.pow with busyAt := s.time } })) ∧
  (∀ (s : State) (words : List Word) (data : List Byte) (poisoned : List Nat), s.host.dma.busy = true ∨ dmaMayStart s = true →
    regFld s rHIF_DMA_CFG 0 4 ≤ 12 →
    let h := regFld s rHIF_DMA_HEAD 0 12
    let n := 32 * (fld (wordAt words 1) 0 27 + 1)
    let g := (wordAt words 4).toNat + (wordAt words 5).toNat * 2 ^ 32
    let bad := ∃ k ∈ poisoned, k < n / 32
    let sure (b : Nat) : Prop := runConfig s b = false ∧ inEntries s (pendingEntries s) b = false ∧
      (s.dev = .run → ∀ p, regionAt s b = some p → p.2.kind ≠ 1 ∧ p.2.kind ≠ 2)
    (descriptorBad words = true →
      ∃ t, exec (.dmaDescriptorDone words data poisoned) s = .next t ∧ t.host.dma.status = 2 ∧ t.host.dma.stopped = true ∧
        regFld t rHIF_DMA_HEAD 0 12 = h ∧ t.gddr = s.gddr) ∧
    (descriptorBad words = false → tierOpen s g n = false → exec (.dmaDescriptorDone words data poisoned) s = .next (dmaStart s)) ∧
    (descriptorBad words = false → tierOpen s g n = true →
      ∃ t, exec (.dmaDescriptorDone words data poisoned) s = .next t ∧
        regFld t rHIF_DMA_HEAD 0 12 = (h + 1) % 2 ^ regFld s rHIF_DMA_CFG 0 4 % 4096 ∧
        (bit (wordAt words 0) 0 = true → t.gddr = s.gddr ∧ t.host.data.length = n ∧
          t.host.dma.status = (if t.host.poison then 3 else 1) ∧
          ((∀ u ∈ touchedUnits g n, unitBad s u = false) → t.host.poison = false) ∧
          (∀ u ∈ touchedUnits g n, unitBad s u = true → (s.ctl (mcOf u)).cached u = none → hostShut s false (256 * u) = none →
            t.host.poison = true) ∧
          ∀ i < n, ((hostShut s false (g + i)).isSome = true → t.host.data.getD i 1 = 0) ∧
            (hostShut s false (g + i) = none →
              (∀ j < n, ((s.ctl (mcOf ((g + j) / 256))).cached ((g + j) / 256)).isNone = true ∧ (ledgerOf s ((g + j) / 256)).isNone = true) →
              t.host.data.getD i 0 = s.gddr.byte (g + i))) ∧
        (bit (wordAt words 0) 0 = false →
          (bad → t.host.dma.status = 3) ∧ (¬ bad → t.host.dma.status = 1) ∧
          ∀ b, ((g ≤ b ∧ b < g + n ∧ hostShut s true b = none ∧ (b - g) / 32 ∉ poisoned) → sure b →
              t.gddr.byte b = data.getD (b - g) 0) ∧
            (¬ (g ≤ b ∧ b < g + n ∧ hostShut s true b = none ∧ (b - g) / 32 ∉ poisoned) → t.gddr.byte b = s.gddr.byte b)) ∧
        (bit (wordAt words 0) 1 = true → regFld t (Block.hif.page 0 * 0x1000 + oISTAT) 0 1 = 1))) ∧
  (∀ (s : State) (words : List Word) (data : List Byte) (poisoned : List Nat), s.host.dma.busy = false → dmaMayStart s = false →
    exec (.dmaDescriptorDone words data poisoned) s = .next s)

/-- PAGEIN and PAGEOUT through LND_CMD: refused with STATUS 2 in RUN and the other states but SLEEP and ARMED, while LND accepts nothing,
for a card that the catalogue does not hold and for what the card says; else STATUS 1 (R286). That the card is read, and the home accessed,
in the world of the actor that wrote the command, and that STATUS 2 follows where the region table does not let the card be read, is read
from R275 and R424 (log entry 50). LND_CMD_DONE: a card that cannot be read gives STATUS 3, a UE counted, no memory changed (R285). A PAGEIN
writes the object from the
host's copy and sets GPRESENT; a host line that does not come clean counts a HOSTUE, gives STATUS 3 and leaves GPRESENT 0. A PAGEOUT gives
the host the object and clears GPRESENT but in a ledger region; an uncorrectable granule of the home gives STATUS 3 and changes no memory
(R286, R297). -/
def Obligations.PagingCommands : Prop :=
  (∀ (s : State) (card : BitVec 19), hostReaches s = true → s.dev ≠ .boot → pageSecure s (Block.lnd.page 0) = false → s.lend.cmd = none →
    let i := card.toNat
    let readable := checkAccess s false .card (cardAddr s i) = .ok
    let taken (c : Instr) (op : Nat) : Prop := ∃ t, exec c s = .next t ∧ t.lend = { s.lend with cmd := some (op, i, false) } ∧
      regFld t rLND_CMD 29 2 = 1 ∧ t.gddr = s.gddr ∧ t.dev = s.dev
    let refused (c : Instr) : Prop := ∃ t, exec c s = .next t ∧ regFld t rLND_CMD 29 2 = 2 ∧
      t = { s with regs := t.regs, host := t.host, pow := { s.pow with busyAt := s.time } }
    let shut (c : Instr) : Prop := ∃ t, exec c s = .next t ∧ regFld t rLND_CMD 29 2 = 2 ∧ t.lend = s.lend ∧ t.gddr = s.gddr
    (lndOpen s i = true → readable → cardBad s i = true ∨ lndRefused s true i = false → taken (.pagein card) 1) ∧
    (lndOpen s i = true → readable → cardBad s i = true ∨ lndRefused s false i = false → taken (.pageout card) 2) ∧
    (lndOpen s i = false ∨ (readable ∧ cardBad s i = false ∧ lndRefused s true i = true) → refused (.pagein card)) ∧
    (lndOpen s i = false ∨ (readable ∧ cardBad s i = false ∧ lndRefused s false i = true) → refused (.pageout card)) ∧
    (¬ readable → shut (.pagein card) ∧ shut (.pageout card)) ∧
    (s.dev ≠ .sleep → s.dev ≠ .armed → lndOpen s i = false)) ∧
  (∀ (s : State) (op i : Nat) (secure : Bool) (data : List Byte), s.lend.cmd = some (op, i, secure) →
    let c := decodeCard (cardNow s i)
    let a := cardAddr s i
    tierOpen s a 64 = true → tierOpen s c.gaddr (32 * c.size) = true →
    let mayRead := checkAccess s secure .card a = .ok
    let mayMark := checkAccess s secure .gpresent a = .ok
    let clean := c.valid = true ∧ ((cachedCard s i).isSome = true ∨ (mayRead ∧ unitBad s (a / 256) = false))
    (cachedCard s i = none → mayRead → (s.ctl (mcOf (a / 256))).cached (a / 256) = none → ∀ bad,
      ∃ t, exec (.lndCmdDone data bad [] [a / 32]) s = .next t ∧ regFld t rLND_CMD 29 2 = 3 ∧ t.lend.cmd = none ∧ t.gddr = s.gddr ∧
        regFld t (rMCT_ECC (mcOf (a / 256))) 16 16 = min (regFld s (rMCT_ECC (mcOf (a / 256))) 16 16 + 1) 65535) ∧
    (s.host.mode ≠ 0 → clean → mayMark → op = 1 → data.length = 32 * c.size → homeShut s secure true c = none →
      ∃ t, exec (.lndCmdDone data [] [] []) s = .next t ∧ regFld t rLND_CMD 29 2 = 0 ∧ t.lend.cmd = none ∧
        bit (gddrWord t a) 2 = true ∧
        ∀ b, (b < a ∨ a + 32 ≤ b) →
          ((c.gaddr ≤ b ∧ b < c.gaddr + data.length) → t.gddr.byte b = data.getD (b - c.gaddr) 0) ∧
          (¬ (c.gaddr ≤ b ∧ b < c.gaddr + data.length) → t.gddr.byte b = s.gddr.byte b)) ∧
    (∀ k, s.host.mode ≠ 0 → clean → mayMark → op = 1 → k < (lineSpan c.haddr (32 * c.size)).2 →
      ∃ t, exec (.lndCmdDone data [k] [] []) s = .next t ∧ regFld t rLND_CMD 29 2 = 3 ∧ t.lend.cmd = none ∧
        bit (gddrWord t a) 2 = false ∧ regFld t rHIF_HOSTUE 0 32 = min (regFld s rHIF_HOSTUE 0 32 + 1) (2 ^ 32 - 1)) ∧
    (s.host.mode ≠ 0 → clean → op = 2 → homeShut s secure false c = none →
      ((∀ u ∈ touchedUnits c.gaddr (32 * c.size), unitBad s u = false) → mayMark →
        ∃ t, exec (.lndCmdDone data [] [] []) s = .next t ∧ regFld t rLND_CMD 29 2 = 0 ∧ t.lend.cmd = none ∧
          t.host.data = tierRead s c.gaddr (32 * c.size) ∧ GddrOutside a 32 s t ∧
          (∀ p, regionAt s c.gaddr = some p → p.2.kind = 2 → t.gddr = s.gddr) ∧
          (∀ p, regionAt s c.gaddr = some p → p.2.kind ≠ 2 → bit (gddrWord t a) 2 = false)) ∧
      (0 < c.size → (s.ctl (mcOf (c.gaddr / 256))).cached (c.gaddr / 256) = none →
        ∃ t, exec (.lndCmdDone data [] [] [c.gaddr / 32]) s = .next t ∧ regFld t rLND_CMD 29 2 = 3 ∧ t.lend.cmd = none ∧
          t.gddr = s.gddr)))

/-- VECTOR_UNMASK sends a pending message (R413). CONFIGURATION_REQUEST ends in retry status until KFW serves and the function is ready; it reads
device ID, revision ID and class code (R404; their bytes in the order of log entry 94), a BAR's size and attributes (R405; in the coding of
log entry 134), sets Memory Space Enable, and in the CXL modes alone the two CXL enables
(R400, R415, R453); HDM_DECODER_COMMIT opens the HDM range in those modes (R403, R417). -/
def Obligations.ConfigurationSpace : Prop :=
  ∀ s : State,
    (∀ v : Nat, hostReaches s = true →
      ∃ t, exec (.vectorUnmask v) s = .next t ∧ SMap.get true t.host.mask v = false ∧ SMap.get false t.host.pba v = false ∧
        t.host.sent = (if SMap.get false s.host.pba v then s.host.sent ++ [v] else s.host.sent) ∧ t = { s with host := t.host }) ∧
    (∀ r : CfgRequest, s.host.mode ≠ 0 → (kfwServes s = false ∨ s.host.ready = false) →
      exec (.configurationRequest r) s = .next { s with host := { s.host with cfgRetry := true } }) ∧
    (∀ on : Bool, s.host.mode ≠ 0 → kfwServes s = true → s.host.ready = true →
      let cxl := s.host.mode ≤ 3
      let answers (r : CfgRequest) (h : HostIf) : Prop :=
        exec (.configurationRequest r) s = .next { s with host := { h with cfgRetry := false } }
      answers .read { s.host with data := functionId s.fuse, poison := false } ∧
      (s.fuse.grade = 0 → s.fuse.b0 = false → functionId s.fuse = [0x20, 0x4E, 0xA0, 0x00, 0x00, 0x12]) ∧
      (s.fuse.grade = 3 → s.fuse.b0 = true → functionId s.fuse = [0x2F, 0x4E, 0xB0, 0x00, 0x00, 0x12]) ∧
      (∀ n, answers (.bar n) { s.host with data := barWord n, poison := false }) ∧
      barWord 0 = natLe 8 (2 ^ 64 - 2 ^ 27 + 4) ∧ barWord 2 = natLe 8 (2 ^ 64 - 2 ^ 41 + 12) ∧ barWord 4 = natLe 8 (2 ^ 64 - 2 ^ 12 + 4) ∧
      answers (.memorySpace on) { s.host with mse := on } ∧
      (cxl → answers (.cacheEnable on) { s.host with cacheEn := on } ∧ answers (.memEnable on) { s.host with memEn := on }) ∧
      (¬ cxl → answers (.cacheEnable on) s.host ∧ answers (.memEnable on) s.host) ∧
      (cxl → exec .hdmDecoderCommit s = .next { s with host := { s.host with hdm := true } }) ∧
      (¬ cxl → exec .hdmDecoderCommit s = .next s)) ∧
    (∀ r : CfgRequest, s.host.mode = 0 → exec (.configurationRequest r) s = .next s ∧ exec .hdmDecoderCommit s = .next s)

/-! ### The Keeper -/

/-- Region commands of the secure host: LOCKED during a job, INVALID where an argument is malformed, as an overlap with another entry in
use is; a change that takes nothing out of the secure world is made at once, any other starts the scrub; REGION_READ returns the
entry (R274, R422, R423, R427, R483). From the non-secure host a change of a secure entry is DENIED and changes nothing. SCRUB_COMPLETE:
every granule that leaves the secure world is 0, no other byte changes, the entry is as the command gives it (R423). ADOPT_COMPLETE: the
entry joins the secure world if the SHA-384 of its first bytes is the digest of the arguments, else the command ends in MISMATCH with the
table unchanged (R427, R429), as it does where the bytes cannot all be read (the model's choice, log entry 128). That the table changes only
at the end of the scrub, and that REGION_CLEAR leaves zeros, is read from R423 (log entry 91). -/
def Obligations.ScrubAdoptRegions : Prop :=
  (∀ (s : State) (args : List Word), secureHost s = true → s.inReset = false → s.keeper.running = none → s.keeper.waiting = [] →
    let n := (wordAt args 0).toNat
    let job := s.dev = .armed ∨ s.dev = .run ∨ s.dev = .drain
    let cmd (k : Nat) : KCmd := { src := .secure, code := k, args := args }
    let ends (i : Instr) (st : Nat) (m : SMap Region) : Prop := ∃ t, exec i s = .next t ∧ t.keeper.secStatus = st ∧ t.regions = m ∧
      t.keeper.running = none ∧ t.gddr = s.gddr ∧ t.fuse = s.fuse
    let starts (i : Instr) (k : Nat) (e : Option Nat) (parts : List (Nat × Nat)) : Prop := ∃ t, exec i s = .next t ∧
      t.keeper.secStatus = 1 ∧ t.regions = s.regions ∧ t.keeper.running = some (cmd k) ∧ t.keeper.adopting = (e.or s.keeper.adopting) ∧
      t.keeper.scrub = (if e.isSome then s.keeper.scrub else parts) ∧ t.gddr = s.gddr
    let wrong (k : Nat) (o : KOp) : Prop := unassignedBits (cmd k) o = true ∨ malformed s (cmd k) o = true
    (job → ends (.regionSet .secure args) 6 s.regions ∧ ends (.regionClear .secure args) 6 s.regions ∧
      ends (.adopt .secure args) 6 s.regions) ∧
    (¬ job → wrong 1 .regionSet → ends (.regionSet .secure args) 5 s.regions) ∧
    (¬ job → wrong 2 .regionClear → ends (.regionClear .secure args) 5 s.regions) ∧
    (¬ job → wrong 16 .adopt → ends (.adopt .secure args) 5 s.regions) ∧
    (¬ job → overlapsOther s n (argRegion (cmd 1)) = true → ends (.regionSet .secure args) 5 s.regions) ∧
    (¬ job → ¬ wrong 1 .regionSet → leaving (s.region n) (argRegion (cmd 1)) = [] →
      ends (.regionSet .secure args) 2 (SMap.set Region.none s.regions n (argRegion (cmd 1)))) ∧
    (¬ job → ¬ wrong 1 .regionSet → leaving (s.region n) (argRegion (cmd 1)) ≠ [] →
      starts (.regionSet .secure args) 1 none (leaving (s.region n) (argRegion (cmd 1)))) ∧
    (¬ job → ¬ wrong 2 .regionClear → ((s.region n).kind = 0 ∨ (s.region n).secure = false) →
      ends (.regionClear .secure args) 2 (SMap.set Region.none s.regions n Region.none)) ∧
    (¬ job → ¬ wrong 2 .regionClear → (s.region n).kind ≠ 0 → (s.region n).secure = true → (s.region n).base ≤ (s.region n).last →
      starts (.regionClear .secure args) 2 none [((s.region n).base, (s.region n).last + 1)]) ∧
    (¬ job → ¬ wrong 16 .adopt → starts (.adopt .secure args) 16 (some n) []) ∧
    (¬ wrong 3 .regionRead →
      ∃ t, exec (.regionRead .secure args) s = .next t ∧ t.keeper.secStatus = 2 ∧ t.regions = s.regions ∧ t.gddr = s.gddr ∧
        t.keeper.secResult = [BitVec.ofNat 32 n, BitVec.ofNat 32 (s.region n).base, BitVec.ofNat 32 (s.region n).last,
          BitVec.ofNat 32 ((s.region n).kind + if (s.region n).secure then 256 else 0)])) ∧
  (∀ (s : State) (args : List Word), hostReaches s = true → pageSecure s 0 = false → s.inReset = false → s.keeper.running = none →
    s.keeper.waiting = [] → 0 < args.length →
    let n := (wordAt args 0).toNat
    (s.region n).secure = true →
    ∀ i, i = Instr.regionSet .mailbox args ∨ i = Instr.regionClear .mailbox args →
      ∃ t, exec i s = .next t ∧ regFld t rGLB_KSTAT 0 3 = 3 ∧ t.regions = s.regions ∧ t.gddr = s.gddr ∧ t.fuse = s.fuse) ∧
  (∀ (s : State) (c : KCmd), s.keeper.running = some c → s.keeper.waiting = [] → c.src = .secure →
     let n := (wordAt c.args 0).toNat
     (s.keeper.adopting = none → (∀ m < 10, accepts s (Block.mct.page m) = true) → gddrAwake s = true → s.keeper.scrub ≠ [] →
       ∃ t, exec .scrubComplete s = .next t ∧ t.keeper.running = none ∧ t.keeper.secStatus = 2 ∧
         t.regions = SMap.set Region.none s.regions n (newRegion c) ∧
         ∀ b, ((∃ p ∈ s.keeper.scrub, p.1 * 0x1000000 ≤ b ∧ b < p.2 * 0x1000000) → t.gddr.byte b = 0) ∧
           ((∀ p ∈ s.keeper.scrub, b < p.1 * 0x1000000 ∨ p.2 * 0x1000000 ≤ b) → t.gddr.byte b = s.gddr.byte b)) ∧
     (s.keeper.adopting = some n → (∀ m < 10, accepts s (Block.mct.page m) = true) → gddrAwake s = true →
       let r := s.region n
       let us := touchedUnits (r.base * 0x1000000) (256 * (wordAt c.args 1).toNat)
       ((∃ u ∈ us, unitBad s u = true ∧ (s.ctl (mcOf u)).cached u = none) →
         ∃ t, exec .adoptComplete s = .next t ∧ t.keeper.running = none ∧ t.keeper.adopting = none ∧ t.gddr = s.gddr ∧
           t.regions = s.regions ∧ t.keeper.secStatus = 4) ∧
       ((∀ u ∈ us, unitBad s u = false) →
       let data := s.gddr.read (r.base * 0x1000000) (256 * (wordAt c.args 1).toNat)
       ∃ t, exec .adoptComplete s = .next t ∧ t.keeper.running = none ∧ t.keeper.adopting = none ∧ t.gddr = s.gddr ∧
         t.regions = (if sha384 data = argDigest c 2 then SMap.set Region.none s.regions n { r with secure := true } else s.regions) ∧
         t.keeper.secStatus = (if sha384 data = argDigest c 2 then 2 else 4))))

/-- The other commands of the secure host, DONE: SET_DIGEST holds the digest of an entry; SEC_WRITE writes its bytes and no other, and is BUSY
while a memory controller refuses it (R396, R462);
PAGE_WORLD sets WORLD and LOCK of an unlocked page, unless it is the tile page of a site without a logical tile (R60); MGR_TRUST names the
manager, or none; COMMIT_SVN raises the minimum SVN to the running image's and REVOKE blows one bit, and no fuse ever falls (R420, R427,
R428, R430, R433, R483). From the mailbox each is DENIED. Over VC 11 a command of the trusted manager is carried out, here SET_DIGEST, and
its answer goes back; one of a manager that is not trusted is answered DENIED and changes nothing (R428). That words missing from a block read
0, that PAGE_WORLD of a locked page is DONE without a change, and that the SVN stops at 64, is read from R427 and R430 (log entry 93). -/
def Obligations.KeeperCommands : Prop :=
  (∀ (s : State) (args : List Word), secureHost s = true → s.inReset = false → s.keeper.running = none → s.keeper.waiting = [] →
    let n := (wordAt args 0).toNat
    let cmd (k : Nat) : KCmd := { src := .secure, code := k, args := args }
    let right (k : Nat) (o : KOp) : Prop := unassignedBits (cmd k) o = false ∧ malformed s (cmd k) o = false
    let done (i : Instr) (t : State) : Prop := exec i s = .next t ∧ t.keeper.secStatus = 2 ∧ t.regions = s.regions
    (right 0x11 .setDigest →
      ∃ t, done (.setDigest .secure args) t ∧ SMap.find t.keeper.digests n = some (argDigest (cmd 0x11) 1) ∧ t.gddr = s.gddr ∧
        t.fuse = s.fuse) ∧
    (right 0x12 .secWrite →
      let a := argAddr (cmd 0x12)
      let len := fld (wordAt args 2) 0 11
      (tierOpen s a len = true →
        ∃ t, done (.secWrite .secure args) t ∧ t.fuse = s.fuse ∧ GddrOutside a len s t ∧
          ∀ k < len / 4, gddrWord t (a + 4 * k) = wordAt args (3 + k)) ∧
      (tierOpen s a len = false →
        ∃ t, exec (.secWrite .secure args) s = .next t ∧ t.keeper.secStatus = 1 ∧ t.keeper.running = some (cmd 0x12) ∧
          t.regions = s.regions ∧ t.fuse = s.fuse ∧ t.gddr = s.gddr)) ∧
    (right 0x13 .pageWorld →
      let off := n / 0x1000 * 0x1000 + 0x008
      ∃ t, done (.pageWorld .secure args) t ∧ t.gddr = s.gddr ∧ t.fuse = s.fuse ∧
        (regFld s off 1 1 = 0 → unusedAt s (n / 0x1000) = false → regFld t off 0 2 = fld (wordAt args 1) 0 2) ∧
        (regFld s off 1 1 = 1 ∨ unusedAt s (n / 0x1000) = true → regRaw t off = regRaw s off)) ∧
    (right 0x14 .mgrTrust →
      ∃ t, done (.mgrTrust .secure args) t ∧ t.keeper.trusted = (if n = 255 then none else some n) ∧ t.gddr = s.gddr ∧ t.fuse = s.fuse) ∧
    (right 0x20 .commitSvn →
      ∃ t, done (.commitSvn .secure args) t ∧ t.gddr = s.gddr ∧
        (n = 1 → t.fuse = { s.fuse with svnKfw := max s.fuse.svnKfw (min (runningSvn s 1) 64) }) ∧
        (n = 2 → t.fuse = { s.fuse with svnDfw := max s.fuse.svnDfw (min (runningSvn s 2) 64) })) ∧
    (right 0x21 .revoke →
      ∃ t, done (.revoke .secure args) t ∧ t.gddr = s.gddr ∧ t.fuse = { s.fuse with revoke := t.fuse.revoke } ∧
        ∀ i < 8, t.fuse.revoke.getLsbD i = (s.fuse.revoke.getLsbD i || i == 4 * (n % 2) + fld (wordAt args 1) 0 2))) ∧
  (∀ (s : State) (args : List Word), hostReaches s = true → pageSecure s 0 = false → s.inReset = false → s.keeper.running = none →
    s.keeper.waiting = [] →
    ∀ i, i = Instr.setDigest .mailbox args ∨ i = Instr.secWrite .mailbox args ∨ i = Instr.pageWorld .mailbox args ∨
        i = Instr.mgrTrust .mailbox args ∨ i = Instr.commitSvn .mailbox args ∨ i = Instr.revoke .mailbox args ∨
        i = Instr.adopt .mailbox args →
      ∃ t, exec i s = .next t ∧ regFld t rGLB_KSTAT 0 3 = 3 ∧ t.regions = s.regions ∧ t.gddr = s.gddr ∧ t.fuse = s.fuse ∧
        t.keeper.trusted = s.keeper.trusted ∧ t.keeper.digests = s.keeper.digests) ∧
  (∀ (s : State) (m : Nat) (args : List Word), s.inReset = false → s.keeper.running = none → s.keeper.waiting = [] →
    managerTrusted s m = true →
    let c : KCmd := { src := .vc11 m, code := 0x11, args := args }
    unassignedBits c .setDigest = false → malformed s c .setDigest = false →
    ∃ t, exec (.keeperCommandVc11 m 0x11#8 args) s = .next t ∧ t.regions = s.regions ∧ t.gddr = s.gddr ∧ t.fuse = s.fuse ∧
      SMap.find t.keeper.digests (wordAt args 0).toNat = some (argDigest c 1) ∧ t.keeper.trusted = s.keeper.trusted ∧
      t.linkOut = s.linkOut ++
        [{ dest := 0x4000 + m, src := ownWid s, vc := 11, what := "keeperResult", words := [2] }]) ∧
  (∀ (s : State) (m : Nat) (code : BitVec 8) (args : List Word), s.inReset = false → s.keeper.running = none → s.keeper.waiting = [] →
    (kop code.toNat).isSome = true → managerTrusted s m = false →
    ∃ t, exec (.keeperCommandVc11 m code args) s = .next t ∧ t.regions = s.regions ∧ t.gddr = s.gddr ∧ t.fuse = s.fuse ∧
      t.keeper.trusted = s.keeper.trusted ∧ t.keeper.digests = s.keeper.digests ∧
      t.linkOut = s.linkOut ++
        [{ dest := 0x4000 + m, src := ownWid s, vc := 11, what := "keeperResult", words := [3] }])

/-! ### SPDM and DOE -/

/-- SPDM on DOE0: the negotiation goes version, capabilities, algorithms, and each request ahead of what it needs is an error, as
every request in RMA is (R430, R435); slot 0 of GET_CERTIFICATE holds the chain down to the Alias certificate, other slots nothing;
CHALLENGE_AUTH and signed MEASUREMENTS carry a signature by the Alias key and are errors where no Alias key was derived (R434, R435);
GET_MEASUREMENTS answers the 48 bytes of each block it asks for (R436); DISCOVERY, the CXL table, on the instance of its own, and DOE ABORT
(R403, R414). An instance that still works on a request takes no other. The contents that the spec does not spell are free values, and the
order of the negotiation is the SPDM standard's (log entry 15). -/
def Obligations.SpdmRequests : Prop :=
  (∀ s : State, s.spdm.flight = true →
    exec .getVersion s = .next s ∧ exec .getDigests s = .next s ∧ exec (.discovery 0) s = .next s ∧ ∀ x, exec (.keyExchange x) s = .next s) ∧
  ∀ s : State, doeServes s 0 = true →
    (∃ t, exec (.doeAbort 0) s = .next t ∧ SMap.get false t.spdm.doeBusy 0 = false ∧ t.spdm.resp = "" ∧ t.spdm.data = [] ∧
      t.spdm.flight = false ∧ t.spdm.data1 = s.spdm.data1 ∧ t = { s with spdm := t.spdm }) ∧
    (s.host.mode ≤ 3 → s.dev ≠ .boot →
      (∃ t, exec .cxlTableAccess s = .next t ∧ t.spdm.resp1 = "CDAT" ∧ t.spdm.resp = s.spdm.resp ∧ t.spdm.data = s.spdm.data ∧
        t.spdm.flight = s.spdm.flight ∧ t = { s with spdm := t.spdm, host := t.host }) ∧
      (∃ t, exec (.doeAbort 1) s = .next t ∧ SMap.get false t.spdm.doeBusy 1 = false ∧ t.spdm.data1 = [] ∧ t.spdm.data = s.spdm.data ∧
        t.spdm.flight = s.spdm.flight ∧ t = { s with spdm := t.spdm })) ∧
    (s.spdm.flight = false →
    let answers (i : Instr) (resp : String) : Prop := ∃ t, exec i s = .next t ∧ t.spdm.resp = resp ∧ t.spdm.sessions = s.spdm.sessions ∧
      SMap.get false t.spdm.doeBusy 0 = true ∧ SMap.get false t.spdm.doeBusy 1 = SMap.get false s.spdm.doeBusy 1 ∧
      t.spdm.resp1 = s.spdm.resp1 ∧ t.spdm.data1 = s.spdm.data1 ∧ t = { s with spdm := t.spdm, host := t.host }
    let ok := s.fuse.lifecycle ≠ 2
    let aliasKey := s.keeper.identity.bind (·.cdi)
    let answersData (i : Instr) (resp : String) (data : List Byte) : Prop := answers i resp ∧ ∃ t, exec i s = .next t ∧ t.spdm.data = data
    (ok → ∃ t, exec .getVersion s = .next t ∧ t.spdm.resp = "VERSION 1.3" ∧ t.spdm.version = true ∧ t.spdm.caps = false ∧
      t.spdm.algs = false ∧ t = { s with spdm := t.spdm, host := t.host }) ∧
    (ok → s.spdm.version = true → ∃ t, exec .getCapabilities s = .next t ∧ t.spdm.resp = "CAPABILITIES" ∧ t.spdm.caps = true ∧
      t = { s with spdm := t.spdm, host := t.host }) ∧
    (ok → s.spdm.caps = true → ∃ t, exec .negotiateAlgorithms s = .next t ∧ t.spdm.algs = true ∧
      t = { s with spdm := t.spdm, host := t.host }) ∧
    (ok → s.spdm.algs = true →
      answers .getDigests "DIGESTS" ∧
      (∀ off len, answersData (.getCertificate 0 off len) "CERTIFICATE" (((certificateChain s).drop off).take len)) ∧
      (∀ sl off len, sl ≠ 0 → answersData (.getCertificate sl off len) "CERTIFICATE" []) ∧
      (∀ sl nonce, sl ≠ 0 → answers (.challenge sl nonce) "ERROR") ∧
      (∀ cdi, aliasKey = some cdi →
        (∀ nonce, ∃ body, answersData (.challenge 0 nonce) "CHALLENGE_AUTH" (body ++ Config.sign cdi body)) ∧
        ∀ i, i ≤ 7 ∨ i = 0xFF → ∃ rest, let body := measurementData s i ++ rest
          answersData (.getMeasurements i true) "MEASUREMENTS" (body ++ Config.sign cdi body)) ∧
      (aliasKey = none → (∀ nonce, answers (.challenge 0 nonce) "ERROR") ∧ ∀ i, answers (.getMeasurements i true) "ERROR") ∧
      answersData (.getMeasurements 0xFF false) "MEASUREMENTS"
        ((List.range 7).flatMap fun i => natBe 48 (measurement s (i + 1)).toNat) ∧
      (∀ i, 1 ≤ i → i ≤ 7 → answersData (.getMeasurements i false) "MEASUREMENTS" (natBe 48 (measurement s i).toNat))) ∧
    (¬ ok → answers .getVersion "ERROR" ∧ answers .getCapabilities "ERROR" ∧ answers .negotiateAlgorithms "ERROR" ∧ answers .getDigests "ERROR") ∧
    (s.spdm.version = false → answers .getCapabilities "ERROR") ∧ (s.spdm.caps = false → answers .negotiateAlgorithms "ERROR") ∧
    (s.spdm.algs = false → answers .getDigests "ERROR" ∧ (∀ sl off len, answers (.getCertificate sl off len) "ERROR") ∧
      (∀ sl nonce, answers (.challenge sl nonce) "ERROR") ∧ ∀ i sg, answers (.getMeasurements i sg) "ERROR") ∧
    answers (.discovery 0) "DISCOVERY, CMA/SPDM, SECURED CMA/SPDM")

/-- Sessions: KEY_EXCHANGE, whose answer the Alias key signs, opens one of at most two, a third is Busy; FINISH completes it where its verify
data is right and ends it where not; the other requests run in a complete session: KEY_UPDATE, END_SESSION, the heartbeat and its timeout, and
the vendor-defined request, which carries a Keeper command of the secure host and is answered with its status once the command has ended, here
with that of a scrub (R426, R435). That a request without its session is ERROR, and a third session ERROR BUSY, is the model's reading (log
entry 15). -/
def Obligations.SpdmSessions : Prop :=
  (∀ (s : State) (c : KCmd), s.keeper.running = some c → c.src = .secure → c.viaDoe = true → s.spdm.flight = true → s.keeper.waiting = [] →
    s.keeper.adopting = none → s.keeper.scrub ≠ [] → gddrAwake s = true → (∀ m < 10, accepts s (Block.mct.page m) = true) →
    ∃ t, exec .scrubComplete s = .next t ∧ t.spdm.resp = "VENDOR_DEFINED_RESPONSE" ∧ t.spdm.data = natLe 4 2 ∧ t.spdm.flight = false ∧
      t.spdm.sessions = s.spdm.sessions) ∧
  ∀ s : State, doeServes s 0 = true → s.fuse.lifecycle ≠ 2 → s.spdm.flight = false →
    (∀ x : List Byte, s.spdm.algs = true → x.length ≤ 65536 →
      (∀ cdi, s.keeper.identity.bind (·.cdi) = some cdi → s.spdm.sessions.length < 2 →
        ∃ t body, exec (.keyExchange x) s = .next t ∧ t.spdm.resp = "KEY_EXCHANGE_RSP" ∧ t.spdm.data = body ++ Config.sign cdi body ∧
          t.spdm.sessions = s.spdm.sessions ++ [{ id := s.spdm.nextId, established := false, keys := 0 }] ∧
          t = { s with spdm := t.spdm, host := t.host }) ∧
      (2 ≤ s.spdm.sessions.length →
        ∃ t, exec (.keyExchange x) s = .next t ∧ t.spdm.resp = "ERROR BUSY" ∧ t.spdm.sessions = s.spdm.sessions ∧
          t = { s with spdm := t.spdm, host := t.host })) ∧
    (∀ (n : Nat) (v : List Byte), s.spdm.algs = true → v.length ≤ 65536 → (∃ e ∈ s.spdm.sessions, e.id = n ∧ e.established = false) →
      ∃ t, exec (.finish n v) s = .next t ∧ t = { s with spdm := t.spdm, host := t.host } ∧
        (Config.finishVerify n v = true → t.spdm.resp = "FINISH_RSP" ∧
          t.spdm.sessions = s.spdm.sessions.map fun e => if e.id = n then { e with established := true } else e) ∧
        (Config.finishVerify n v = false → t.spdm.resp = "ERROR" ∧ ∀ e ∈ t.spdm.sessions, e.id ≠ n)) ∧
    (∀ n : Nat, ∃ t, exec (.sessionHeartbeatTimeout n) s = .next t ∧ (∀ e, e ∈ t.spdm.sessions ↔ e ∈ s.spdm.sessions ∧ e.id ≠ n) ∧
      t = { s with spdm := t.spdm }) ∧
    (∀ n : Nat, sessionOpen s n = true →
      (∃ t, exec (.spdmHeartbeat n) s = .next t ∧ t.spdm.resp = "HEARTBEAT_ACK" ∧ t.spdm.sessions = s.spdm.sessions ∧
        t = { s with spdm := t.spdm, host := t.host }) ∧
      (∃ t, exec (.keyUpdate n) s = .next t ∧ t.spdm.resp = "KEY_UPDATE_ACK" ∧ t = { s with spdm := t.spdm, host := t.host } ∧
        t.spdm.sessions = s.spdm.sessions.map fun e => if e.id = n then { e with keys := e.keys + 1 } else e) ∧
      (∃ t, exec (.endSession n) s = .next t ∧ t.spdm.resp = "END_SESSION_ACK" ∧ t = { s with spdm := t.spdm, host := t.host } ∧
        ∀ e, e ∈ t.spdm.sessions ↔ e ∈ s.spdm.sessions ∧ e.id ≠ n) ∧
      (∀ (code : BitVec 8) (args : List Word), args.length ≤ 16384 → s.inReset = false → s.keeper.running = none → s.keeper.waiting = [] →
        kop code.toNat = none → ∃ t, exec (.vendorDefinedRequest n code args) s = .next t ∧ t.spdm.resp = "VENDOR_DEFINED_RESPONSE" ∧ t.keeper.secStatus = 5 ∧
          t.spdm.data.take 4 = natLe 4 5 ∧ t.regions = s.regions ∧ t.gddr = s.gddr) ∧
      (∀ args : List Word, s.inReset = false → s.keeper.running = none → s.keeper.waiting = [] → args.length ≤ 16384 →
        unassignedBits { src := .secure, code := 0x14, args := args } .mgrTrust = false →
        malformed s { src := .secure, code := 0x14, args := args } .mgrTrust = false →
        ∃ t, exec (.vendorDefinedRequest n 0x14#8 args) s = .next t ∧ t.keeper.secStatus = 2 ∧ t.spdm.data = natLe 4 2 ∧
          t.keeper.trusted = (if (wordAt args 0).toNat = 255 then none else some (wordAt args 0).toNat))) ∧
    (∀ (n : Nat) (code : BitVec 8) (args : List Word), sessionOpen s n = true → args.length ≤ 16384 → s.inReset = false →
      s.keeper.running.isSome = true →
      ∃ t, exec (.vendorDefinedRequest n code args) s = .next t ∧ t.spdm.resp = "" ∧ t.spdm.flight = true ∧ t.keeper.secStatus = 1 ∧
        t.keeper.waiting = s.keeper.waiting ++ [{ src := .secure, code := code.toNat, args := args, viaDoe := true }] ∧ t.gddr = s.gddr) ∧
    (∀ n : Nat, sessionOpen s n = false →
      (∃ t, exec (.spdmHeartbeat n) s = .next t ∧ t.spdm.resp = "ERROR" ∧ t.spdm.sessions = s.spdm.sessions) ∧
      (∃ t, exec (.endSession n) s = .next t ∧ t.spdm.resp = "ERROR" ∧ t.spdm.sessions = s.spdm.sessions))

/-! ### Link ports and messages -/

/-- A port trains up, and knows its partner; it trains again while it is down, takes work (EN = 1, DRAIN = 0, R462) and has a partner fitted
(R340, R344, R345). A replayed flit is counted, and with 16 failed resends in a row the link goes down, trains again, and LOSS of its partner
with the port goes to the manager (R341, R360); what waits there of ledgers and stage streams is discarded (R372). 2 µs of electrical
idle without a notice is a loss, a notice and a wake are LPI's (R352), and a worker tells its manager of them (the model's choice, log
entry 131). LINK_FLIT_GRANT gives a slot of the frame to its owner
where that has a flit and a credit, else to VC 10 before the others, which take turns; the flit is one of the oldest message of its VC, takes
a credit, and with its last flit the message has left (R341, R343; which credits have come back is a free value, log entry 108). -/
def Obligations.LinkPorts : Prop :=
  ∀ (s : State) (p : Nat), p < 16 →
    let stat := Block.lnk.page p * 0x1000 + oSTAT
    let istat := Block.lnk.page p * 0x1000 + oISTAT
    let lost (i : Instr) : Prop := ∃ t, exec i s = .next t ∧ portUp t p = false ∧ regFld t istat 0 1 = 1 ∧
      (t.port p).training = portTrains s p ∧ (t.port p).out = (s.port p).out.filter (fun m => 9 < m.vc) ∧
      t.linkOut = s.linkOut ++
        [{ dest := managerAddr s, src := ownAddr s, vc := 10, what := "loss", words := [regFld s (rLNK_PEER p) 0 15, p] }]
    let told (what : String) : List LinkMsg := if s.mgrRole then [] else
      [{ dest := managerAddr s, src := ownAddr s, vc := 10, what := what, words := [regFld s (rLNK_PEER p) 0 15] }]
    (∀ (gen : Nat) (peer : BitVec 15) (pp : BitVec 4), s.inReset = false → portUp s p = false → (s.port p).training = true →
      accepts s (Block.lnk.page p) = true → (gen = 1 ∨ gen = 2) →
      ∃ t, exec (.linkTrainDone p gen peer pp) s = .next t ∧ portUp t p = true ∧ regFld t stat 2 2 = gen ∧
        regFld t (rLNK_PEER p) 0 15 = peer.toNat ∧ regFld t (rLNK_PEER p) 15 4 = pp.toNat ∧ regFld t istat 1 1 = 1 ∧
        t.port p = { s.port p with training := false, fails := 0, slot := 0, rr := 0, replay := [], gone := [], used := [] } ∧
        ∀ i, i ≠ p → t.port i = s.port i) ∧
    (s.inReset = false → s.keeper.recovering = false → portUp s p = false → portTrains s p = true →
      ∃ t, exec (.linkTrainRetry p) s = .next t ∧ t.port p = { s.port p with training := true } ∧ t = { s with ports := t.ports }) ∧
    (∀ failed : Bool, portUp s p = true → (s.port p).replay ≠ [] →
      ∃ t, exec (.flitResend p failed) s = .next t ∧ t.port p = { s.port p with fails := if failed then (s.port p).fails + 1 else 0 } ∧
        regFld t (rLNK_ERR p) 0 16 = min (regFld s (rLNK_ERR p) 0 16 + 1) 65535 ∧ regFld t istat 2 1 = 1) ∧
    (portUp s p = true → 16 ≤ (s.port p).fails → lost (.linkDown p)) ∧
    (portUp s p = true → (s.port p).fails < 16 → exec (.linkDown p) s = .next s) ∧
    (portUp s p = true → regFld s stat 5 1 = 0 → lost (.electricalIdleLoss p)) ∧
    (portUp s p = true → regFld s stat 5 1 = 1 → exec (.electricalIdleLoss p) s = .next s) ∧
    (portTrains s p = false → exec (.linkTrainRetry p) s = .next s) ∧
    (portUp s p = true → ∃ t, exec (.lpiNotice p false) s = .next t ∧ regFld t stat 5 1 = 1 ∧ t.linkOut = s.linkOut ++ told "resting" ∧
      t = { s with regs := t.regs, linkOut := t.linkOut }) ∧
    (portUp s p = true → regFld s rCPW_IDLE 8 1 = 1 → regFld s rCPW_DSTATE 0 2 = 0 →
      ∃ t, exec (.lpiNotice p true) s = .next t ∧ regFld t stat 4 1 = 1 ∧ t = { s with regs := t.regs, ports := t.ports }) ∧
    (∃ t, exec (.portWake p) s = .next t ∧ regFld t stat 4 1 = 0 ∧ regFld t stat 5 1 = 0 ∧
      t.linkOut = s.linkOut ++ (if regFld s stat 5 1 = 1 then told "awake" else []) ∧ t = { s with regs := t.regs, linkOut := t.linkOut }) ∧
    (portUp s p = true → accepts s (Block.lnk.page p) = true →
      let x := (s.port p).credited s.free
      ∃ t, exec (.linkFlitGrant p) s = .next t ∧ (t.port p).slot = (x.slot + 1) % 16 ∧
        t = { s with ports := t.ports, free := s.free + 1 } ∧ (∀ i, i ≠ p → t.port i = s.port i) ∧
        ((∀ v < 12, x.has v = false) → t.port p = { x with slot := (x.slot + 1) % 16 }) ∧
        ∀ v, (slotOwner x.slot = some v ∧ x.has v = true) ∨
            ((∀ w, slotOwner x.slot = some w → x.has w = false) ∧ v = 10 ∧ x.has 10 = true) ∨
            ((∀ w, slotOwner x.slot = some w → x.has w = false) ∧ x.has 10 = false ∧
              ∃ i < 12, v = (x.rr + i) % 12 ∧ x.has v = true ∧ ∀ j < i, x.has ((x.rr + j) % 12) = false) →
          ∃ m, x.out.find? (fun m => m.vc == v) = some m ∧ (t.port p).replay = [m] ∧
            SMap.get 0 (t.port p).used v = SMap.get 0 x.used v + 1 ∧
            (SMap.get 0 x.gone v + 1 < msgFlits m →
              (t.port p).out = x.out ∧ SMap.get 0 (t.port p).gone v = SMap.get 0 x.gone v + 1) ∧
            (msgFlits m ≤ SMap.get 0 x.gone v + 1 → (t.port p).out = x.out.erase m ∧ SMap.get 0 (t.port p).gone v = 0))

/-- A message for another device waits at the port of its route, or at ALT where the port is down and the VC may use it; one without a route
is discarded and counted (against LNK0, the model's choice, log entry 95), at its source faults the job with NO_ROUTE, in transit is
reported to the manager; a refused mirror write faults the job with MIRROR (R346, R347, R356). A message in transit has come by a port that
is up and has its places in the receive buffer (R341, log entry 108); one that has not changes nothing. ROUTE_WRITE writes one entry and
clears SEAL (R349, R382). A manager told of a missing route sends the source worker a FAULT with the job and the cause NO_ROUTE, and takes
the job's workers for faulted (the words of that FAULT are the model's choice, log entry 111). -/
def Obligations.RoutedMessages : Prop :=
  ∀ s : State, s.inReset = false →
    (∀ m : LinkMsg, arrives s m = false → exec (.linkMessageRoute m) s = .next s) ∧
    (∀ m : LinkMsg, arrives s m = true → isOwn s m = false →
      let e := SMap.get 0 s.route (if m.dest < 0x4000 then m.dest else 0x4000 + m.dest % 256)
      let alt := portUp s (fld e 0 4) = false ∧ (m.vc = 10 ∨ m.vc = 11) ∧ bit e 9 = true
      (bit e 4 = true → ∀ p, (alt → p = fld e 5 4) → (¬ alt → p = fld e 0 4) →
        ∃ t, exec (.linkMessageRoute m) s = .next t ∧ t.port p = { s.port p with out := (s.port p).out ++ [m] } ∧
          (∀ i, i ≠ p → t.port i = s.port i) ∧ t = { s with ports := t.ports, regs := t.regs, linkOut := s.linkOut.erase m }) ∧
      (bit e 4 = false →
        ∃ t, exec (.linkMessageRoute m) s = .next t ∧
          regFld t (rLNK_ERR 0) 16 16 = min (regFld s (rLNK_ERR 0) 16 16 + 1) 65535 ∧
          regFld t (Block.lnk.page 0 * 0x1000 + oISTAT) 3 1 = 1 ∧ t.ports = s.ports ∧
          (m.src = ownAddr s → s.dev = .run → t.dev = .faulted ∧ ∃ f, t.rgs.fault = some f ∧ f.reason = 0x14) ∧
          (m.src ≠ ownAddr s → t.dev = s.dev ∧ t.linkOut = s.linkOut.erase m ++
            [{ dest := managerAddr s, src := ownAddr s, vc := 10, what := "noroute", words := [m.src] }]))) ∧
    (∀ m : LinkMsg, arrives s m = true → isOwn s m = true → m.what = "mirrorRefused" → s.dev = .run →
      ∃ t, exec (.linkMessageRoute m) s = .next t ∧ t.dev = .faulted ∧ ∃ f, t.rgs.fault = some f ∧ f.reason = 0x13) ∧
    (∀ (i : BitVec 15) (w : BitVec 32), i.toNat ≤ 0x40FF →
      ∃ t, exec (.routeWrite i w) s = .next t ∧ (∀ k, SMap.get 0 t.route k = if k = i.toNat then BitVec.ofNat 32 (fld w 0 10) else SMap.get 0 s.route k) ∧
        t = { s with route := t.route, regs := t.regs } ∧ regRaw t (Block.lnk.page 0 * 0x1000 + oSEAL) = 0 ∧
        ∀ o, o ≠ Block.lnk.page 0 * 0x1000 + oSEAL → regRaw t o = regRaw s o) ∧
    (∀ (w : Nat) (p : Part), s.mgrRole = true → partOf s w = some p → ∃ t, exec (.noroute w) s = .next t ∧
      t.linkOut = s.linkOut ++ [{ dest := w, src := ownAddr s, vc := 10, what := "fault", words := [p.relay.job, 0x14, 0] }] ∧
      (∀ r ∈ relays s, r.lead = p.relay.lead → r.job = p.relay.job → r.worker ∈ t.mgr.failed) ∧
      t.mgr = { s.mgr with failed := t.mgr.failed } ∧ t = { s with mgr := t.mgr, linkOut := t.linkOut })

/-! ### Managers -/

/-- What a manager makes of heartbeats, losses and probes (R352, R360, R361): a missing heartbeat of a worker that does not rest by notice
counts, and the third in a row loses the worker; a reported loss is probed, by a port of the manager whose route to the worker avoids the link
where there is one; an answer leaves the bay map alone, takes the link out of use,
sends a FAULT to the workers whose jobs used it and ends in TKO reason 4; a timeout loses the worker; a worker that is lost leaves its position
of the bay FAILED, and every other worker of its jobs, and of those whose routes pass through its place, has a FAULT with DEVICE_LOST and
its number (R393). While a worker is taken over no heartbeat of it is missed, and only a report of its spare's link is one (R372); FATAL of the
spare loses it again (R364). A worker sends heartbeats
while it has a job, FATAL where its Keeper finds that it cannot run jobs, and sets MGR_LOST when no reply comes (R352, R360, R364). The words of
FAULT messages, the choice of the probe's port, and what managers of other bays are told are the model's (log entries 111 and 130). -/
def Obligations.ManagersWatch : Prop :=
  ∀ (s : State) (w : Nat),
    let signal (dest : Nat) (what : String) (words : List Nat) : LinkMsg :=
      { dest := dest, src := ownAddr s, vc := 10, what := what, words := words }
    let lost (i : Instr) : Prop := ∀ p, positionOf s w = some p → p < 64 →
      ∃ t, exec i s = .next t ∧ (mapEnt t p).st = .failed ∧ (∀ q ∈ t.mgr.probes, q.1 ≠ w) ∧ t.gddr = s.gddr ∧
        (∀ r ∈ relays s, (w ∈ r.workers ∨ ∃ l ∈ legsOf s r, l.1 = placeHere s p) → r.worker ≠ w →
          signal r.worker "fault" [r.job, 0x16, w] ∈ t.linkOut) ∧
        ∀ q ∈ s.mgr.leads, ∀ m ∈ q.2,
          signal (0x4000 + m) "lost" [w, 128 * mgrNum s + p, if (relays s).any (fun r => r.worker == w) then 1 else 0] ∈ t.linkOut
    (s.inReset = false → s.mgrRole = true →
      (∀ reporter port, (positionOf s w).isSome = true → (∀ q ∈ s.mgr.probes, q.1 ≠ w) →
        let code := reporterCode s reporter
        let ordinary := fld (routeEntry s w) 0 4
        (takingOver s w = true → ledTo s w code port = false → exec (.loss w reporter port) s = .next s) ∧
        (takingOver s w = false ∨ ledTo s w code port = true →
          ∀ b, placeOfWorker s w = some b →
          let avoids (q : Nat) : Prop := portUp s q = true ∧
            (routeLegs s (placeAt (mgrNum s) (4 * q)) b).any (isLink (placeOfCode code) port) = false
          ∃ t, exec (.loss w reporter port) s = .next t ∧ t.mgr = { s.mgr with probes := s.mgr.probes ++ [(w, code, port)] } ∧
            ((t.linkOut = s.linkOut ++ [signal w "probe" []] ∧ t = { s with mgr := t.mgr, linkOut := t.linkOut } ∧
                (avoids ordinary ∨ ∀ q < 16, ¬ avoids q)) ∨
              ∃ q, avoids q ∧ q ≠ ordinary ∧ (t.port q).out = (s.port q).out ++ [signal w "probe" []] ∧
                t = { s with mgr := t.mgr, ports := t.ports, regs := t.regs }))) ∧
      ((positionOf s w).isSome = true → restsByNotice s w = false → takingOver s w = false →
        (SMap.get 0 s.mgr.missed w < 2 → ∃ t, exec (.heartbeatMiss w) s = .next t ∧
          SMap.get 0 t.mgr.missed w = SMap.get 0 s.mgr.missed w + 1 ∧ t = { s with mgr := t.mgr } ∧ t.mgr = { s.mgr with missed := t.mgr.missed }) ∧
        (2 ≤ SMap.get 0 s.mgr.missed w → lost (.heartbeatMiss w))) ∧
      (restsByNotice s w = true ∨ takingOver s w = true → exec (.heartbeatMiss w) s = .next s) ∧
      ((∀ x ∈ s.mgr.takeovers, x.worker = w → x.spare ≠ none) → lost (.fatal w)) ∧
      ((∃ x ∈ s.mgr.takeovers, x.worker = w ∧ x.spare = none) → exec (.fatal w) s = .next s)) ∧
    ((∃ q ∈ s.mgr.probes, q.1 = w) → lost (.probeTimeout w)) ∧
    ((∀ q ∈ s.mgr.probes, q.1 ≠ w) → exec (.probeTimeout w) s = .next s) ∧
    (∀ code port, s.mgr.probes.find? (fun q => q.1 == w) = some (w, code, port) →
      ∃ t, exec (.probeAnswer w) s = .next t ∧ (∀ q ∈ t.mgr.probes, q.1 ≠ w) ∧ t.mgr.map = s.mgr.map ∧ regFld t rLNK_TKO 14 3 = 4 ∧
        regFld t rLNK_TKO 0 14 = w % 2 ^ 14 ∧ t.mgr.takeovers = s.mgr.takeovers ∧ t.mgr.out = s.mgr.out ++ [(code, port)] ∧
        ∀ r ∈ usersOf s (placeOfCode code) port, signal r.worker "fault" [r.job, 0x16, w] ∈ t.linkOut) ∧
    (s.mgrRole = false → s.dev = .armed ∨ s.dev = .run ∨ s.dev = .drain →
      exec .heartbeat s = .next { s with linkOut := s.linkOut ++ [signal (managerAddr s) "heartbeat" [ownWid s]] }) ∧
    (s.inReset = false → s.mgrRole = false → regFld s rLNK_WID 14 1 = 1 → w = ownWid s →
      exec (.fatal w) s = .next { s with linkOut := s.linkOut ++ [signal (managerAddr s) "fatal" [w]] }) ∧
    (s.inReset = false → s.mgrRole = false → regFld s (rLNK_STAT 0) 6 1 = 0 →
      ∃ t, exec .mgrLost s = .next t ∧ regFld t (rLNK_STAT 0) 6 1 = 1 ∧ regFld t (Block.lnk.page 0 * 0x1000 + oISTAT) 9 1 = 1 ∧ OnlyRegs s t)

/-- JOB_RELAY: the manager keeps the part, its images in the manager store, and sends the entry last; with no workers it takes the host's
write of the bay map, and reads the worker's GLB_CONFIG (R351, R467); a reserved worker ID never stands there (R5); the worker holds what
the entry's job is, COMMIT at its reset value, and words 1 to 15 of the entry written (R353). A worker that is lost and can be restored is
taken over by the spare that is chosen: the spare's position is ACTIVE, it is told the worker's number, and the buddy copies the slot of the
commit epoch to the spare's local range, the ward that of its own local range to the spare's held range (R362, R363, R369; the words of
these messages are the model's, log entry 92). TAKEOVER_COPY_DONE: a copy that failed ends the takeover, with reason 2; a good one is done,
and with the last the registers of the spare are restored and the takeover is over (R362, R364). WING_SPARE_REQUEST grants the first
position of the wing's shelf that suits, which becomes ACTIVE, or refuses (R345, R363; the lowest one, log entry 100). -/
def Obligations.RelaysAndTakeovers : Prop :=
  (∀ (s : State) (r : Relay), s.inReset = false → s.dev ≠ .boot →
    (s.mgrRole = true → r.workers ≠ [] →
      let places := imagePlaces r.store r.images
      ∃ (t : State) (m : LinkMsg) (h : List (Nat × Nat)), exec (.jobRelay r) s = .next t ∧
        t.mgr.parts = s.mgr.parts.filter (fun x => x.relay.worker != r.worker) ++
          [{ relay := { r with images := [], map := [] }, images := places }] ∧
        t.linkOut.getLast? = some m ∧ m.dest = r.worker ∧ m.what = "entry" ∧
        m.words = entryWords r.entry { lead := r.lead, job := r.job, workers := r.workers, hops := h } r.words ∧
        (∀ q ∈ places.zip r.images, t.gddr.read q.1.1 q.2.2.length = q.2.2) ∧
        ∀ b, (∀ q ∈ places, b < q.1 ∨ q.1 + q.2.2 ≤ b) → t.gddr.byte b = s.gddr.byte b) ∧
    (∀ p e, s.mgrRole = true → r.workers = [] → r.map = [(p, e)] → p < 64 → hostMayMap (mapEnt s p).st e.st = true →
      ((∀ x, e.st = .active x → x < 10000) →
        ∃ t, exec (.jobRelay r) s = .next t ∧ (∀ i, mapEnt t i = if i = p then e else mapEnt s i) ∧ t = { s with mgr := t.mgr, linkOut := t.linkOut } ∧
          t.linkOut = s.linkOut ++ match e.st with
            | .active x => [{ dest := x, src := ownAddr s, vc := 11, what := "configRead", words := [] }]
            | _ => []) ∧
      (∀ x, e.st = .active x → 10000 ≤ x → exec (.jobRelay r) s = .next s)) ∧
    (s.mgrRole = false → regFld s rLNK_WID 14 1 = 1 → r.worker = ownWid s →
      ∃ t, exec (.jobRelay r) s = .next t ∧
        SMap.find t.rgs.relayed r.entry = some { lead := r.lead, job := r.job, workers := r.workers, hops := r.hops } ∧
        regRaw t rLNK_CKPT = 0xFFFFFFFF#32 ∧
        ∀ i, 1 ≤ i → i < 16 → gddrWord t (circAddr s r.entry + 4 * i) = r.words.getD i 0)) ∧
  (∀ (s : State) (w p b q e : Nat) (r : Relay), s.inReset = false → s.mgrRole = true → SMap.wf MapEnt.empty s.mgr.map = true →
    positionOf s w = some p → p < 64 → (mapEnt s p).st = .active w → takingOver s w = false → (∃ x ∈ relays s, x.worker = w) →
    buddyWorker s w p = some b → b ≠ w → (positionOf s b).isSome = true → takingOver s b = false →
    (∀ x ∈ relays s, w ∈ x.workers → (commitOf s x).isSome = true) →
    (relays s).find? (fun x => x.workers.contains w) = some r → commitOf s r = some e →
    chooseSpare s (folioNeeds s w).1 (folioNeeds s w).2 (buddyPlace s w p) = some q →
    ∃ t, exec (.fatal w) s = .next t ∧ (mapEnt t q).st = .active w ∧
      (∃ x ∈ t.mgr.takeovers, x.worker = w ∧ x.lost = p ∧ x.spare = some q ∧ x.sec = s.chron.sec ∧ x.ns = s.chron.ns) ∧
      ({ dest := w, src := ownAddr s, vc := 11, what := "wid", words := [w] } : LinkMsg) ∈ t.linkOut ∧
      ∀ part, partOf s w = some part →
        let base (word : Nat) : Nat := fld (wordAt part.relay.ckpt word) 0 17
        ({ dest := b, src := ownAddr s, vc := 11, what := "copyHeld", words := [w, e % 2, base 1] } : LinkMsg) ∈ t.linkOut ∧
        ∀ v, wardWorker s w p = some v → v ≠ w → takingOver s v = false →
          ({ dest := v, src := ownAddr s, vc := 11, what := "copyLocal", words := [w, e % 2, base 2] } : LinkMsg) ∈ t.linkOut) ∧
  (∀ (s : State) (w c : Nat) (tk : Takeover), s.mgr.takeovers.find? (fun t => t.worker == w && t.copies.contains c) = some tk →
    let alone := ∀ x ∈ s.mgr.takeovers, x.waits = false
    (∃ t, exec (.takeoverCopyDone w c false) s = .next t ∧ (∀ x ∈ t.mgr.takeovers, x.worker ≠ w) ∧ t.mgr.map = s.mgr.map ∧
      (alone → t.mgr.takeovers = s.mgr.takeovers.filter (fun x => x.worker != w) ∧
        regFld t rLNK_TKO 14 3 = 2 ∧ regFld t rLNK_TKO 0 14 = w % 2 ^ 14)) ∧
    ((∃ d ∈ tk.copies, d ≠ c) ∨ tk.waits = true →
      ∃ t, exec (.takeoverCopyDone w c true) s = .next t ∧ t = { s with mgr := t.mgr } ∧
        t.mgr.takeovers = s.mgr.takeovers.filter (fun x => x.worker != w) ++ [{ tk with copies := tk.copies.filter (· != c) }]) ∧
    ((∀ d ∈ tk.copies, d = c) → tk.waits = false →
      ∃ t, exec (.takeoverCopyDone w c true) s = .next t ∧ (∀ x ∈ t.mgr.takeovers, x.worker ≠ w) ∧
        (regFld t rLNK_TKO 14 3 = 0 ∨ regFld t rLNK_TKO 14 3 = 3) ∧ regFld t rLNK_TKO 0 14 = w % 2 ^ 14 ∧ t.mgr.map = s.mgr.map ∧
        ∀ p, partOf s w = some p →
          ({ dest := w, src := ownAddr s, vc := 11, what := "ckptRegs", words := p.relay.ckpt.map (·.toNat) } : LinkMsg) ∈ t.linkOut)) ∧
  (∀ (s : State) (bay w grade fprint : Nat), s.inReset = false → wingLead s = true →
    let answer (what : String) (words : List Nat) : LinkMsg :=
      { dest := 0x4000 + regFld s rLNK_WID 16 8 + bay % 16, src := ownAddr s, vc := 10, what := what, words := words }
    let suits (p : Nat) : Prop := 64 ≤ p ∧ p < 68 ∧ eligible s grade fprint p = true
    (∀ p, suits p → (∀ i < p, ¬ suits i) →
      ∃ t, exec (.wingSpareRequest bay w grade fprint) s = .next t ∧ (mapEnt t p).st = .active w ∧
        (∀ i, i ≠ p → mapEnt t i = mapEnt s i) ∧ t.linkOut = s.linkOut ++ [answer "spareGrant" [w, p]] ∧
        t = { s with mgr := { s.mgr with map := t.mgr.map }, linkOut := t.linkOut }) ∧
    ((∀ p, ¬ suits p) →
      exec (.wingSpareRequest bay w grade fprint) s = .next { s with linkOut := s.linkOut ++ [answer "spareRefuse" [w]] }))

/-- The buddy: a mirrored unit of its ward that lies in both slots is written at the held range's base plus its offset, and acknowledged; a
header that then says SEAL 1 is reported to the job's lead manager (R356 to R358); any other is refused and counted (R356; against LNK0, the
model's choice, log entry 95); one that would write the secure world from a non-secure job changes nothing (R424); one whose controller
takes no work waits (R396, R462). SEALED: the manager keeps the epoch, and sends COMMIT of the largest epoch that every worker of the job
has sealed (R358); one of a job that another bay leads goes on to its lead manager (log entry 130); COMMIT loads the epoch. CENSUS_READ
writes the bay's entry at the same index: the worker's counters, saturating on those that other workers of the bay have of that superstep,
and the number of workers (R333, R355). -/
def Obligations.CheckpointsAndBayCensus : Prop :=
  (∀ (s : State) (w addr : Nat) (secure : Bool) (data : List Byte), s.inReset = false → s.dev ≠ .boot →
    let size := regFld s rLNK_SHARD 0 14 * 0x1000000
    let takes := regFld s rLNK_BUDDY 30 1 = 1 ∧ regFld s rLNK_BUDDY 16 14 = w ∧ size ≠ 0 ∧ addr + data.length ≤ 2 * size
    let a := regFld s rLNK_HELD 0 17 * 0x1000000 + addr
    let head := regFld s rLNK_HELD 0 17 * 0x1000000 + addr / size * size
    let reply (what : String) : LinkMsg := { dest := w, src := ownAddr s, vc := 11, what := what, words := [addr, data.length / 32] }
    (takes → tierOpen s a data.length = false → exec (.mirrorWrite w secure addr data) s = .next (wake s)) ∧
    (takes → tierOpen s a data.length = true → (∀ n r, regionAt s a = some (n, r) → crossWorld s secure true n r = false) →
      ∃ t, exec (.mirrorWrite w secure addr data) s = .next t ∧ reply "mirrorAck" ∈ t.linkOut ∧ GddrOutside a data.length s t ∧
        (∀ i (h : i < data.length), t.gddr.byte (a + i) = data[i]) ∧
        (addr % size < 32 → gddrWord t (head + 8) = 1 →
          ({ dest := leadOf s w, src := ownAddr s, vc := 10, what := "sealed", words := [w, (gddrWord t head).toNat] } : LinkMsg) ∈ t.linkOut)) ∧
    (takes → tierOpen s a data.length = true → ∀ n r, regionAt s a = some (n, r) → crossWorld s secure true n r = true →
      ∃ t, exec (.mirrorWrite w secure addr data) s = .next t ∧ reply "mirrorAck" ∈ t.linkOut ∧ t.gddr = s.gddr) ∧
    (¬ takes → ∃ t, exec (.mirrorWrite w secure addr data) s = .next t ∧ t.linkOut = s.linkOut ++ [reply "mirrorRefused"] ∧ t.gddr = s.gddr ∧
      regFld t (rLNK_ERR 0) 16 16 = min (regFld s (rLNK_ERR 0) 16 16 + 1) 65535)) ∧
  (∀ (s : State) (w : Nat) (epoch : BitVec 32) (p : Part), s.inReset = false → s.mgrRole = true → w ∉ s.mgr.failed →
    partOf s w = some p → p.relay.workers ≠ [] →
    ∃ t, exec (.sealed w epoch) s = .next t ∧ t.gddr = s.gddr ∧
      epoch.toNat ∈ SMap.get [] t.mgr.seals w ∧ (∀ v, v ≠ w → SMap.get [] t.mgr.seals v = SMap.get [] s.mgr.seals v) ∧
      (∀ x, x ∈ SMap.get [] t.mgr.seals w ↔ x ∈ SMap.get [] s.mgr.seals w ∨ x = epoch.toNat) ∧
      let all (e : Nat) : Prop := ∀ v ∈ p.relay.workers, e ∈ SMap.get [] t.mgr.seals v
      ((∀ e, ¬ all e) → t = { s with mgr := { s.mgr with seals := t.mgr.seals } }) ∧
      (∀ e, all e → (∀ x, all x → x ≤ e) → (∀ c, commitOf s p.relay = some c → c < e) →
        commitOf t p.relay = some e ∧
        ∀ v ∈ p.relay.workers, ({ dest := v, src := ownAddr s, vc := 10, what := "commit", words := [e] } : LinkMsg) ∈ t.linkOut)) ∧
  (∀ (s : State) (w : Nat) (epoch : BitVec 32), s.inReset = false → s.mgrRole = true → w ∉ s.mgr.failed → partOf s w = none →
    ∃ t, exec (.sealed w epoch) s = .next t ∧ t = { s with linkOut := t.linkOut } ∧
      ∀ m ∈ SMap.get [] s.mgr.leads w,
        ({ dest := 0x4000 + m, src := ownAddr s, vc := 10, what := "sealed", words := [w, epoch.toNat] } : LinkMsg) ∈ t.linkOut) ∧
  (∀ (s : State) (epoch : BitVec 32), s.inReset = false →
    ∃ t, exec (.commit epoch) s = .next t ∧ regRaw t rLNK_CKPT = epoch ∧ t.dev = s.dev ∧
      (s.ckpt.heldUnits = [] → t = { s with regs := t.regs } ∧ ∀ o, o ≠ rLNK_CKPT → regRaw t o = regRaw s o)) ∧
  (∀ (s : State) (w : Nat) (words : List Word), s.inReset = false → s.dev ≠ .boot → s.mgrRole = true → regFld s rCEN_TABLE 20 4 ≠ 0 →
    (positionOf s w).isSome = true →
    let i := (wordAt words 0).toNat % 2 ^ regFld s rCEN_TABLE 20 4
    let a := regFld s rCEN_TABLE 0 20 * 0x200000 + i * 2048
    let others := (SMap.get [] s.mgr.bay i).filter fun q => q.1 != w && wordAt q.2 0 == wordAt words 0
    ∃ t, exec (.censusRead w words) s = .next t ∧ GddrOutside a 2048 s t ∧ gddrWord t a = wordAt words 0 ∧
      gddrWord t (a + 32) = BitVec.ofNat 32 (others.length + 1) ∧
      ∀ j, j < 448 → (gddrWord t (a + 256 + 4 * j)).toNat =
        min ((others.map fun q => (wordAt q.2 (64 + j)).toNat).sum + (wordAt words (64 + j)).toNat) 0xFFFFFFFF)

/-- The chronicle (R366 to R368): an alignment request leaves with its stamp taken, and is answered with the upstream device's time; the reply
sets, for the 10 ms to the next, the rate that makes up the measured offset, within 200 ppm, and LOCKED (R368); an edge of PPS_IN near the
expected second does so on a manager for the next second, one far off is ignored while LOCKED, and the third in a row clears LOCKED (R367);
without edges or alignments it runs on the crystal (R367, R445). The spans of a slew and the two stamps of an answer are the model's
(log entry 92). -/
def Obligations.ChronicleAligned : Prop :=
  ∀ s : State, s.inReset = false →
    let clamp (x : Int) : Int := max (-200000) (min 200000 x)
    (∀ up, s.mgrRole = false → timeFree s = false →
      exec (.timeAlign (.ask up)) s = .next { s with
        chron := { s.chron with asked := some (chronNs s) },
        linkOut := s.linkOut ++ [{ dest := up, src := ownAddr s, vc := 10, what := "timeRequest", words := [] }] }) ∧
    (∀ dest, timeFree s = false →
      exec (.timeAlign (.serve dest)) s = .next { s with
        linkOut := s.linkOut ++ [{ dest := dest, src := ownAddr s, vc := 10, what := "timeReply",
                                   words := [(chronNs s).toNat, (chronNs s).toNat] }] }) ∧
    (∀ t1 t2 t3 : Int, s.mgrRole = false → timeFree s = false → s.chron.asked = some t1 →
      let theta := ((t2 - t1) - (chronNs s - t3)) / 2
      ∃ t, exec (.timeAlign (.reply t2 t3)) s = .next t ∧
        t.chron = { s.chron with asked := none, trim := clamp (100 * theta), slewEnd := some (s.time + 840000000) } ∧
        regFld t rTIM_STAT 1 1 = 1 ∧ regRaw t rTIM_OFFSET = BitVec.ofInt 32 theta ∧ OnlyRegs s t) ∧
    (∀ n : Nat, s.mgrRole = true → timeFree s = false →
      let u := toTime s (match s.chron.lastEdge with | some t => t + 84 * n | none => s.time)
      let d := ppsOffset u.chron
      let slewed : Chron := { u.chron with trim := clamp (-d), slewEnd := some (u.time + 84000000000), ignored := 0, lastEdge := some u.time }
      (ppsFar u n = false →
        ∃ t, exec (.ppsEdge n) s = .next t ∧ regFld t rTIM_STAT 1 1 = 1 ∧ regFld t rTIM_STAT 2 1 = 0 ∧ t.chron = slewed) ∧
      (ppsFar u n = true → regFld s rTIM_STAT 1 1 = 0 →
        ∃ t, exec (.ppsEdge n) s = .next t ∧ regFld t rTIM_STAT 1 1 = 0 ∧ t.chron = slewed) ∧
      (ppsFar u n = true → regFld s rTIM_STAT 1 1 = 1 → s.chron.ignored < 2 →
        ∃ t, exec (.ppsEdge n) s = .next t ∧ regFld t rTIM_STAT 1 1 = 1 ∧ regFld t (Block.tim.page 0 * 0x1000 + oISTAT) 2 1 = 1 ∧
          t.chron = { u.chron with ignored := s.chron.ignored + 1, lastEdge := some u.time }) ∧
      (ppsFar u n = true → regFld s rTIM_STAT 1 1 = 1 → s.chron.ignored = 2 →
        ∃ t, exec (.ppsEdge n) s = .next t ∧ regFld t rTIM_STAT 1 1 = 0 ∧ t.chron = slewed)) ∧
    (s.mgrRole = true → ∃ t, exec .ppsLost s = .next t ∧ t.chron = { s.chron with trim := 0, slewEnd := none } ∧
      regFld t rTIM_STAT 2 1 = 1 ∧ OnlyRegs s t) ∧
    (∃ t, exec .alignmentTimeout s = .next t ∧ t.chron = { s.chron with trim := 0, slewEnd := none, asked := none } ∧
      regFld t rTIM_STAT 1 1 = 0 ∧ OnlyRegs s t)

/-! ### Reset and the invariants -/

/-- The state after a reset: BOOT, code 7; every tile OFF, every room bank gated, no fence, no residency, the region table NONE, no
trusted manager, no route, the chronicle at 0; every block enabled; the SEC page secure and locked; no commit (R51, R242, R279, R358,
R451). A byte of memory that nothing has written reads 0, and the stated registers hold their reset values. -/
def Obligations.ResetState : Prop :=
  let s := State.reset
  s.dev = .boot ∧ s.dev.code = 7 ∧ s.inReset = true ∧ s.pending = [] ∧
  (∀ x, (s.tile x).pwr = .off ∧ ∀ a, (s.tile x).byteAt a = 0) ∧ (∀ a, s.gddr.byte a = 0) ∧
  (∀ n b, ((s.room n).bank b).st = .gated) ∧ s.rgs.resid = [] ∧ s.regions = [] ∧ s.keeper.trusted = none ∧
  (∀ k, SMap.get 0 s.route k = 0) ∧ s.chron.sec = 0 ∧ s.chron.ns = 0 ∧ regRaw s rTIM_STAT = 0 ∧ regRaw s rLNK_WID = 0 ∧
  (∀ p b n, pageBlock p = some (b, n) → accepts s p = true) ∧ pageSecure s (Block.sec.page 0) = true ∧
  regRaw s rLNK_CKPT = 0xFFFFFFFF#32 ∧ regFld s rCPW_PCAP 0 12 = 2500 ∧ regFld s rCPW_RSTCAUSE 0 3 = 1

/-- The state after reset meets the invariants. -/
def Obligations.ResetMeetsInvariants : Prop :=
  MemoriesCanonical State.reset ∧ RegionsApart State.reset ∧ QueueOk State.reset

/-- Every step keeps every memory in its canonical form, from any state in which it is. -/
def Obligations.StepKeepsMemories : Prop :=
  ∀ s t : State, MemoriesCanonical s → step s = .next t → MemoriesCanonical t

/-- Every step keeps the region table free of overlaps (R274), from any state in which it is, with what a running command is about to enter. -/
def Obligations.StepKeepsRegionsApart : Prop :=
  ∀ s t : State, RegionsApart s → step s = .next t → RegionsApart t

/-- No command takes back a fuse: the minimum SVNs never fall and a revoked key slot stays revoked, whatever command runs and however
the device resets (R430, R433, R451); and no command touches the queue (the model's convention, log entry 2). -/
def Obligations.FusesOnlyRise : Prop :=
  ∀ (c : Instr) (s t : State), exec c s = .next t → FusesRise s.fuse t.fuse ∧ t.pending = s.pending
end

