-- ==== Sys2Proof/Laws/SMap.lean ====
section
/-! SUPPORT. Sparse maps: what a read gives after a write, and that every operation keeps the canonical form. -/

namespace Sys2Proof.Machine

variable {α : Type}

/-! ### Reads after writes -/

theorem SMap.find_put_self (m : SMap α) (k : Nat) (v : α) : SMap.find (SMap.put m k v) k = some v := by
  induction m with
  | nil => simp [SMap.put, SMap.find]
  | cons p m ih =>
    obtain ⟨k', v'⟩ := p
    simp only [SMap.put]
    split
    · simp [SMap.find]
    · split
      · simp [SMap.find]
      · have : ¬ k' = k := fun h => by omega
        simp [SMap.find, this, ih]

theorem SMap.find_put_ne (m : SMap α) {k j : Nat} (v : α) (h : j ≠ k) :
    SMap.find (SMap.put m k v) j = SMap.find m j := by
  induction m with
  | nil => simp [SMap.put, SMap.find, Ne.symm h]
  | cons p m ih =>
    obtain ⟨k', v'⟩ := p
    simp only [SMap.put]
    split
    · simp [SMap.find, Ne.symm h]
    · split
      · rename_i _ hk
        have : ¬ k' = j := fun e => h (by omega)
        simp [SMap.find, this, Ne.symm h]
      · simp only [SMap.find]; split <;> simp_all

theorem SMap.find_del_self (m : SMap α) (k : Nat) : SMap.find (SMap.del m k) k = none := by
  induction m with
  | nil => rfl
  | cons p m ih =>
    obtain ⟨k', v'⟩ := p
    simp only [SMap.del] at ih ⊢
    by_cases h : k' = k
    · simp [h, ih]
    · simp [h, SMap.find, ih]

theorem SMap.find_del_ne (m : SMap α) {k j : Nat} (h : j ≠ k) : SMap.find (SMap.del m k) j = SMap.find m j := by
  induction m with
  | nil => rfl
  | cons p m ih =>
    obtain ⟨k', v'⟩ := p
    simp only [SMap.del] at ih ⊢
    by_cases hk : k' = k
    · have : ¬ k' = j := fun e => h (by omega)
      simp [hk, ih, SMap.find, Ne.symm h]
    · simp [hk, SMap.find, ih]

/-- A key reads as what was written to it. -/
@[simp] theorem SMap.get_set_self [DecidableEq α] (d : α) (m : SMap α) (k : Nat) (v : α) :
    SMap.get d (SMap.set d m k v) k = v := by
  unfold SMap.get SMap.set
  split
  · simp [SMap.find_del_self, *]
  · simp [SMap.find_put_self]

/-- A write leaves every other key alone. -/
theorem SMap.get_set_ne [DecidableEq α] (d : α) (m : SMap α) {k j : Nat} (v : α) (h : j ≠ k) :
    SMap.get d (SMap.set d m k v) j = SMap.get d m j := by
  unfold SMap.get SMap.set
  split
  · rw [SMap.find_del_ne m h]
  · rw [SMap.find_put_ne m v h]

@[simp] theorem SMap.get_nil (d : α) (k : Nat) : SMap.get d [] k = d := rfl

/-! ### The canonical form -/

theorem SMap.wfFrom_put [DecidableEq α] {d v : α} (hv : v ≠ d) {k : Nat} :
    ∀ {m : SMap α} {lo : Option Nat}, SMap.wfFrom d lo m = true → (∀ l, lo = some l → l < k) →
      SMap.wfFrom d lo (SMap.put m k v) = true
  | [], lo, _, hk => by
    cases lo with
    | none => simp [SMap.put, SMap.wfFrom, hv]
    | some l => simp [SMap.put, SMap.wfFrom, hv, hk l rfl]
  | (k', v') :: m, lo, h, hk => by
    simp only [SMap.wfFrom, Bool.and_eq_true] at h
    obtain ⟨⟨h1, h2⟩, h3⟩ := h
    simp only [SMap.put]
    split
    · rename_i hlt
      cases lo with
      | none => simp_all [SMap.wfFrom]
      | some l => simp_all [SMap.wfFrom]
    · split
      · rename_i _ he
        subst he
        cases lo with
        | none => simp_all [SMap.wfFrom]
        | some l => simp_all [SMap.wfFrom]
      · simp only [SMap.wfFrom, Bool.and_eq_true]
        exact ⟨⟨h1, h2⟩, SMap.wfFrom_put hv h3 (fun l e => by cases e; omega)⟩

theorem SMap.wfFrom_weaken [DecidableEq α] {d : α} {l : Nat} {lo : Option Nat} {m : SMap α}
    (h : SMap.wfFrom d (some l) m = true) (hl : ∀ b, lo = some b → b < l) : SMap.wfFrom d lo m = true := by
  cases m with
  | nil => rfl
  | cons p m =>
    obtain ⟨k, v⟩ := p
    simp only [SMap.wfFrom, Bool.and_eq_true, decide_eq_true_eq] at h ⊢
    obtain ⟨⟨h1, h2⟩, h3⟩ := h
    refine ⟨⟨?_, h2⟩, h3⟩
    cases lo with
    | none => rfl
    | some b => have := hl b rfl; simp; omega

theorem SMap.wfFrom_filter [DecidableEq α] {d : α} (f : Nat × α → Bool) :
    ∀ {m : SMap α} {lo : Option Nat}, SMap.wfFrom d lo m = true → SMap.wfFrom d lo (m.filter f) = true
  | [], _, _ => rfl
  | (k, v) :: m, lo, h => by
    simp only [SMap.wfFrom, Bool.and_eq_true] at h
    obtain ⟨⟨h1, h2⟩, h3⟩ := h
    by_cases hf : f (k, v) = true
    · rw [List.filter_cons_of_pos hf]
      simp only [SMap.wfFrom, Bool.and_eq_true]
      exact ⟨⟨h1, h2⟩, SMap.wfFrom_filter f h3⟩
    · rw [List.filter_cons_of_neg hf]
      refine SMap.wfFrom_filter f (SMap.wfFrom_weaken h3 ?_)
      intro b hb
      subst hb
      simpa using h1

/-- The empty map is canonical. -/
@[simp] theorem SMap.wf_nil [DecidableEq α] (d : α) : SMap.wf d ([] : SMap α) = true := rfl

/-- A write keeps the canonical form. -/
theorem SMap.wf_set [DecidableEq α] {d : α} {m : SMap α} (h : SMap.wf d m = true) (k : Nat) (v : α) :
    SMap.wf d (SMap.set d m k v) = true := by
  unfold SMap.set SMap.wf
  split
  · exact SMap.wfFrom_filter _ h
  · exact SMap.wfFrom_put (by assumption) h (by simp)

/-- Leaving entries out keeps the canonical form. -/
theorem SMap.wf_filter [DecidableEq α] {d : α} {m : SMap α} (h : SMap.wf d m = true) (f : Nat × α → Bool) :
    SMap.wf d (m.filter f) = true := SMap.wfFrom_filter f h

/-! ### Memory -/

/-- A byte reads as what was written to it. -/
@[simp] theorem Memory.byte_setByte_self (m : Memory) (a : Nat) (b : Byte) : (Memory.setByte m a b).byte a = b :=
  SMap.get_set_self _ _ _ _

/-- Writing a byte leaves the others alone. -/
theorem Memory.byte_setByte_ne (m : Memory) {a a' : Nat} (b : Byte) (h : a' ≠ a) :
    (Memory.setByte m a b).byte a' = m.byte a' := SMap.get_set_ne _ _ _ h

/-- Bytes outside a write keep their values. -/
theorem Memory.byte_write_outside (bs : List Byte) : ∀ (m : Memory) (a a' : Nat), (a' < a ∨ a + bs.length ≤ a') →
    (Memory.write m a bs).byte a' = m.byte a' := by
  induction bs with
  | nil => intros; rfl
  | cons b bs ih =>
    intro m a a' h
    simp only [List.length_cons] at h
    rw [Memory.write, ih _ _ _ (by omega), Memory.byte_setByte_ne _ _ (by omega)]

/-- Byte `i` of a write is what the byte reads as afterwards. -/
theorem Memory.byte_write_inside (bs : List Byte) : ∀ (m : Memory) (a i : Nat) (h : i < bs.length),
    (Memory.write m a bs).byte (a + i) = bs[i] := by
  induction bs with
  | nil => intro _ _ _ h; simp at h
  | cons b bs ih =>
    intro m a i h
    cases i with
    | zero => rw [Memory.write, Nat.add_zero, Memory.byte_write_outside _ _ _ _ (by omega)]; simp
    | succ i =>
      rw [Memory.write, show a + (i + 1) = (a + 1) + i by omega, ih _ _ i (by simpa using h)]
      simp

/-- Writing bytes keeps the canonical form. -/
theorem Memory.wf_write (bs : List Byte) : ∀ {m : Memory} (a : Nat), Memory.wf m = true → Memory.wf (Memory.write m a bs) = true := by
  induction bs with
  | nil => intro _ _ h; exact h
  | cons b bs ih => intro m a h; exact ih _ (SMap.wf_set h _ _)

/-- Clearing a range keeps the canonical form. -/
theorem Memory.wf_clear {m : Memory} (h : Memory.wf m = true) (lo hi : Nat) : Memory.wf (Memory.clear m lo hi) = true :=
  SMap.wf_filter h _

end Sys2Proof.Machine
end

