-- ==== Sys2Proof/Laws/State.lean ====
section
/-! SUPPORT. The state's updates, field by field: what each leaves as it was, and what it gives where it writes. -/

namespace Sys2Proof.Machine

/-! ### setReg -/

@[simp] theorem setReg_pending (s : State) (off : Nat) (w : Word) : (setReg s off w).pending = s.pending := rfl
@[simp] theorem setReg_cycle (s : State) (off : Nat) (w : Word) : (setReg s off w).cycle = s.cycle := rfl
@[simp] theorem setReg_time (s : State) (off : Nat) (w : Word) : (setReg s off w).time = s.time := rfl
@[simp] theorem setReg_phase (s : State) (off : Nat) (w : Word) : (setReg s off w).phase = s.phase := rfl
@[simp] theorem setReg_clockStart (s : State) (off : Nat) (w : Word) : (setReg s off w).clockStart = s.clockStart := rfl
@[simp] theorem setReg_clockOn (s : State) (off : Nat) (w : Word) : (setReg s off w).clockOn = s.clockOn := rfl
@[simp] theorem setReg_free (s : State) (off : Nat) (w : Word) : (setReg s off w).free = s.free := rfl
@[simp] theorem setReg_dev (s : State) (off : Nat) (w : Word) : (setReg s off w).dev = s.dev := rfl
@[simp] theorem setReg_inReset (s : State) (off : Nat) (w : Word) : (setReg s off w).inReset = s.inReset := rfl
@[simp] theorem setReg_devHold (s : State) (off : Nat) (w : Word) : (setReg s off w).devHold = s.devHold := rfl
@[simp] theorem setReg_fuse (s : State) (off : Nat) (w : Word) : (setReg s off w).fuse = s.fuse := rfl
@[simp] theorem setReg_pins (s : State) (off : Nat) (w : Word) : (setReg s off w).pins = s.pins := rfl
@[simp] theorem setReg_mgrRole (s : State) (off : Nat) (w : Word) : (setReg s off w).mgrRole = s.mgrRole := rfl
@[simp] theorem setReg_tiles (s : State) (off : Nat) (w : Word) : (setReg s off w).tiles = s.tiles := rfl
@[simp] theorem setReg_routers (s : State) (off : Nat) (w : Word) : (setReg s off w).routers = s.routers := rfl
@[simp] theorem setReg_gddr (s : State) (off : Nat) (w : Word) : (setReg s off w).gddr = s.gddr := rfl
@[simp] theorem setReg_ecc (s : State) (off : Nat) (w : Word) : (setReg s off w).ecc = s.ecc := rfl
@[simp] theorem setReg_regions (s : State) (off : Nat) (w : Word) : (setReg s off w).regions = s.regions := rfl
@[simp] theorem setReg_ctls (s : State) (off : Nat) (w : Word) : (setReg s off w).ctls = s.ctls := rfl
@[simp] theorem setReg_forward (s : State) (off : Nat) (w : Word) : (setReg s off w).forward = s.forward := rfl
@[simp] theorem setReg_forwarded (s : State) (off : Nat) (w : Word) : (setReg s off w).forwarded = s.forwarded := rfl
@[simp] theorem setReg_rooms (s : State) (off : Nat) (w : Word) : (setReg s off w).rooms = s.rooms := rfl
@[simp] theorem setReg_lend (s : State) (off : Nat) (w : Word) : (setReg s off w).lend = s.lend := rfl
@[simp] theorem setReg_streams (s : State) (off : Nat) (w : Word) : (setReg s off w).streams = s.streams := rfl
@[simp] theorem setReg_rgs (s : State) (off : Nat) (w : Word) : (setReg s off w).rgs = s.rgs := rfl
@[simp] theorem setReg_cen (s : State) (off : Nat) (w : Word) : (setReg s off w).cen = s.cen := rfl
@[simp] theorem setReg_host (s : State) (off : Nat) (w : Word) : (setReg s off w).host = s.host := rfl
@[simp] theorem setReg_keeper (s : State) (off : Nat) (w : Word) : (setReg s off w).keeper = s.keeper := rfl
@[simp] theorem setReg_spdm (s : State) (off : Nat) (w : Word) : (setReg s off w).spdm = s.spdm := rfl
@[simp] theorem setReg_pow (s : State) (off : Nat) (w : Word) : (setReg s off w).pow = s.pow := rfl
@[simp] theorem setReg_ports (s : State) (off : Nat) (w : Word) : (setReg s off w).ports = s.ports := rfl
@[simp] theorem setReg_route (s : State) (off : Nat) (w : Word) : (setReg s off w).route = s.route := rfl
@[simp] theorem setReg_linkOut (s : State) (off : Nat) (w : Word) : (setReg s off w).linkOut = s.linkOut := rfl
@[simp] theorem setReg_ckpt (s : State) (off : Nat) (w : Word) : (setReg s off w).ckpt = s.ckpt := rfl
@[simp] theorem setReg_mgr (s : State) (off : Nat) (w : Word) : (setReg s off w).mgr = s.mgr := rfl
@[simp] theorem setReg_chron (s : State) (off : Nat) (w : Word) : (setReg s off w).chron = s.chron := rfl

/-! ### setTile -/

@[simp] theorem setTile_pending (s : State) (x : Site) (t : Tile) : (s.setTile x t).pending = s.pending := rfl
@[simp] theorem setTile_cycle (s : State) (x : Site) (t : Tile) : (s.setTile x t).cycle = s.cycle := rfl
@[simp] theorem setTile_time (s : State) (x : Site) (t : Tile) : (s.setTile x t).time = s.time := rfl
@[simp] theorem setTile_phase (s : State) (x : Site) (t : Tile) : (s.setTile x t).phase = s.phase := rfl
@[simp] theorem setTile_clockStart (s : State) (x : Site) (t : Tile) : (s.setTile x t).clockStart = s.clockStart := rfl
@[simp] theorem setTile_clockOn (s : State) (x : Site) (t : Tile) : (s.setTile x t).clockOn = s.clockOn := rfl
@[simp] theorem setTile_free (s : State) (x : Site) (t : Tile) : (s.setTile x t).free = s.free := rfl
@[simp] theorem setTile_dev (s : State) (x : Site) (t : Tile) : (s.setTile x t).dev = s.dev := rfl
@[simp] theorem setTile_inReset (s : State) (x : Site) (t : Tile) : (s.setTile x t).inReset = s.inReset := rfl
@[simp] theorem setTile_devHold (s : State) (x : Site) (t : Tile) : (s.setTile x t).devHold = s.devHold := rfl
@[simp] theorem setTile_fuse (s : State) (x : Site) (t : Tile) : (s.setTile x t).fuse = s.fuse := rfl
@[simp] theorem setTile_pins (s : State) (x : Site) (t : Tile) : (s.setTile x t).pins = s.pins := rfl
@[simp] theorem setTile_mgrRole (s : State) (x : Site) (t : Tile) : (s.setTile x t).mgrRole = s.mgrRole := rfl
@[simp] theorem setTile_routers (s : State) (x : Site) (t : Tile) : (s.setTile x t).routers = s.routers := rfl
@[simp] theorem setTile_regs (s : State) (x : Site) (t : Tile) : (s.setTile x t).regs = s.regs := rfl
@[simp] theorem setTile_gddr (s : State) (x : Site) (t : Tile) : (s.setTile x t).gddr = s.gddr := rfl
@[simp] theorem setTile_ecc (s : State) (x : Site) (t : Tile) : (s.setTile x t).ecc = s.ecc := rfl
@[simp] theorem setTile_regions (s : State) (x : Site) (t : Tile) : (s.setTile x t).regions = s.regions := rfl
@[simp] theorem setTile_ctls (s : State) (x : Site) (t : Tile) : (s.setTile x t).ctls = s.ctls := rfl
@[simp] theorem setTile_forward (s : State) (x : Site) (t : Tile) : (s.setTile x t).forward = s.forward := rfl
@[simp] theorem setTile_forwarded (s : State) (x : Site) (t : Tile) : (s.setTile x t).forwarded = s.forwarded := rfl
@[simp] theorem setTile_rooms (s : State) (x : Site) (t : Tile) : (s.setTile x t).rooms = s.rooms := rfl
@[simp] theorem setTile_lend (s : State) (x : Site) (t : Tile) : (s.setTile x t).lend = s.lend := rfl
@[simp] theorem setTile_streams (s : State) (x : Site) (t : Tile) : (s.setTile x t).streams = s.streams := rfl
@[simp] theorem setTile_rgs (s : State) (x : Site) (t : Tile) : (s.setTile x t).rgs = s.rgs := rfl
@[simp] theorem setTile_cen (s : State) (x : Site) (t : Tile) : (s.setTile x t).cen = s.cen := rfl
@[simp] theorem setTile_host (s : State) (x : Site) (t : Tile) : (s.setTile x t).host = s.host := rfl
@[simp] theorem setTile_keeper (s : State) (x : Site) (t : Tile) : (s.setTile x t).keeper = s.keeper := rfl
@[simp] theorem setTile_spdm (s : State) (x : Site) (t : Tile) : (s.setTile x t).spdm = s.spdm := rfl
@[simp] theorem setTile_pow (s : State) (x : Site) (t : Tile) : (s.setTile x t).pow = s.pow := rfl
@[simp] theorem setTile_ports (s : State) (x : Site) (t : Tile) : (s.setTile x t).ports = s.ports := rfl
@[simp] theorem setTile_route (s : State) (x : Site) (t : Tile) : (s.setTile x t).route = s.route := rfl
@[simp] theorem setTile_linkOut (s : State) (x : Site) (t : Tile) : (s.setTile x t).linkOut = s.linkOut := rfl
@[simp] theorem setTile_ckpt (s : State) (x : Site) (t : Tile) : (s.setTile x t).ckpt = s.ckpt := rfl
@[simp] theorem setTile_mgr (s : State) (x : Site) (t : Tile) : (s.setTile x t).mgr = s.mgr := rfl
@[simp] theorem setTile_chron (s : State) (x : Site) (t : Tile) : (s.setTile x t).chron = s.chron := rfl

/-! ### drew -/

@[simp] theorem drew_pending (s : State) (n : Nat) : (drew s n).pending = s.pending := rfl
@[simp] theorem drew_cycle (s : State) (n : Nat) : (drew s n).cycle = s.cycle := rfl
@[simp] theorem drew_time (s : State) (n : Nat) : (drew s n).time = s.time := rfl
@[simp] theorem drew_phase (s : State) (n : Nat) : (drew s n).phase = s.phase := rfl
@[simp] theorem drew_clockStart (s : State) (n : Nat) : (drew s n).clockStart = s.clockStart := rfl
@[simp] theorem drew_clockOn (s : State) (n : Nat) : (drew s n).clockOn = s.clockOn := rfl
@[simp] theorem drew_dev (s : State) (n : Nat) : (drew s n).dev = s.dev := rfl
@[simp] theorem drew_inReset (s : State) (n : Nat) : (drew s n).inReset = s.inReset := rfl
@[simp] theorem drew_devHold (s : State) (n : Nat) : (drew s n).devHold = s.devHold := rfl
@[simp] theorem drew_fuse (s : State) (n : Nat) : (drew s n).fuse = s.fuse := rfl
@[simp] theorem drew_pins (s : State) (n : Nat) : (drew s n).pins = s.pins := rfl
@[simp] theorem drew_mgrRole (s : State) (n : Nat) : (drew s n).mgrRole = s.mgrRole := rfl
@[simp] theorem drew_tiles (s : State) (n : Nat) : (drew s n).tiles = s.tiles := rfl
@[simp] theorem drew_routers (s : State) (n : Nat) : (drew s n).routers = s.routers := rfl
@[simp] theorem drew_regs (s : State) (n : Nat) : (drew s n).regs = s.regs := rfl
@[simp] theorem drew_gddr (s : State) (n : Nat) : (drew s n).gddr = s.gddr := rfl
@[simp] theorem drew_ecc (s : State) (n : Nat) : (drew s n).ecc = s.ecc := rfl
@[simp] theorem drew_regions (s : State) (n : Nat) : (drew s n).regions = s.regions := rfl
@[simp] theorem drew_ctls (s : State) (n : Nat) : (drew s n).ctls = s.ctls := rfl
@[simp] theorem drew_forward (s : State) (n : Nat) : (drew s n).forward = s.forward := rfl
@[simp] theorem drew_forwarded (s : State) (n : Nat) : (drew s n).forwarded = s.forwarded := rfl
@[simp] theorem drew_rooms (s : State) (n : Nat) : (drew s n).rooms = s.rooms := rfl
@[simp] theorem drew_lend (s : State) (n : Nat) : (drew s n).lend = s.lend := rfl
@[simp] theorem drew_streams (s : State) (n : Nat) : (drew s n).streams = s.streams := rfl
@[simp] theorem drew_rgs (s : State) (n : Nat) : (drew s n).rgs = s.rgs := rfl
@[simp] theorem drew_cen (s : State) (n : Nat) : (drew s n).cen = s.cen := rfl
@[simp] theorem drew_host (s : State) (n : Nat) : (drew s n).host = s.host := rfl
@[simp] theorem drew_keeper (s : State) (n : Nat) : (drew s n).keeper = s.keeper := rfl
@[simp] theorem drew_spdm (s : State) (n : Nat) : (drew s n).spdm = s.spdm := rfl
@[simp] theorem drew_pow (s : State) (n : Nat) : (drew s n).pow = s.pow := rfl
@[simp] theorem drew_ports (s : State) (n : Nat) : (drew s n).ports = s.ports := rfl
@[simp] theorem drew_route (s : State) (n : Nat) : (drew s n).route = s.route := rfl
@[simp] theorem drew_linkOut (s : State) (n : Nat) : (drew s n).linkOut = s.linkOut := rfl
@[simp] theorem drew_ckpt (s : State) (n : Nat) : (drew s n).ckpt = s.ckpt := rfl
@[simp] theorem drew_mgr (s : State) (n : Nat) : (drew s n).mgr = s.mgr := rfl
@[simp] theorem drew_chron (s : State) (n : Nat) : (drew s n).chron = s.chron := rfl

/-! ### linkSend -/

@[simp] theorem linkSend_pending (s : State) (m : LinkMsg) : (linkSend s m).pending = s.pending := rfl
@[simp] theorem linkSend_cycle (s : State) (m : LinkMsg) : (linkSend s m).cycle = s.cycle := rfl
@[simp] theorem linkSend_time (s : State) (m : LinkMsg) : (linkSend s m).time = s.time := rfl
@[simp] theorem linkSend_phase (s : State) (m : LinkMsg) : (linkSend s m).phase = s.phase := rfl
@[simp] theorem linkSend_clockStart (s : State) (m : LinkMsg) : (linkSend s m).clockStart = s.clockStart := rfl
@[simp] theorem linkSend_clockOn (s : State) (m : LinkMsg) : (linkSend s m).clockOn = s.clockOn := rfl
@[simp] theorem linkSend_free (s : State) (m : LinkMsg) : (linkSend s m).free = s.free := rfl
@[simp] theorem linkSend_dev (s : State) (m : LinkMsg) : (linkSend s m).dev = s.dev := rfl
@[simp] theorem linkSend_inReset (s : State) (m : LinkMsg) : (linkSend s m).inReset = s.inReset := rfl
@[simp] theorem linkSend_devHold (s : State) (m : LinkMsg) : (linkSend s m).devHold = s.devHold := rfl
@[simp] theorem linkSend_fuse (s : State) (m : LinkMsg) : (linkSend s m).fuse = s.fuse := rfl
@[simp] theorem linkSend_pins (s : State) (m : LinkMsg) : (linkSend s m).pins = s.pins := rfl
@[simp] theorem linkSend_mgrRole (s : State) (m : LinkMsg) : (linkSend s m).mgrRole = s.mgrRole := rfl
@[simp] theorem linkSend_tiles (s : State) (m : LinkMsg) : (linkSend s m).tiles = s.tiles := rfl
@[simp] theorem linkSend_routers (s : State) (m : LinkMsg) : (linkSend s m).routers = s.routers := rfl
@[simp] theorem linkSend_regs (s : State) (m : LinkMsg) : (linkSend s m).regs = s.regs := rfl
@[simp] theorem linkSend_gddr (s : State) (m : LinkMsg) : (linkSend s m).gddr = s.gddr := rfl
@[simp] theorem linkSend_ecc (s : State) (m : LinkMsg) : (linkSend s m).ecc = s.ecc := rfl
@[simp] theorem linkSend_regions (s : State) (m : LinkMsg) : (linkSend s m).regions = s.regions := rfl
@[simp] theorem linkSend_ctls (s : State) (m : LinkMsg) : (linkSend s m).ctls = s.ctls := rfl
@[simp] theorem linkSend_forward (s : State) (m : LinkMsg) : (linkSend s m).forward = s.forward := rfl
@[simp] theorem linkSend_forwarded (s : State) (m : LinkMsg) : (linkSend s m).forwarded = s.forwarded := rfl
@[simp] theorem linkSend_rooms (s : State) (m : LinkMsg) : (linkSend s m).rooms = s.rooms := rfl
@[simp] theorem linkSend_lend (s : State) (m : LinkMsg) : (linkSend s m).lend = s.lend := rfl
@[simp] theorem linkSend_streams (s : State) (m : LinkMsg) : (linkSend s m).streams = s.streams := rfl
@[simp] theorem linkSend_rgs (s : State) (m : LinkMsg) : (linkSend s m).rgs = s.rgs := rfl
@[simp] theorem linkSend_cen (s : State) (m : LinkMsg) : (linkSend s m).cen = s.cen := rfl
@[simp] theorem linkSend_host (s : State) (m : LinkMsg) : (linkSend s m).host = s.host := rfl
@[simp] theorem linkSend_keeper (s : State) (m : LinkMsg) : (linkSend s m).keeper = s.keeper := rfl
@[simp] theorem linkSend_spdm (s : State) (m : LinkMsg) : (linkSend s m).spdm = s.spdm := rfl
@[simp] theorem linkSend_pow (s : State) (m : LinkMsg) : (linkSend s m).pow = s.pow := rfl
@[simp] theorem linkSend_ports (s : State) (m : LinkMsg) : (linkSend s m).ports = s.ports := rfl
@[simp] theorem linkSend_route (s : State) (m : LinkMsg) : (linkSend s m).route = s.route := rfl
@[simp] theorem linkSend_ckpt (s : State) (m : LinkMsg) : (linkSend s m).ckpt = s.ckpt := rfl
@[simp] theorem linkSend_mgr (s : State) (m : LinkMsg) : (linkSend s m).mgr = s.mgr := rfl
@[simp] theorem linkSend_chron (s : State) (m : LinkMsg) : (linkSend s m).chron = s.chron := rfl

/-! ### gddrWrite -/

@[simp] theorem gddrWrite_pending (s : State) (a : Nat) (d : List Byte) : (gddrWrite s a d).pending = s.pending := rfl
@[simp] theorem gddrWrite_cycle (s : State) (a : Nat) (d : List Byte) : (gddrWrite s a d).cycle = s.cycle := rfl
@[simp] theorem gddrWrite_time (s : State) (a : Nat) (d : List Byte) : (gddrWrite s a d).time = s.time := rfl
@[simp] theorem gddrWrite_phase (s : State) (a : Nat) (d : List Byte) : (gddrWrite s a d).phase = s.phase := rfl
@[simp] theorem gddrWrite_clockStart (s : State) (a : Nat) (d : List Byte) : (gddrWrite s a d).clockStart = s.clockStart := rfl
@[simp] theorem gddrWrite_clockOn (s : State) (a : Nat) (d : List Byte) : (gddrWrite s a d).clockOn = s.clockOn := rfl
@[simp] theorem gddrWrite_free (s : State) (a : Nat) (d : List Byte) : (gddrWrite s a d).free = s.free := rfl
@[simp] theorem gddrWrite_dev (s : State) (a : Nat) (d : List Byte) : (gddrWrite s a d).dev = s.dev := rfl
@[simp] theorem gddrWrite_inReset (s : State) (a : Nat) (d : List Byte) : (gddrWrite s a d).inReset = s.inReset := rfl
@[simp] theorem gddrWrite_devHold (s : State) (a : Nat) (d : List Byte) : (gddrWrite s a d).devHold = s.devHold := rfl
@[simp] theorem gddrWrite_fuse (s : State) (a : Nat) (d : List Byte) : (gddrWrite s a d).fuse = s.fuse := rfl
@[simp] theorem gddrWrite_pins (s : State) (a : Nat) (d : List Byte) : (gddrWrite s a d).pins = s.pins := rfl
@[simp] theorem gddrWrite_mgrRole (s : State) (a : Nat) (d : List Byte) : (gddrWrite s a d).mgrRole = s.mgrRole := rfl
@[simp] theorem gddrWrite_tiles (s : State) (a : Nat) (d : List Byte) : (gddrWrite s a d).tiles = s.tiles := rfl
@[simp] theorem gddrWrite_routers (s : State) (a : Nat) (d : List Byte) : (gddrWrite s a d).routers = s.routers := rfl
@[simp] theorem gddrWrite_regs (s : State) (a : Nat) (d : List Byte) : (gddrWrite s a d).regs = s.regs := rfl
@[simp] theorem gddrWrite_regions (s : State) (a : Nat) (d : List Byte) : (gddrWrite s a d).regions = s.regions := rfl
@[simp] theorem gddrWrite_ctls (s : State) (a : Nat) (d : List Byte) : (gddrWrite s a d).ctls = s.ctls := rfl
@[simp] theorem gddrWrite_forward (s : State) (a : Nat) (d : List Byte) : (gddrWrite s a d).forward = s.forward := rfl
@[simp] theorem gddrWrite_forwarded (s : State) (a : Nat) (d : List Byte) : (gddrWrite s a d).forwarded = s.forwarded := rfl
@[simp] theorem gddrWrite_rooms (s : State) (a : Nat) (d : List Byte) : (gddrWrite s a d).rooms = s.rooms := rfl
@[simp] theorem gddrWrite_lend (s : State) (a : Nat) (d : List Byte) : (gddrWrite s a d).lend = s.lend := rfl
@[simp] theorem gddrWrite_streams (s : State) (a : Nat) (d : List Byte) : (gddrWrite s a d).streams = s.streams := rfl
@[simp] theorem gddrWrite_rgs (s : State) (a : Nat) (d : List Byte) : (gddrWrite s a d).rgs = s.rgs := rfl
@[simp] theorem gddrWrite_cen (s : State) (a : Nat) (d : List Byte) : (gddrWrite s a d).cen = s.cen := rfl
@[simp] theorem gddrWrite_host (s : State) (a : Nat) (d : List Byte) : (gddrWrite s a d).host = s.host := rfl
@[simp] theorem gddrWrite_keeper (s : State) (a : Nat) (d : List Byte) : (gddrWrite s a d).keeper = s.keeper := rfl
@[simp] theorem gddrWrite_spdm (s : State) (a : Nat) (d : List Byte) : (gddrWrite s a d).spdm = s.spdm := rfl
@[simp] theorem gddrWrite_pow (s : State) (a : Nat) (d : List Byte) : (gddrWrite s a d).pow = s.pow := rfl
@[simp] theorem gddrWrite_ports (s : State) (a : Nat) (d : List Byte) : (gddrWrite s a d).ports = s.ports := rfl
@[simp] theorem gddrWrite_route (s : State) (a : Nat) (d : List Byte) : (gddrWrite s a d).route = s.route := rfl
@[simp] theorem gddrWrite_linkOut (s : State) (a : Nat) (d : List Byte) : (gddrWrite s a d).linkOut = s.linkOut := rfl
@[simp] theorem gddrWrite_ckpt (s : State) (a : Nat) (d : List Byte) : (gddrWrite s a d).ckpt = s.ckpt := rfl
@[simp] theorem gddrWrite_mgr (s : State) (a : Nat) (d : List Byte) : (gddrWrite s a d).mgr = s.mgr := rfl
@[simp] theorem gddrWrite_chron (s : State) (a : Nat) (d : List Byte) : (gddrWrite s a d).chron = s.chron := rfl

/-! ### span -/

@[simp] theorem span_pending (s : State) (dt : Nat) : (span s dt).pending = s.pending := rfl
@[simp] theorem span_clockStart (s : State) (dt : Nat) : (span s dt).clockStart = s.clockStart := rfl
@[simp] theorem span_clockOn (s : State) (dt : Nat) : (span s dt).clockOn = s.clockOn := rfl
@[simp] theorem span_free (s : State) (dt : Nat) : (span s dt).free = s.free := rfl
@[simp] theorem span_dev (s : State) (dt : Nat) : (span s dt).dev = s.dev := rfl
@[simp] theorem span_inReset (s : State) (dt : Nat) : (span s dt).inReset = s.inReset := rfl
@[simp] theorem span_devHold (s : State) (dt : Nat) : (span s dt).devHold = s.devHold := rfl
@[simp] theorem span_fuse (s : State) (dt : Nat) : (span s dt).fuse = s.fuse := rfl
@[simp] theorem span_pins (s : State) (dt : Nat) : (span s dt).pins = s.pins := rfl
@[simp] theorem span_mgrRole (s : State) (dt : Nat) : (span s dt).mgrRole = s.mgrRole := rfl
@[simp] theorem span_tiles (s : State) (dt : Nat) : (span s dt).tiles = s.tiles := rfl
@[simp] theorem span_routers (s : State) (dt : Nat) : (span s dt).routers = s.routers := rfl
@[simp] theorem span_regs (s : State) (dt : Nat) : (span s dt).regs = s.regs := rfl
@[simp] theorem span_gddr (s : State) (dt : Nat) : (span s dt).gddr = s.gddr := rfl
@[simp] theorem span_ecc (s : State) (dt : Nat) : (span s dt).ecc = s.ecc := rfl
@[simp] theorem span_regions (s : State) (dt : Nat) : (span s dt).regions = s.regions := rfl
@[simp] theorem span_ctls (s : State) (dt : Nat) : (span s dt).ctls = s.ctls := rfl
@[simp] theorem span_forward (s : State) (dt : Nat) : (span s dt).forward = s.forward := rfl
@[simp] theorem span_forwarded (s : State) (dt : Nat) : (span s dt).forwarded = s.forwarded := rfl
@[simp] theorem span_rooms (s : State) (dt : Nat) : (span s dt).rooms = s.rooms := rfl
@[simp] theorem span_lend (s : State) (dt : Nat) : (span s dt).lend = s.lend := rfl
@[simp] theorem span_streams (s : State) (dt : Nat) : (span s dt).streams = s.streams := rfl
@[simp] theorem span_rgs (s : State) (dt : Nat) : (span s dt).rgs = s.rgs := rfl
@[simp] theorem span_cen (s : State) (dt : Nat) : (span s dt).cen = s.cen := rfl
@[simp] theorem span_host (s : State) (dt : Nat) : (span s dt).host = s.host := rfl
@[simp] theorem span_keeper (s : State) (dt : Nat) : (span s dt).keeper = s.keeper := rfl
@[simp] theorem span_spdm (s : State) (dt : Nat) : (span s dt).spdm = s.spdm := rfl
@[simp] theorem span_pow (s : State) (dt : Nat) : (span s dt).pow = s.pow := rfl
@[simp] theorem span_ports (s : State) (dt : Nat) : (span s dt).ports = s.ports := rfl
@[simp] theorem span_route (s : State) (dt : Nat) : (span s dt).route = s.route := rfl
@[simp] theorem span_linkOut (s : State) (dt : Nat) : (span s dt).linkOut = s.linkOut := rfl
@[simp] theorem span_ckpt (s : State) (dt : Nat) : (span s dt).ckpt = s.ckpt := rfl
@[simp] theorem span_mgr (s : State) (dt : Nat) : (span s dt).mgr = s.mgr := rfl

/-! ### toEdge -/

@[simp] theorem toEdge_pending (s : State) (t : Nat) : (toEdge s t).pending = s.pending := by unfold toEdge; split <;> rfl
@[simp] theorem toEdge_clockStart (s : State) (t : Nat) : (toEdge s t).clockStart = s.clockStart := by unfold toEdge; split <;> rfl
@[simp] theorem toEdge_clockOn (s : State) (t : Nat) : (toEdge s t).clockOn = s.clockOn := by unfold toEdge; split <;> rfl
@[simp] theorem toEdge_free (s : State) (t : Nat) : (toEdge s t).free = s.free := by unfold toEdge; split <;> rfl
@[simp] theorem toEdge_dev (s : State) (t : Nat) : (toEdge s t).dev = s.dev := by unfold toEdge; split <;> rfl
@[simp] theorem toEdge_inReset (s : State) (t : Nat) : (toEdge s t).inReset = s.inReset := by unfold toEdge; split <;> rfl
@[simp] theorem toEdge_devHold (s : State) (t : Nat) : (toEdge s t).devHold = s.devHold := by unfold toEdge; split <;> rfl
@[simp] theorem toEdge_fuse (s : State) (t : Nat) : (toEdge s t).fuse = s.fuse := by unfold toEdge; split <;> rfl
@[simp] theorem toEdge_pins (s : State) (t : Nat) : (toEdge s t).pins = s.pins := by unfold toEdge; split <;> rfl
@[simp] theorem toEdge_mgrRole (s : State) (t : Nat) : (toEdge s t).mgrRole = s.mgrRole := by unfold toEdge; split <;> rfl
@[simp] theorem toEdge_tiles (s : State) (t : Nat) : (toEdge s t).tiles = s.tiles := by unfold toEdge; split <;> rfl
@[simp] theorem toEdge_routers (s : State) (t : Nat) : (toEdge s t).routers = s.routers := by unfold toEdge; split <;> rfl
@[simp] theorem toEdge_regs (s : State) (t : Nat) : (toEdge s t).regs = s.regs := by unfold toEdge; split <;> rfl
@[simp] theorem toEdge_gddr (s : State) (t : Nat) : (toEdge s t).gddr = s.gddr := by unfold toEdge; split <;> rfl
@[simp] theorem toEdge_ecc (s : State) (t : Nat) : (toEdge s t).ecc = s.ecc := by unfold toEdge; split <;> rfl
@[simp] theorem toEdge_regions (s : State) (t : Nat) : (toEdge s t).regions = s.regions := by unfold toEdge; split <;> rfl
@[simp] theorem toEdge_ctls (s : State) (t : Nat) : (toEdge s t).ctls = s.ctls := by unfold toEdge; split <;> rfl
@[simp] theorem toEdge_forward (s : State) (t : Nat) : (toEdge s t).forward = s.forward := by unfold toEdge; split <;> rfl
@[simp] theorem toEdge_forwarded (s : State) (t : Nat) : (toEdge s t).forwarded = s.forwarded := by unfold toEdge; split <;> rfl
@[simp] theorem toEdge_rooms (s : State) (t : Nat) : (toEdge s t).rooms = s.rooms := by unfold toEdge; split <;> rfl
@[simp] theorem toEdge_lend (s : State) (t : Nat) : (toEdge s t).lend = s.lend := by unfold toEdge; split <;> rfl
@[simp] theorem toEdge_streams (s : State) (t : Nat) : (toEdge s t).streams = s.streams := by unfold toEdge; split <;> rfl
@[simp] theorem toEdge_rgs (s : State) (t : Nat) : (toEdge s t).rgs = s.rgs := by unfold toEdge; split <;> rfl
@[simp] theorem toEdge_cen (s : State) (t : Nat) : (toEdge s t).cen = s.cen := by unfold toEdge; split <;> rfl
@[simp] theorem toEdge_host (s : State) (t : Nat) : (toEdge s t).host = s.host := by unfold toEdge; split <;> rfl
@[simp] theorem toEdge_keeper (s : State) (t : Nat) : (toEdge s t).keeper = s.keeper := by unfold toEdge; split <;> rfl
@[simp] theorem toEdge_spdm (s : State) (t : Nat) : (toEdge s t).spdm = s.spdm := by unfold toEdge; split <;> rfl
@[simp] theorem toEdge_pow (s : State) (t : Nat) : (toEdge s t).pow = s.pow := by unfold toEdge; split <;> rfl
@[simp] theorem toEdge_ports (s : State) (t : Nat) : (toEdge s t).ports = s.ports := by unfold toEdge; split <;> rfl
@[simp] theorem toEdge_route (s : State) (t : Nat) : (toEdge s t).route = s.route := by unfold toEdge; split <;> rfl
@[simp] theorem toEdge_linkOut (s : State) (t : Nat) : (toEdge s t).linkOut = s.linkOut := by unfold toEdge; split <;> rfl
@[simp] theorem toEdge_ckpt (s : State) (t : Nat) : (toEdge s t).ckpt = s.ckpt := by unfold toEdge; split <;> rfl
@[simp] theorem toEdge_mgr (s : State) (t : Nat) : (toEdge s t).mgr = s.mgr := by unfold toEdge; split <;> rfl

/-! ### toCycle -/

@[simp] theorem toCycle_pending (s : State) (c : Nat) : (toCycle s c).pending = s.pending := by unfold toCycle; split <;> simp
@[simp] theorem toCycle_clockStart (s : State) (c : Nat) : (toCycle s c).clockStart = s.clockStart := by unfold toCycle; split <;> simp
@[simp] theorem toCycle_clockOn (s : State) (c : Nat) : (toCycle s c).clockOn = s.clockOn := by unfold toCycle; split <;> simp
@[simp] theorem toCycle_free (s : State) (c : Nat) : (toCycle s c).free = s.free := by unfold toCycle; split <;> simp
@[simp] theorem toCycle_dev (s : State) (c : Nat) : (toCycle s c).dev = s.dev := by unfold toCycle; split <;> simp
@[simp] theorem toCycle_inReset (s : State) (c : Nat) : (toCycle s c).inReset = s.inReset := by unfold toCycle; split <;> simp
@[simp] theorem toCycle_devHold (s : State) (c : Nat) : (toCycle s c).devHold = s.devHold := by unfold toCycle; split <;> simp
@[simp] theorem toCycle_fuse (s : State) (c : Nat) : (toCycle s c).fuse = s.fuse := by unfold toCycle; split <;> simp
@[simp] theorem toCycle_pins (s : State) (c : Nat) : (toCycle s c).pins = s.pins := by unfold toCycle; split <;> simp
@[simp] theorem toCycle_mgrRole (s : State) (c : Nat) : (toCycle s c).mgrRole = s.mgrRole := by unfold toCycle; split <;> simp
@[simp] theorem toCycle_tiles (s : State) (c : Nat) : (toCycle s c).tiles = s.tiles := by unfold toCycle; split <;> simp
@[simp] theorem toCycle_routers (s : State) (c : Nat) : (toCycle s c).routers = s.routers := by unfold toCycle; split <;> simp
@[simp] theorem toCycle_regs (s : State) (c : Nat) : (toCycle s c).regs = s.regs := by unfold toCycle; split <;> simp
@[simp] theorem toCycle_gddr (s : State) (c : Nat) : (toCycle s c).gddr = s.gddr := by unfold toCycle; split <;> simp
@[simp] theorem toCycle_ecc (s : State) (c : Nat) : (toCycle s c).ecc = s.ecc := by unfold toCycle; split <;> simp
@[simp] theorem toCycle_regions (s : State) (c : Nat) : (toCycle s c).regions = s.regions := by unfold toCycle; split <;> simp
@[simp] theorem toCycle_ctls (s : State) (c : Nat) : (toCycle s c).ctls = s.ctls := by unfold toCycle; split <;> simp
@[simp] theorem toCycle_forward (s : State) (c : Nat) : (toCycle s c).forward = s.forward := by unfold toCycle; split <;> simp
@[simp] theorem toCycle_forwarded (s : State) (c : Nat) : (toCycle s c).forwarded = s.forwarded := by unfold toCycle; split <;> simp
@[simp] theorem toCycle_rooms (s : State) (c : Nat) : (toCycle s c).rooms = s.rooms := by unfold toCycle; split <;> simp
@[simp] theorem toCycle_lend (s : State) (c : Nat) : (toCycle s c).lend = s.lend := by unfold toCycle; split <;> simp
@[simp] theorem toCycle_streams (s : State) (c : Nat) : (toCycle s c).streams = s.streams := by unfold toCycle; split <;> simp
@[simp] theorem toCycle_rgs (s : State) (c : Nat) : (toCycle s c).rgs = s.rgs := by unfold toCycle; split <;> simp
@[simp] theorem toCycle_cen (s : State) (c : Nat) : (toCycle s c).cen = s.cen := by unfold toCycle; split <;> simp
@[simp] theorem toCycle_host (s : State) (c : Nat) : (toCycle s c).host = s.host := by unfold toCycle; split <;> simp
@[simp] theorem toCycle_keeper (s : State) (c : Nat) : (toCycle s c).keeper = s.keeper := by unfold toCycle; split <;> simp
@[simp] theorem toCycle_spdm (s : State) (c : Nat) : (toCycle s c).spdm = s.spdm := by unfold toCycle; split <;> simp
@[simp] theorem toCycle_pow (s : State) (c : Nat) : (toCycle s c).pow = s.pow := by unfold toCycle; split <;> simp
@[simp] theorem toCycle_ports (s : State) (c : Nat) : (toCycle s c).ports = s.ports := by unfold toCycle; split <;> simp
@[simp] theorem toCycle_route (s : State) (c : Nat) : (toCycle s c).route = s.route := by unfold toCycle; split <;> simp
@[simp] theorem toCycle_linkOut (s : State) (c : Nat) : (toCycle s c).linkOut = s.linkOut := by unfold toCycle; split <;> simp
@[simp] theorem toCycle_ckpt (s : State) (c : Nat) : (toCycle s c).ckpt = s.ckpt := by unfold toCycle; split <;> simp
@[simp] theorem toCycle_mgr (s : State) (c : Nat) : (toCycle s c).mgr = s.mgr := by unfold toCycle; split <;> simp

/-! ### stir -/

@[simp] theorem stir_pending (s : State) : (stir s).pending = s.pending := rfl
@[simp] theorem stir_cycle (s : State) : (stir s).cycle = s.cycle := rfl
@[simp] theorem stir_time (s : State) : (stir s).time = s.time := rfl
@[simp] theorem stir_phase (s : State) : (stir s).phase = s.phase := rfl
@[simp] theorem stir_clockStart (s : State) : (stir s).clockStart = s.clockStart := rfl
@[simp] theorem stir_clockOn (s : State) : (stir s).clockOn = s.clockOn := rfl
@[simp] theorem stir_free (s : State) : (stir s).free = s.free := rfl
@[simp] theorem stir_dev (s : State) : (stir s).dev = s.dev := rfl
@[simp] theorem stir_inReset (s : State) : (stir s).inReset = s.inReset := rfl
@[simp] theorem stir_devHold (s : State) : (stir s).devHold = s.devHold := rfl
@[simp] theorem stir_fuse (s : State) : (stir s).fuse = s.fuse := rfl
@[simp] theorem stir_pins (s : State) : (stir s).pins = s.pins := rfl
@[simp] theorem stir_mgrRole (s : State) : (stir s).mgrRole = s.mgrRole := rfl
@[simp] theorem stir_tiles (s : State) : (stir s).tiles = s.tiles := rfl
@[simp] theorem stir_routers (s : State) : (stir s).routers = s.routers := rfl
@[simp] theorem stir_regs (s : State) : (stir s).regs = s.regs := rfl
@[simp] theorem stir_gddr (s : State) : (stir s).gddr = s.gddr := rfl
@[simp] theorem stir_ecc (s : State) : (stir s).ecc = s.ecc := rfl
@[simp] theorem stir_regions (s : State) : (stir s).regions = s.regions := rfl
@[simp] theorem stir_ctls (s : State) : (stir s).ctls = s.ctls := rfl
@[simp] theorem stir_forward (s : State) : (stir s).forward = s.forward := rfl
@[simp] theorem stir_forwarded (s : State) : (stir s).forwarded = s.forwarded := rfl
@[simp] theorem stir_rooms (s : State) : (stir s).rooms = s.rooms := rfl
@[simp] theorem stir_lend (s : State) : (stir s).lend = s.lend := rfl
@[simp] theorem stir_streams (s : State) : (stir s).streams = s.streams := rfl
@[simp] theorem stir_rgs (s : State) : (stir s).rgs = s.rgs := rfl
@[simp] theorem stir_cen (s : State) : (stir s).cen = s.cen := rfl
@[simp] theorem stir_host (s : State) : (stir s).host = s.host := rfl
@[simp] theorem stir_keeper (s : State) : (stir s).keeper = s.keeper := rfl
@[simp] theorem stir_spdm (s : State) : (stir s).spdm = s.spdm := rfl
@[simp] theorem stir_ports (s : State) : (stir s).ports = s.ports := rfl
@[simp] theorem stir_route (s : State) : (stir s).route = s.route := rfl
@[simp] theorem stir_linkOut (s : State) : (stir s).linkOut = s.linkOut := rfl
@[simp] theorem stir_ckpt (s : State) : (stir s).ckpt = s.ckpt := rfl
@[simp] theorem stir_mgr (s : State) : (stir s).mgr = s.mgr := rfl
@[simp] theorem stir_chron (s : State) : (stir s).chron = s.chron := rfl

/-! ### toTime -/

@[simp] theorem toTime_pending (s : State) (c : Nat) : (toTime s c).pending = s.pending := by unfold toTime; split <;> simp
@[simp] theorem toTime_clockStart (s : State) (c : Nat) : (toTime s c).clockStart = s.clockStart := by unfold toTime; split <;> simp
@[simp] theorem toTime_clockOn (s : State) (c : Nat) : (toTime s c).clockOn = s.clockOn := by unfold toTime; split <;> simp
@[simp] theorem toTime_free (s : State) (c : Nat) : (toTime s c).free = s.free := by unfold toTime; split <;> simp
@[simp] theorem toTime_dev (s : State) (c : Nat) : (toTime s c).dev = s.dev := by unfold toTime; split <;> simp
@[simp] theorem toTime_inReset (s : State) (c : Nat) : (toTime s c).inReset = s.inReset := by unfold toTime; split <;> simp
@[simp] theorem toTime_devHold (s : State) (c : Nat) : (toTime s c).devHold = s.devHold := by unfold toTime; split <;> simp
@[simp] theorem toTime_fuse (s : State) (c : Nat) : (toTime s c).fuse = s.fuse := by unfold toTime; split <;> simp
@[simp] theorem toTime_pins (s : State) (c : Nat) : (toTime s c).pins = s.pins := by unfold toTime; split <;> simp
@[simp] theorem toTime_mgrRole (s : State) (c : Nat) : (toTime s c).mgrRole = s.mgrRole := by unfold toTime; split <;> simp
@[simp] theorem toTime_tiles (s : State) (c : Nat) : (toTime s c).tiles = s.tiles := by unfold toTime; split <;> simp
@[simp] theorem toTime_routers (s : State) (c : Nat) : (toTime s c).routers = s.routers := by unfold toTime; split <;> simp
@[simp] theorem toTime_regs (s : State) (c : Nat) : (toTime s c).regs = s.regs := by unfold toTime; split <;> simp
@[simp] theorem toTime_gddr (s : State) (c : Nat) : (toTime s c).gddr = s.gddr := by unfold toTime; split <;> simp
@[simp] theorem toTime_ecc (s : State) (c : Nat) : (toTime s c).ecc = s.ecc := by unfold toTime; split <;> simp
@[simp] theorem toTime_regions (s : State) (c : Nat) : (toTime s c).regions = s.regions := by unfold toTime; split <;> simp
@[simp] theorem toTime_ctls (s : State) (c : Nat) : (toTime s c).ctls = s.ctls := by unfold toTime; split <;> simp
@[simp] theorem toTime_forward (s : State) (c : Nat) : (toTime s c).forward = s.forward := by unfold toTime; split <;> simp
@[simp] theorem toTime_forwarded (s : State) (c : Nat) : (toTime s c).forwarded = s.forwarded := by unfold toTime; split <;> simp
@[simp] theorem toTime_rooms (s : State) (c : Nat) : (toTime s c).rooms = s.rooms := by unfold toTime; split <;> simp
@[simp] theorem toTime_lend (s : State) (c : Nat) : (toTime s c).lend = s.lend := by unfold toTime; split <;> simp
@[simp] theorem toTime_streams (s : State) (c : Nat) : (toTime s c).streams = s.streams := by unfold toTime; split <;> simp
@[simp] theorem toTime_rgs (s : State) (c : Nat) : (toTime s c).rgs = s.rgs := by unfold toTime; split <;> simp
@[simp] theorem toTime_cen (s : State) (c : Nat) : (toTime s c).cen = s.cen := by unfold toTime; split <;> simp
@[simp] theorem toTime_host (s : State) (c : Nat) : (toTime s c).host = s.host := by unfold toTime; split <;> simp
@[simp] theorem toTime_keeper (s : State) (c : Nat) : (toTime s c).keeper = s.keeper := by unfold toTime; split <;> simp
@[simp] theorem toTime_spdm (s : State) (c : Nat) : (toTime s c).spdm = s.spdm := by unfold toTime; split <;> simp
@[simp] theorem toTime_pow (s : State) (c : Nat) : (toTime s c).pow = s.pow := by unfold toTime; split <;> simp
@[simp] theorem toTime_ports (s : State) (c : Nat) : (toTime s c).ports = s.ports := by unfold toTime; split <;> simp
@[simp] theorem toTime_route (s : State) (c : Nat) : (toTime s c).route = s.route := by unfold toTime; split <;> simp
@[simp] theorem toTime_linkOut (s : State) (c : Nat) : (toTime s c).linkOut = s.linkOut := by unfold toTime; split <;> simp
@[simp] theorem toTime_ckpt (s : State) (c : Nat) : (toTime s c).ckpt = s.ckpt := by unfold toTime; split <;> simp
@[simp] theorem toTime_mgr (s : State) (c : Nat) : (toTime s c).mgr = s.mgr := by unfold toTime; split <;> simp

/-! ### sendVector -/

@[simp] theorem sendVector_pending (s : State) (v : Nat) : (sendVector s v).pending = s.pending := by unfold sendVector; repeat (first | rfl | split)
@[simp] theorem sendVector_cycle (s : State) (v : Nat) : (sendVector s v).cycle = s.cycle := by unfold sendVector; repeat (first | rfl | split)
@[simp] theorem sendVector_time (s : State) (v : Nat) : (sendVector s v).time = s.time := by unfold sendVector; repeat (first | rfl | split)
@[simp] theorem sendVector_phase (s : State) (v : Nat) : (sendVector s v).phase = s.phase := by unfold sendVector; repeat (first | rfl | split)
@[simp] theorem sendVector_clockStart (s : State) (v : Nat) : (sendVector s v).clockStart = s.clockStart := by unfold sendVector; repeat (first | rfl | split)
@[simp] theorem sendVector_clockOn (s : State) (v : Nat) : (sendVector s v).clockOn = s.clockOn := by unfold sendVector; repeat (first | rfl | split)
@[simp] theorem sendVector_free (s : State) (v : Nat) : (sendVector s v).free = s.free := by unfold sendVector; repeat (first | rfl | split)
@[simp] theorem sendVector_dev (s : State) (v : Nat) : (sendVector s v).dev = s.dev := by unfold sendVector; repeat (first | rfl | split)
@[simp] theorem sendVector_inReset (s : State) (v : Nat) : (sendVector s v).inReset = s.inReset := by unfold sendVector; repeat (first | rfl | split)
@[simp] theorem sendVector_devHold (s : State) (v : Nat) : (sendVector s v).devHold = s.devHold := by unfold sendVector; repeat (first | rfl | split)
@[simp] theorem sendVector_fuse (s : State) (v : Nat) : (sendVector s v).fuse = s.fuse := by unfold sendVector; repeat (first | rfl | split)
@[simp] theorem sendVector_pins (s : State) (v : Nat) : (sendVector s v).pins = s.pins := by unfold sendVector; repeat (first | rfl | split)
@[simp] theorem sendVector_mgrRole (s : State) (v : Nat) : (sendVector s v).mgrRole = s.mgrRole := by unfold sendVector; repeat (first | rfl | split)
@[simp] theorem sendVector_tiles (s : State) (v : Nat) : (sendVector s v).tiles = s.tiles := by unfold sendVector; repeat (first | rfl | split)
@[simp] theorem sendVector_routers (s : State) (v : Nat) : (sendVector s v).routers = s.routers := by unfold sendVector; repeat (first | rfl | split)
@[simp] theorem sendVector_regs (s : State) (v : Nat) : (sendVector s v).regs = s.regs := by unfold sendVector; repeat (first | rfl | split)
@[simp] theorem sendVector_gddr (s : State) (v : Nat) : (sendVector s v).gddr = s.gddr := by unfold sendVector; repeat (first | rfl | split)
@[simp] theorem sendVector_ecc (s : State) (v : Nat) : (sendVector s v).ecc = s.ecc := by unfold sendVector; repeat (first | rfl | split)
@[simp] theorem sendVector_regions (s : State) (v : Nat) : (sendVector s v).regions = s.regions := by unfold sendVector; repeat (first | rfl | split)
@[simp] theorem sendVector_ctls (s : State) (v : Nat) : (sendVector s v).ctls = s.ctls := by unfold sendVector; repeat (first | rfl | split)
@[simp] theorem sendVector_forward (s : State) (v : Nat) : (sendVector s v).forward = s.forward := by unfold sendVector; repeat (first | rfl | split)
@[simp] theorem sendVector_forwarded (s : State) (v : Nat) : (sendVector s v).forwarded = s.forwarded := by unfold sendVector; repeat (first | rfl | split)
@[simp] theorem sendVector_rooms (s : State) (v : Nat) : (sendVector s v).rooms = s.rooms := by unfold sendVector; repeat (first | rfl | split)
@[simp] theorem sendVector_lend (s : State) (v : Nat) : (sendVector s v).lend = s.lend := by unfold sendVector; repeat (first | rfl | split)
@[simp] theorem sendVector_streams (s : State) (v : Nat) : (sendVector s v).streams = s.streams := by unfold sendVector; repeat (first | rfl | split)
@[simp] theorem sendVector_rgs (s : State) (v : Nat) : (sendVector s v).rgs = s.rgs := by unfold sendVector; repeat (first | rfl | split)
@[simp] theorem sendVector_cen (s : State) (v : Nat) : (sendVector s v).cen = s.cen := by unfold sendVector; repeat (first | rfl | split)
@[simp] theorem sendVector_keeper (s : State) (v : Nat) : (sendVector s v).keeper = s.keeper := by unfold sendVector; repeat (first | rfl | split)
@[simp] theorem sendVector_spdm (s : State) (v : Nat) : (sendVector s v).spdm = s.spdm := by unfold sendVector; repeat (first | rfl | split)
@[simp] theorem sendVector_pow (s : State) (v : Nat) : (sendVector s v).pow = s.pow := by unfold sendVector; repeat (first | rfl | split)
@[simp] theorem sendVector_ports (s : State) (v : Nat) : (sendVector s v).ports = s.ports := by unfold sendVector; repeat (first | rfl | split)
@[simp] theorem sendVector_route (s : State) (v : Nat) : (sendVector s v).route = s.route := by unfold sendVector; repeat (first | rfl | split)
@[simp] theorem sendVector_linkOut (s : State) (v : Nat) : (sendVector s v).linkOut = s.linkOut := by unfold sendVector; repeat (first | rfl | split)
@[simp] theorem sendVector_ckpt (s : State) (v : Nat) : (sendVector s v).ckpt = s.ckpt := by unfold sendVector; repeat (first | rfl | split)
@[simp] theorem sendVector_mgr (s : State) (v : Nat) : (sendVector s v).mgr = s.mgr := by unfold sendVector; repeat (first | rfl | split)
@[simp] theorem sendVector_chron (s : State) (v : Nat) : (sendVector s v).chron = s.chron := by unfold sendVector; repeat (first | rfl | split)

/-! ### followVectors and setIstat -/

@[simp] theorem followVectors_pending (b : Bool) (vs : List Nat) : ∀ s : State, (followVectors b s vs).pending = s.pending := by
  induction vs with
  | nil => intro s; rfl
  | cons v vs ih => intro s; simp only [followVectors, ih]; (repeat' split) <;> simp [quietVector]
@[simp] theorem followVectors_cycle (b : Bool) (vs : List Nat) : ∀ s : State, (followVectors b s vs).cycle = s.cycle := by
  induction vs with
  | nil => intro s; rfl
  | cons v vs ih => intro s; simp only [followVectors, ih]; (repeat' split) <;> simp [quietVector]
@[simp] theorem followVectors_time (b : Bool) (vs : List Nat) : ∀ s : State, (followVectors b s vs).time = s.time := by
  induction vs with
  | nil => intro s; rfl
  | cons v vs ih => intro s; simp only [followVectors, ih]; (repeat' split) <;> simp [quietVector]
@[simp] theorem followVectors_phase (b : Bool) (vs : List Nat) : ∀ s : State, (followVectors b s vs).phase = s.phase := by
  induction vs with
  | nil => intro s; rfl
  | cons v vs ih => intro s; simp only [followVectors, ih]; (repeat' split) <;> simp [quietVector]
@[simp] theorem followVectors_clockStart (b : Bool) (vs : List Nat) : ∀ s : State, (followVectors b s vs).clockStart = s.clockStart := by
  induction vs with
  | nil => intro s; rfl
  | cons v vs ih => intro s; simp only [followVectors, ih]; (repeat' split) <;> simp [quietVector]
@[simp] theorem followVectors_clockOn (b : Bool) (vs : List Nat) : ∀ s : State, (followVectors b s vs).clockOn = s.clockOn := by
  induction vs with
  | nil => intro s; rfl
  | cons v vs ih => intro s; simp only [followVectors, ih]; (repeat' split) <;> simp [quietVector]
@[simp] theorem followVectors_free (b : Bool) (vs : List Nat) : ∀ s : State, (followVectors b s vs).free = s.free := by
  induction vs with
  | nil => intro s; rfl
  | cons v vs ih => intro s; simp only [followVectors, ih]; (repeat' split) <;> simp [quietVector]
@[simp] theorem followVectors_dev (b : Bool) (vs : List Nat) : ∀ s : State, (followVectors b s vs).dev = s.dev := by
  induction vs with
  | nil => intro s; rfl
  | cons v vs ih => intro s; simp only [followVectors, ih]; (repeat' split) <;> simp [quietVector]
@[simp] theorem followVectors_inReset (b : Bool) (vs : List Nat) : ∀ s : State, (followVectors b s vs).inReset = s.inReset := by
  induction vs with
  | nil => intro s; rfl
  | cons v vs ih => intro s; simp only [followVectors, ih]; (repeat' split) <;> simp [quietVector]
@[simp] theorem followVectors_devHold (b : Bool) (vs : List Nat) : ∀ s : State, (followVectors b s vs).devHold = s.devHold := by
  induction vs with
  | nil => intro s; rfl
  | cons v vs ih => intro s; simp only [followVectors, ih]; (repeat' split) <;> simp [quietVector]
@[simp] theorem followVectors_fuse (b : Bool) (vs : List Nat) : ∀ s : State, (followVectors b s vs).fuse = s.fuse := by
  induction vs with
  | nil => intro s; rfl
  | cons v vs ih => intro s; simp only [followVectors, ih]; (repeat' split) <;> simp [quietVector]
@[simp] theorem followVectors_pins (b : Bool) (vs : List Nat) : ∀ s : State, (followVectors b s vs).pins = s.pins := by
  induction vs with
  | nil => intro s; rfl
  | cons v vs ih => intro s; simp only [followVectors, ih]; (repeat' split) <;> simp [quietVector]
@[simp] theorem followVectors_mgrRole (b : Bool) (vs : List Nat) : ∀ s : State, (followVectors b s vs).mgrRole = s.mgrRole := by
  induction vs with
  | nil => intro s; rfl
  | cons v vs ih => intro s; simp only [followVectors, ih]; (repeat' split) <;> simp [quietVector]
@[simp] theorem followVectors_tiles (b : Bool) (vs : List Nat) : ∀ s : State, (followVectors b s vs).tiles = s.tiles := by
  induction vs with
  | nil => intro s; rfl
  | cons v vs ih => intro s; simp only [followVectors, ih]; (repeat' split) <;> simp [quietVector]
@[simp] theorem followVectors_routers (b : Bool) (vs : List Nat) : ∀ s : State, (followVectors b s vs).routers = s.routers := by
  induction vs with
  | nil => intro s; rfl
  | cons v vs ih => intro s; simp only [followVectors, ih]; (repeat' split) <;> simp [quietVector]
@[simp] theorem followVectors_regs (b : Bool) (vs : List Nat) : ∀ s : State, (followVectors b s vs).regs = s.regs := by
  induction vs with
  | nil => intro s; rfl
  | cons v vs ih => intro s; simp only [followVectors, ih]; (repeat' split) <;> simp [quietVector]
@[simp] theorem followVectors_gddr (b : Bool) (vs : List Nat) : ∀ s : State, (followVectors b s vs).gddr = s.gddr := by
  induction vs with
  | nil => intro s; rfl
  | cons v vs ih => intro s; simp only [followVectors, ih]; (repeat' split) <;> simp [quietVector]
@[simp] theorem followVectors_ecc (b : Bool) (vs : List Nat) : ∀ s : State, (followVectors b s vs).ecc = s.ecc := by
  induction vs with
  | nil => intro s; rfl
  | cons v vs ih => intro s; simp only [followVectors, ih]; (repeat' split) <;> simp [quietVector]
@[simp] theorem followVectors_regions (b : Bool) (vs : List Nat) : ∀ s : State, (followVectors b s vs).regions = s.regions := by
  induction vs with
  | nil => intro s; rfl
  | cons v vs ih => intro s; simp only [followVectors, ih]; (repeat' split) <;> simp [quietVector]
@[simp] theorem followVectors_ctls (b : Bool) (vs : List Nat) : ∀ s : State, (followVectors b s vs).ctls = s.ctls := by
  induction vs with
  | nil => intro s; rfl
  | cons v vs ih => intro s; simp only [followVectors, ih]; (repeat' split) <;> simp [quietVector]
@[simp] theorem followVectors_forward (b : Bool) (vs : List Nat) : ∀ s : State, (followVectors b s vs).forward = s.forward := by
  induction vs with
  | nil => intro s; rfl
  | cons v vs ih => intro s; simp only [followVectors, ih]; (repeat' split) <;> simp [quietVector]
@[simp] theorem followVectors_forwarded (b : Bool) (vs : List Nat) : ∀ s : State, (followVectors b s vs).forwarded = s.forwarded := by
  induction vs with
  | nil => intro s; rfl
  | cons v vs ih => intro s; simp only [followVectors, ih]; (repeat' split) <;> simp [quietVector]
@[simp] theorem followVectors_rooms (b : Bool) (vs : List Nat) : ∀ s : State, (followVectors b s vs).rooms = s.rooms := by
  induction vs with
  | nil => intro s; rfl
  | cons v vs ih => intro s; simp only [followVectors, ih]; (repeat' split) <;> simp [quietVector]
@[simp] theorem followVectors_lend (b : Bool) (vs : List Nat) : ∀ s : State, (followVectors b s vs).lend = s.lend := by
  induction vs with
  | nil => intro s; rfl
  | cons v vs ih => intro s; simp only [followVectors, ih]; (repeat' split) <;> simp [quietVector]
@[simp] theorem followVectors_streams (b : Bool) (vs : List Nat) : ∀ s : State, (followVectors b s vs).streams = s.streams := by
  induction vs with
  | nil => intro s; rfl
  | cons v vs ih => intro s; simp only [followVectors, ih]; (repeat' split) <;> simp [quietVector]
@[simp] theorem followVectors_rgs (b : Bool) (vs : List Nat) : ∀ s : State, (followVectors b s vs).rgs = s.rgs := by
  induction vs with
  | nil => intro s; rfl
  | cons v vs ih => intro s; simp only [followVectors, ih]; (repeat' split) <;> simp [quietVector]
@[simp] theorem followVectors_cen (b : Bool) (vs : List Nat) : ∀ s : State, (followVectors b s vs).cen = s.cen := by
  induction vs with
  | nil => intro s; rfl
  | cons v vs ih => intro s; simp only [followVectors, ih]; (repeat' split) <;> simp [quietVector]
@[simp] theorem followVectors_keeper (b : Bool) (vs : List Nat) : ∀ s : State, (followVectors b s vs).keeper = s.keeper := by
  induction vs with
  | nil => intro s; rfl
  | cons v vs ih => intro s; simp only [followVectors, ih]; (repeat' split) <;> simp [quietVector]
@[simp] theorem followVectors_spdm (b : Bool) (vs : List Nat) : ∀ s : State, (followVectors b s vs).spdm = s.spdm := by
  induction vs with
  | nil => intro s; rfl
  | cons v vs ih => intro s; simp only [followVectors, ih]; (repeat' split) <;> simp [quietVector]
@[simp] theorem followVectors_pow (b : Bool) (vs : List Nat) : ∀ s : State, (followVectors b s vs).pow = s.pow := by
  induction vs with
  | nil => intro s; rfl
  | cons v vs ih => intro s; simp only [followVectors, ih]; (repeat' split) <;> simp [quietVector]
@[simp] theorem followVectors_ports (b : Bool) (vs : List Nat) : ∀ s : State, (followVectors b s vs).ports = s.ports := by
  induction vs with
  | nil => intro s; rfl
  | cons v vs ih => intro s; simp only [followVectors, ih]; (repeat' split) <;> simp [quietVector]
@[simp] theorem followVectors_route (b : Bool) (vs : List Nat) : ∀ s : State, (followVectors b s vs).route = s.route := by
  induction vs with
  | nil => intro s; rfl
  | cons v vs ih => intro s; simp only [followVectors, ih]; (repeat' split) <;> simp [quietVector]
@[simp] theorem followVectors_linkOut (b : Bool) (vs : List Nat) : ∀ s : State, (followVectors b s vs).linkOut = s.linkOut := by
  induction vs with
  | nil => intro s; rfl
  | cons v vs ih => intro s; simp only [followVectors, ih]; (repeat' split) <;> simp [quietVector]
@[simp] theorem followVectors_ckpt (b : Bool) (vs : List Nat) : ∀ s : State, (followVectors b s vs).ckpt = s.ckpt := by
  induction vs with
  | nil => intro s; rfl
  | cons v vs ih => intro s; simp only [followVectors, ih]; (repeat' split) <;> simp [quietVector]
@[simp] theorem followVectors_mgr (b : Bool) (vs : List Nat) : ∀ s : State, (followVectors b s vs).mgr = s.mgr := by
  induction vs with
  | nil => intro s; rfl
  | cons v vs ih => intro s; simp only [followVectors, ih]; (repeat' split) <;> simp [quietVector]
@[simp] theorem followVectors_chron (b : Bool) (vs : List Nat) : ∀ s : State, (followVectors b s vs).chron = s.chron := by
  induction vs with
  | nil => intro s; rfl
  | cons v vs ih => intro s; simp only [followVectors, ih]; (repeat' split) <;> simp [quietVector]

@[simp] theorem setIstat_pending (s : State) (p m : Nat) : (setIstat s p m).pending = s.pending := by simp [setIstat]
@[simp] theorem setIstat_cycle (s : State) (p m : Nat) : (setIstat s p m).cycle = s.cycle := by simp [setIstat]
@[simp] theorem setIstat_time (s : State) (p m : Nat) : (setIstat s p m).time = s.time := by simp [setIstat]
@[simp] theorem setIstat_phase (s : State) (p m : Nat) : (setIstat s p m).phase = s.phase := by simp [setIstat]
@[simp] theorem setIstat_clockStart (s : State) (p m : Nat) : (setIstat s p m).clockStart = s.clockStart := by simp [setIstat]
@[simp] theorem setIstat_clockOn (s : State) (p m : Nat) : (setIstat s p m).clockOn = s.clockOn := by simp [setIstat]
@[simp] theorem setIstat_free (s : State) (p m : Nat) : (setIstat s p m).free = s.free := by simp [setIstat]
@[simp] theorem setIstat_dev (s : State) (p m : Nat) : (setIstat s p m).dev = s.dev := by simp [setIstat]
@[simp] theorem setIstat_inReset (s : State) (p m : Nat) : (setIstat s p m).inReset = s.inReset := by simp [setIstat]
@[simp] theorem setIstat_devHold (s : State) (p m : Nat) : (setIstat s p m).devHold = s.devHold := by simp [setIstat]
@[simp] theorem setIstat_fuse (s : State) (p m : Nat) : (setIstat s p m).fuse = s.fuse := by simp [setIstat]
@[simp] theorem setIstat_pins (s : State) (p m : Nat) : (setIstat s p m).pins = s.pins := by simp [setIstat]
@[simp] theorem setIstat_mgrRole (s : State) (p m : Nat) : (setIstat s p m).mgrRole = s.mgrRole := by simp [setIstat]
@[simp] theorem setIstat_tiles (s : State) (p m : Nat) : (setIstat s p m).tiles = s.tiles := by simp [setIstat]
@[simp] theorem setIstat_routers (s : State) (p m : Nat) : (setIstat s p m).routers = s.routers := by simp [setIstat]
@[simp] theorem setIstat_gddr (s : State) (p m : Nat) : (setIstat s p m).gddr = s.gddr := by simp [setIstat]
@[simp] theorem setIstat_ecc (s : State) (p m : Nat) : (setIstat s p m).ecc = s.ecc := by simp [setIstat]
@[simp] theorem setIstat_regions (s : State) (p m : Nat) : (setIstat s p m).regions = s.regions := by simp [setIstat]
@[simp] theorem setIstat_ctls (s : State) (p m : Nat) : (setIstat s p m).ctls = s.ctls := by simp [setIstat]
@[simp] theorem setIstat_forward (s : State) (p m : Nat) : (setIstat s p m).forward = s.forward := by simp [setIstat]
@[simp] theorem setIstat_forwarded (s : State) (p m : Nat) : (setIstat s p m).forwarded = s.forwarded := by simp [setIstat]
@[simp] theorem setIstat_rooms (s : State) (p m : Nat) : (setIstat s p m).rooms = s.rooms := by simp [setIstat]
@[simp] theorem setIstat_lend (s : State) (p m : Nat) : (setIstat s p m).lend = s.lend := by simp [setIstat]
@[simp] theorem setIstat_streams (s : State) (p m : Nat) : (setIstat s p m).streams = s.streams := by simp [setIstat]
@[simp] theorem setIstat_rgs (s : State) (p m : Nat) : (setIstat s p m).rgs = s.rgs := by simp [setIstat]
@[simp] theorem setIstat_cen (s : State) (p m : Nat) : (setIstat s p m).cen = s.cen := by simp [setIstat]
@[simp] theorem setIstat_keeper (s : State) (p m : Nat) : (setIstat s p m).keeper = s.keeper := by simp [setIstat]
@[simp] theorem setIstat_spdm (s : State) (p m : Nat) : (setIstat s p m).spdm = s.spdm := by simp [setIstat]
@[simp] theorem setIstat_pow (s : State) (p m : Nat) : (setIstat s p m).pow = s.pow := by simp [setIstat]
@[simp] theorem setIstat_ports (s : State) (p m : Nat) : (setIstat s p m).ports = s.ports := by simp [setIstat]
@[simp] theorem setIstat_route (s : State) (p m : Nat) : (setIstat s p m).route = s.route := by simp [setIstat]
@[simp] theorem setIstat_linkOut (s : State) (p m : Nat) : (setIstat s p m).linkOut = s.linkOut := by simp [setIstat]
@[simp] theorem setIstat_ckpt (s : State) (p m : Nat) : (setIstat s p m).ckpt = s.ckpt := by simp [setIstat]
@[simp] theorem setIstat_mgr (s : State) (p m : Nat) : (setIstat s p m).mgr = s.mgr := by simp [setIstat]
@[simp] theorem setIstat_chron (s : State) (p m : Nat) : (setIstat s p m).chron = s.chron := by simp [setIstat]

/-! ### raiseFault -/

@[simp] theorem raiseFault_pending (s : State) (r d x : Nat) : (raiseFault s r d x).pending = s.pending := by unfold raiseFault; repeat (first | rfl | split)
@[simp] theorem raiseFault_cycle (s : State) (r d x : Nat) : (raiseFault s r d x).cycle = s.cycle := by unfold raiseFault; repeat (first | rfl | split)
@[simp] theorem raiseFault_time (s : State) (r d x : Nat) : (raiseFault s r d x).time = s.time := by unfold raiseFault; repeat (first | rfl | split)
@[simp] theorem raiseFault_phase (s : State) (r d x : Nat) : (raiseFault s r d x).phase = s.phase := by unfold raiseFault; repeat (first | rfl | split)
@[simp] theorem raiseFault_clockStart (s : State) (r d x : Nat) : (raiseFault s r d x).clockStart = s.clockStart := by unfold raiseFault; repeat (first | rfl | split)
@[simp] theorem raiseFault_clockOn (s : State) (r d x : Nat) : (raiseFault s r d x).clockOn = s.clockOn := by unfold raiseFault; repeat (first | rfl | split)
@[simp] theorem raiseFault_free (s : State) (r d x : Nat) : (raiseFault s r d x).free = s.free := by unfold raiseFault; repeat (first | rfl | split)
@[simp] theorem raiseFault_inReset (s : State) (r d x : Nat) : (raiseFault s r d x).inReset = s.inReset := by unfold raiseFault; repeat (first | rfl | split)
@[simp] theorem raiseFault_devHold (s : State) (r d x : Nat) : (raiseFault s r d x).devHold = s.devHold := by unfold raiseFault; repeat (first | rfl | split)
@[simp] theorem raiseFault_fuse (s : State) (r d x : Nat) : (raiseFault s r d x).fuse = s.fuse := by unfold raiseFault; repeat (first | rfl | split)
@[simp] theorem raiseFault_pins (s : State) (r d x : Nat) : (raiseFault s r d x).pins = s.pins := by unfold raiseFault; repeat (first | rfl | split)
@[simp] theorem raiseFault_mgrRole (s : State) (r d x : Nat) : (raiseFault s r d x).mgrRole = s.mgrRole := by unfold raiseFault; repeat (first | rfl | split)
@[simp] theorem raiseFault_tiles (s : State) (r d x : Nat) : (raiseFault s r d x).tiles = s.tiles := by unfold raiseFault; repeat (first | rfl | split)
@[simp] theorem raiseFault_routers (s : State) (r d x : Nat) : (raiseFault s r d x).routers = s.routers := by unfold raiseFault; repeat (first | rfl | split)
@[simp] theorem raiseFault_regs (s : State) (r d x : Nat) : (raiseFault s r d x).regs = s.regs := by unfold raiseFault; repeat (first | rfl | split)
@[simp] theorem raiseFault_gddr (s : State) (r d x : Nat) : (raiseFault s r d x).gddr = s.gddr := by unfold raiseFault; repeat (first | rfl | split)
@[simp] theorem raiseFault_ecc (s : State) (r d x : Nat) : (raiseFault s r d x).ecc = s.ecc := by unfold raiseFault; repeat (first | rfl | split)
@[simp] theorem raiseFault_regions (s : State) (r d x : Nat) : (raiseFault s r d x).regions = s.regions := by unfold raiseFault; repeat (first | rfl | split)
@[simp] theorem raiseFault_ctls (s : State) (r d x : Nat) : (raiseFault s r d x).ctls = s.ctls := by unfold raiseFault; repeat (first | rfl | split)
@[simp] theorem raiseFault_forward (s : State) (r d x : Nat) : (raiseFault s r d x).forward = s.forward := by unfold raiseFault; repeat (first | rfl | split)
@[simp] theorem raiseFault_forwarded (s : State) (r d x : Nat) : (raiseFault s r d x).forwarded = s.forwarded := by unfold raiseFault; repeat (first | rfl | split)
@[simp] theorem raiseFault_rooms (s : State) (r d x : Nat) : (raiseFault s r d x).rooms = s.rooms := by unfold raiseFault; repeat (first | rfl | split)
@[simp] theorem raiseFault_lend (s : State) (r d x : Nat) : (raiseFault s r d x).lend = s.lend := by unfold raiseFault; repeat (first | rfl | split)
@[simp] theorem raiseFault_streams (s : State) (r d x : Nat) : (raiseFault s r d x).streams = s.streams := by unfold raiseFault; repeat (first | rfl | split)
@[simp] theorem raiseFault_cen (s : State) (r d x : Nat) : (raiseFault s r d x).cen = s.cen := by unfold raiseFault; repeat (first | rfl | split)
@[simp] theorem raiseFault_host (s : State) (r d x : Nat) : (raiseFault s r d x).host = s.host := by unfold raiseFault; repeat (first | rfl | split)
@[simp] theorem raiseFault_keeper (s : State) (r d x : Nat) : (raiseFault s r d x).keeper = s.keeper := by unfold raiseFault; repeat (first | rfl | split)
@[simp] theorem raiseFault_spdm (s : State) (r d x : Nat) : (raiseFault s r d x).spdm = s.spdm := by unfold raiseFault; repeat (first | rfl | split)
@[simp] theorem raiseFault_pow (s : State) (r d x : Nat) : (raiseFault s r d x).pow = s.pow := by unfold raiseFault; repeat (first | rfl | split)
@[simp] theorem raiseFault_ports (s : State) (r d x : Nat) : (raiseFault s r d x).ports = s.ports := by unfold raiseFault; repeat (first | rfl | split)
@[simp] theorem raiseFault_route (s : State) (r d x : Nat) : (raiseFault s r d x).route = s.route := by unfold raiseFault; repeat (first | rfl | split)
@[simp] theorem raiseFault_linkOut (s : State) (r d x : Nat) : (raiseFault s r d x).linkOut = s.linkOut := by unfold raiseFault; repeat (first | rfl | split)
@[simp] theorem raiseFault_ckpt (s : State) (r d x : Nat) : (raiseFault s r d x).ckpt = s.ckpt := by unfold raiseFault; repeat (first | rfl | split)
@[simp] theorem raiseFault_mgr (s : State) (r d x : Nat) : (raiseFault s r d x).mgr = s.mgr := by unfold raiseFault; repeat (first | rfl | split)
@[simp] theorem raiseFault_chron (s : State) (r d x : Nat) : (raiseFault s r d x).chron = s.chron := by unfold raiseFault; repeat (first | rfl | split)

/-! ### What the updates give -/

@[simp] theorem setReg_regRaw (s : State) (off : Nat) (w : Word) : regRaw (setReg s off w) off = w := by
  simp [regRaw, setReg]

theorem setReg_regRaw_ne (s : State) {off o : Nat} (w : Word) (h : o ≠ off) : regRaw (setReg s off w) o = regRaw s o :=
  by
    unfold regRaw setReg
    by_cases e : regReset o = regReset off
    · rw [e]; exact SMap.get_set_ne _ _ _ h
    · simp only [SMap.get, SMap.set]
      split
      · rw [SMap.find_del_ne _ h]
      · rw [SMap.find_put_ne _ _ h]

@[simp] theorem setTile_tile (s : State) (x : Site) (t : Tile) : (s.setTile x t).tile x = t := by
  simp [State.tile, State.setTile]

theorem setTile_tile_ne (s : State) {x y : Site} (t : Tile) (h : y ≠ x) : (s.setTile x t).tile y = s.tile y := by
  simp [State.tile, State.setTile, SMap.get_set_ne _ _ _ h]

@[simp] theorem onTile_tile (s : State) (x : Site) (f : Tile → Tile) : (s.onTile x f).tile x = f (s.tile x) := by
  simp [State.onTile]

theorem onTile_tile_ne (s : State) {x y : Site} (f : Tile → Tile) (h : y ≠ x) : (s.onTile x f).tile y = s.tile y :=
  setTile_tile_ne s _ h

@[simp] theorem drew_free (s : State) (n : Nat) : (drew s n).free = s.free + n := rfl

/-- The clock never goes back, and reaches the cycle asked for. -/
theorem toCycle_cycle (s : State) (c : Nat) : (toCycle s c).cycle = Nat.max s.cycle c := by
  unfold toCycle
  split
  · simp; omega
  · simp; omega

/-- A write of GDDR7 leaves every byte outside it as it was. -/
theorem gddrWrite_byte_outside (s : State) (a : Nat) (d : List Byte) (b : Nat) (h : b < a ∨ a + d.length ≤ b) :
    (gddrWrite s a d).gddr.byte b = s.gddr.byte b := Memory.byte_write_outside _ _ _ _ h

/-- A write of GDDR7 gives its bytes. -/
theorem gddrWrite_byte_inside (s : State) (a : Nat) (d : List Byte) (i : Nat) (h : i < d.length) :
    (gddrWrite s a d).gddr.byte (a + i) = d[i] := Memory.byte_write_inside _ _ _ _ h

/-- A write of GDDR7 keeps its canonical form. -/
theorem gddrWrite_wf {s : State} (h : Memory.wf s.gddr = true) (a : Nat) (d : List Byte) :
    Memory.wf (gddrWrite s a d).gddr = true := Memory.wf_write _ _ h

end Sys2Proof.Machine
end

