-- ==== Sys2Proof/Laws/Slot.lean ====
section
/-! SUPPORT. The frame of a slot command: what it does where it issues, where it faults, and where a queue instruction stalls. -/

namespace Sys2Proof.Machine

/-- The issue state differs from the state in the clock and in the tile alone. -/
theorem issueState_onlyTile (s : State) (x : Site) : OnlyTile x s (issueState s x) := by
  refine ⟨?_, fun y h => ?_⟩
  · unfold issueState toCycle toEdge State.setTile
    split
    · rfl
    · split <;> rfl
  · unfold issueState
    rw [setTile_tile_ne _ _ h]
    simp [State.tile]

@[simp] theorem issueState_tile (s : State) (x : Site) : (issueState s x).tile x = issueTile s x := setTile_tile _ _ _

/-- A tile that may issue is one of a device in RUN. -/
theorem canIssue_run {s : State} {x : Site} (h : canIssue s x = true) : s.dev = .run := by
  simp [canIssue] at h
  exact h.1

/-- The control slot of a good bundle has its effect, and closes the bundle. -/
theorem closeSlot_close {s : State} {x : Site} {code : State → Tile → Option Nat} {effect : State → Tile → State}
    (h : canIssue s x = true) (hb : (issueTile s x).bundle.fault = none) (hc : code (issueState s x) (issueTile s x) = none) :
    closeSlot s x code effect = (effect (issueState s x) (issueTile s x)).onTile x Tile.closeBundle := by
  simp [closeSlot, h, hb, hc, canIssue_run h, lowerCode]

/-- The control slot of a bundle in which it, or an earlier slot, meets an issue fault: the lowest code is recorded, and the job faults
(R185). -/
theorem closeSlot_fault {s : State} {x : Site} {k : Nat} {code : State → Tile → Option Nat} {effect : State → Tile → State}
    (h : canIssue s x = true) (hc : lowerCode (code (issueState s x) (issueTile s x)) (issueTile s x).bundle.fault = some k) :
    closeSlot s x code effect = (issueFault (issueState s x) x k).onTile x Tile.closeBundle := by
  simp [closeSlot, h, hc]

/-- A matrix or vector command of a good bundle whose slot is free has its effect. -/
theorem beginSlot_begin {s : State} {x : Site} {k : SlotKind} {i : Instr} {code : State → Tile → Option Nat}
    {effect : State → Tile → State} (h : canIssue s x = true) (hk : (s.tile x).slotTaken k = false)
    (hb : ((issueTile s x).holdSlot k i).bundle.fault = none)
    (hc : code (issueState s x) (issueTile s x) = none) :
    beginSlot s x k i code effect =
      effect ((issueState s x).setTile x ((issueTile s x).holdSlot k i)) ((issueTile s x).holdSlot k i) := by
  simp [beginSlot, h, hk, hb, hc, canIssue_run h]

/-- A queue instruction that need not wait is a command of the control slot. -/
theorem closeOrStall_close {s : State} {x : Site} {code : State → Tile → Option Nat} {stall : Tile → Option Stall}
    {effect : State → Tile → State} (hs : stall (issueTile s x) = none) :
    closeOrStall s x code stall effect = closeSlot s x code effect := by
  simp [closeOrStall, hs]

/-- A queue instruction that must wait stalls: its bundle waits with it (R164). -/
theorem closeOrStall_stall {s : State} {x : Site} {code : State → Tile → Option Nat} {stall : Tile → Option Stall}
    {effect : State → Tile → State} {st : Stall} (h : canIssue s x = true) (hs : stall (issueTile s x) = some st)
    (hc : code (issueState s x) (issueTile s x) = none) :
    closeOrStall s x code stall effect = (issueState s x).setTile x
      { (issueTile s x).unissued with stall := st, bundle := { (issueTile s x).unissued.bundle with fault := none } } := by
  simp [closeOrStall, hs, hc, h]

/-- Replacing the tile again keeps the frame. -/
theorem OnlyTile.setTile {x : Site} {s t : State} (h : OnlyTile x s t) (T : Tile) : OnlyTile x s (t.setTile x T) := by
  obtain ⟨h1, h2⟩ := h
  refine ⟨?_, fun y hy => by rw [setTile_tile_ne _ _ hy, h2 y hy]⟩
  simp only [State.setTile]
  rw [h1]

theorem OnlyTile.onTile {x : Site} {s t : State} (h : OnlyTile x s t) (f : Tile → Tile) : OnlyTile x s (t.onTile x f) :=
  h.setTile _

/-- A control command whose effect only replaces the tile. -/
theorem closeSlot_tile {s : State} {x : Site} {code : State → Tile → Option Nat} {f : Tile → Tile}
    (h : canIssue s x = true) (hb : (issueTile s x).bundle.fault = none) (hc : code (issueState s x) (issueTile s x) = none) :
    (closeSlot s x code (fun s t => s.setTile x (f t))).tile x = (f (issueTile s x)).closeBundle ∧
      OnlyTile x s (closeSlot s x code (fun s t => s.setTile x (f t))) := by
  rw [closeSlot_close h hb hc]
  exact ⟨by simp, ((issueState_onlyTile s x).setTile _).onTile _⟩

end Sys2Proof.Machine
end

