-- ==== Sys2Proof/Laws/Tile.lean ====
section
/-! SUPPORT. What bringing a tile up to a cycle may change, and what a register reads once a write to it is due. -/

namespace Sys2Proof.Machine

/-- A property that every step of a fold keeps holds of its result. -/
theorem foldl_keeps {α β : Type} (P : β → Prop) (f : β → α → β) (h : ∀ b a, P b → P (f b a)) :
    ∀ (l : List α) (b : β), P b → P (l.foldl f b)
  | [], _, hb => hb
  | _ :: l, _, hb => foldl_keeps P f h l _ (h _ _ hb)

/-- Two tiles that may differ only in what comes due by itself: registers, memory, windows, call slips, scale states, the writes on
their way, bank ports in use, the checks of arrivals and of debug mode, the operands that instructions in flight have read, and the feeds
that have read all theirs. -/
def SameButDue (t u : Tile) : Prop :=
  u = { t with sregs := u.sregs, aregs := u.aregs, regWrites := u.regWrites, memWrites := u.memWrites, winWrites := u.winWrites,
               slipWrites := u.slipWrites, scaleWrites := u.scaleWrites, mem := u.mem, windows := u.windows, slips := u.slips,
               arrivals := u.arrivals, acc0 := u.acc0, acc1 := u.acc1, feeds := u.feeds, vops := u.vops, xsends := u.xsends,
               ports := u.ports, found := u.found, gran := u.gran, upset := u.upset, tLast := u.tLast, tAcc0 := u.tAcc0, tAcc1 := u.tAcc1 }

theorem SameButDue.refl (t : Tile) : SameButDue t t := rfl

theorem SameButDue.trans {t u v : Tile} (h : SameButDue t u) (g : SameButDue u v) : SameButDue t v := by
  unfold SameButDue at *
  rw [g, h]

theorem noteReads_due (t : Tile) (gs : List Nat) : SameButDue t (t.noteReads gs) := by
  unfold Tile.noteReads
  split <;> rfl

theorem noteWrites_due (t : Tile) (gs : List Nat) : SameButDue t (t.noteWrites gs) := by
  unfold Tile.noteWrites
  split <;> rfl

theorem leaveFeeds_due (t : Tile) : SameButDue t t.leaveFeeds := by
  unfold Tile.leaveFeeds
  refine foldl_keeps (SameButDue t) _ ?_ _ _ (SameButDue.refl t)
  intro u f hu
  exact hu.trans rfl

theorem latchWords_due (t : Tile) (c : Nat) : SameButDue t (t.latchWords c) := rfl

theorem checkReads_due (t : Tile) : SameButDue t t.checkReads := by
  unfold Tile.checkReads
  exact SameButDue.trans (by exact rfl) (noteReads_due _ _)

theorem latchMem_due (t : Tile) (c : Nat) : SameButDue t (t.latchMem c) := by
  unfold Tile.latchMem
  exact SameButDue.trans (u := Tile.checkReads _) (SameButDue.trans (by exact rfl) (checkReads_due _)) (leaveFeeds_due _)

theorem latchGen_due (t : Tile) (c : Nat) : SameButDue t (t.latchGen c) := by
  unfold Tile.latchGen
  refine foldl_keeps (SameButDue t) _ ?_ _ _ (SameButDue.refl t)
  intro u op hu
  refine hu.trans ?_
  split
  · dsimp only
    refine foldl_keeps (SameButDue u) _ ?_ _ _ rfl
    intro b w hb
    exact hb.trans rfl
  · rfl

theorem portWrite_due (t : Tile) (c rank draw a : Nat) (data : List Byte) : SameButDue t (t.portWrite c rank draw a data) := rfl

theorem settleMem_due (c : Nat) : ∀ (ws : List MemWrite) (t : Tile), SameButDue t (settleMem c ws t)
  | [], _ => rfl
  | w :: ws, t => by
    unfold settleMem
    split
    · exact (((latchMem_due t _).trans (portWrite_due _ _ _ _ _ _)).trans (noteWrites_due _ _)).trans (settleMem_due c ws _)
    · rfl

theorem setDest_due (t : Tile) (d : RegDest) (v : Word) :
    SameButDue t (match d with | .s r => t.setS r v | .a r => t.setA r v) := by
  cases d with
  | s r => simp only [Tile.setS]; split <;> rfl
  | a r => rfl

theorem settleRegs_due (c : Nat) : ∀ (ws : List RegWrite) (t : Tile), SameButDue t (settleRegs c ws t)
  | [], _ => rfl
  | w :: ws, t => by
    unfold settleRegs
    split
    · exact (setDest_due t w.dest w.value).trans (settleRegs_due c ws _)
    · rfl

theorem grantSlips_due (t : Tile) : SameButDue t t.grantSlips := by
  unfold Tile.grantSlips
  refine foldl_keeps (SameButDue t) _ ?_ _ _ (foldl_keeps (SameButDue t) _ ?_ _ _ (SameButDue.refl t))
  all_goals
    intro b a hb
    refine hb.trans ?_
    dsimp only
    split <;> rfl

theorem applySlip_due (t : Tile) (c m : Nat) (v : Word) : SameButDue t (t.applySlip c m v) := by
  unfold Tile.applySlip
  dsimp only
  split
  · refine SameButDue.trans ?_ (grantSlips_due _)
    refine SameButDue.trans (u := if 16 ≤ c && namesSource (fld v 8 16) then _ else t) ?_ rfl
    split
    · refine foldl_keeps (SameButDue t) _ ?_ _ _ (SameButDue.refl t)
      intro b a hb
      refine hb.trans ?_
      split <;> rfl
    · rfl
  · exact SameButDue.trans (by exact rfl) (grantSlips_due (t.setSlip c _))
  · exact SameButDue.trans (by exact rfl) (grantSlips_due (t.setSlip c _))

theorem settleEffects_due (t : Tile) (c : Nat) : SameButDue t (t.settleEffects c) := by
  unfold Tile.settleEffects
  dsimp only
  refine SameButDue.trans (u := List.foldl _ _ _) ?_ rfl
  refine foldl_keeps (SameButDue t) _ ?_ _ _ ?_
  · intro b a hb
    refine hb.trans ?_
    split <;> rfl
  refine foldl_keeps (SameButDue t) _ ?_ _ _ ?_
  · intro b a hb
    exact hb.trans (applySlip_due _ _ _ _)
  refine foldl_keeps (SameButDue t) _ ?_ _ _ (SameButDue.refl t)
  intro b a hb
  exact hb.trans rfl

/-- Bringing a tile up to a cycle changes only what comes due by itself. -/
theorem upTo_due (t : Tile) (c : Nat) : SameButDue t (t.upTo c) :=
  ((((settleEffects_due t c).trans (latchGen_due _ _)).trans (settleMem_due c _ _)).trans (latchWords_due _ _)).trans (settleRegs_due c _ _)

@[simp] theorem upTo_bundle (t : Tile) (c : Nat) : (t.upTo c).bundle = t.bundle := by rw [upTo_due t c]
@[simp] theorem upTo_stall (t : Tile) (c : Nat) : (t.upTo c).stall = t.stall := by rw [upTo_due t c]
@[simp] theorem upTo_now (t : Tile) (c : Nat) : (t.upTo c).now = t.now := by rw [upTo_due t c]
@[simp] theorem upTo_pc (t : Tile) (c : Nat) : (t.upTo c).pc = t.pc := by rw [upTo_due t c]
@[simp] theorem upTo_pwr (t : Tile) (c : Nat) : (t.upTo c).pwr = t.pwr := by rw [upTo_due t c]
@[simp] theorem upTo_phase (t : Tile) (c : Nat) : (t.upTo c).phase = t.phase := by rw [upTo_due t c]
@[simp] theorem upTo_queues (t : Tile) (c : Nat) : (t.upTo c).queues = t.queues := by rw [upTo_due t c]
@[simp] theorem upTo_loops (t : Tile) (c : Nat) : (t.upTo c).loops = t.loops := by rw [upTo_due t c]
@[simp] theorem upTo_halted (t : Tile) (c : Nat) : (t.upTo c).halted = t.halted := by rw [upTo_due t c]
@[simp] theorem upTo_census (t : Tile) (c : Nat) : (t.upTo c).census = t.census := by rw [upTo_due t c]
@[simp] theorem upTo_vregs (t : Tile) (c : Nat) : (t.upTo c).vregs = t.vregs := by rw [upTo_due t c]

@[simp] theorem issueTile_now (s : State) (x : Site) : (issueTile s x).now = (s.tile x).now := by simp [issueTile]
@[simp] theorem issueTile_pc (s : State) (x : Site) : (issueTile s x).pc = (s.tile x).pc := by simp [issueTile]

@[simp] theorem issueTile_bundle (s : State) (x : Site) : (issueTile s x).bundle = (s.tile x).bundle := by simp [issueTile]
@[simp] theorem issueTile_queues (s : State) (x : Site) : (issueTile s x).queues = (s.tile x).queues := by simp [issueTile]
@[simp] theorem issueTile_loops (s : State) (x : Site) : (issueTile s x).loops = (s.tile x).loops := by simp [issueTile]

/-- A tile that may issue is not stalled. -/
theorem issueTile_stall {s : State} {x : Site} (h : canIssue s x = true) : (issueTile s x).stall = .none := by
  unfold issueTile
  simp only [upTo_stall]
  simp [canIssue, Tile.hasBundle] at h
  tauto

/-- A write on its way to a scalar register is what the register reads in the cycle in which it becomes readable (R163); s0
reads 0 (R42). -/
theorem settleRegs_sreg (w : RegWrite) (r : Nat) (hd : w.dest = .s r) :
    ∀ (ws : List RegWrite) (t : Tile), (settleRegs w.at_ (insertReg w ws) t).sreg r = if r = 0 then 0 else w.value := by
  intro ws
  induction ws with
  | nil =>
    intro t
    simp [insertReg, settleRegs, hd, Tile.setS, Tile.sreg]
    split <;> simp_all
  | cons a ws ih =>
    intro t
    unfold insertReg
    split
    · rw [settleRegs, if_pos (by omega), ih]
    · rw [settleRegs, if_pos (by omega), settleRegs, if_neg (by omega), hd]
      simp [Tile.setS, Tile.sreg]
      split <;> simp_all

end Sys2Proof.Machine
end

