-- ==== Sys2Proof/Tests/Slice0.lean ====
section
/-! SUPPORT. Small tests of the model: ill-formed commands, worked examples of the spec, and for every statement states that meet its hypotheses. -/

namespace Sys2Proof.Tests

set_option Elab.async false

open Sys2Proof Sys2Proof.Machine

/-! ### Ill-formed commands: one for each check of WellFormed -/

theorem test_ill_formed_operands :
    [Instr.nop 2112 .control 0, .requestLapsed 0 16 0, .roomBankAccess 64 0, .roomBankAccess 0 16, .linkTrainRetry 16,
      .loss 16384 0 0, .istatW1c .host 0x5001 0, .regionSet .mailbox [0, 0, 0, 0, 0, 0, 0, 0, 0], .regionSet (.vc11 16384) [],
      .loanRetire (.sched 65536), .loanRetire (.demand 2112 0 0), .hostLineComplete (.tile 0 16 0) 0 true [],
      .controllerUnitArrival 10].map Instr.wellFormed = List.replicate 13 false := by decide

theorem test_well_formed_operands :
    [Instr.nop 2111 .control 0, .requestLapsed 0 15 0, .roomBankAccess 63 15, .linkTrainRetry 15, .loss 9999 9999 15, .istatW1c .host 0x5000 0,
      .regionSet .mailbox [0, 0, 0, 0, 0, 0, 0, 0], .regionSet (.vc11 255) [], .loanRetire (.sched 65535), .controllerUnitArrival 9].map
      Instr.wellFormed = List.replicate 10 true := by decide

/-! ### States for the tests -/

/-- A confined job of one group at base 0. -/
def job0 : Job :=
  { entry := 3, secure := false, folio := 0x100000000, size := 256, debug := false, debugStop := false, span := false, seam := false,
    groups := 1, base := 0, bellTo := 100, hf := 4, seed := 0, deadline := 5, pages := 0, nextLoan := 0 }

/-- An ACTIVE tile about to issue at 0x100 in cycle 1,000. -/
def tile0 : Tile := { Tile.off with pwr := .active, now := 1000, pc := 0x100 }

/-- The device out of reset, in SLEEP, its host link up in PCIe mode 5, its function ready. -/
def up : State :=
  { State.reset with inReset := false, dev := .sleep, host := { HostIf.reset with mode := 5, width := 8, mse := true, ready := true, kfwAt := some 0 } }

/-- The device in RUN with `job0`, tile `T` at site 0. -/
def run (T : Tile) : State :=
  { up with dev := .run, clockOn := true, cycle := 1000, time := 105000,
            rgs := { Rgs.idle with cur := some 3, job := some job0 }, tiles := [(0, T)] }

/-- The next state of an outcome; the reset state of any other. -/
def after (o : Host.Outcome State Fault Refusal) : State := match o with | .next t => t | _ => State.reset

/-- A request in queue 2. -/
def req0 : Request :=
  { id := 0, kind := .gread, rg := 0, nolapse := false, stream := 0, tag := 0, laddr := 0x1000, len := 0, deadline := 50, target := 0x2000000,
    worker := 0, start := 900, ready := 900, pc := 0x80, landed := 0, sent := 0, acked := 1, poisoned := false, posted := none }

/-- A tile with that request in queue 2. -/
def tileReq (r : Request) : Tile := { tile0 with queues := [(2, [r])] }

/-! ### The control slot -/

/-- A tile about to issue; a matrix slot whose NOP is one, and a word that spells MMA. -/
theorem wit_control : canIssue (run tile0) 0 = true ∧ ((run tile0).tile 0).bundle.fault = none ∧
    ((run tile0).tile 0).slotTaken .matrix = false ∧ ((run tile0).tile 0).slotTaken .vector = false ∧
    (issueTile (run tile0) 0).phase ≠ .exchange ∧ fld (0 : BitVec 26) 16 10 = 0 ∧
    slotOpcode .matrix (BitVec.ofNat 48 (2 ^ 43)) ≠ 0 ∧ opcodeAssigned .matrix (slotOpcode .matrix (BitVec.ofNat 48 (2 ^ 43))) = true := by
  decide

/-- A halting tile whose work is done, with no stream, and as the receiver of stream 3, whose sender has an SSEND more. -/
theorem wit_HaltCompletes : ∀ p ∈ [([], true),
      ([(3, { sendSite := some 1, recvSite := some 0, sends := [{ site := 1, q := 2, id := 0, tag := 0, len := 0, seen := 0 }], recvs := [],
              readies := 0, acks := 0, asks := [] })], false)],
    (let s := { run { tile0 with phase := .halting } with streams := p.1 }
     let c := haltCycle s (s.tile 0)
     let T := ((s.tile 0).upTo c).latchMem (c - 1)
     let u := (toCycle s c).putTile 0 { T with halted := true, queues := [], outcomes := [] }
     let v : State := { u with rgs := { u.rgs with haltedAt := max u.rgs.haltedAt c } }
     s.dev = .run ∧ T.phase = .halting ∧ T.halted = false ∧ T.quiet = true ∧ (streamUnmatched v 0).isEmpty = p.2) := by decide +kernel

/-- SALU ADD s3 := s1 + s2, MIN (FN 12, the last assigned); SALUI MUL (9, the last); SLI; the three modes of AOP. -/
theorem wit_ScalarOps : (let add : BitVec 26 := BitVec.ofNat 26 (3 * 2 ^ 21 + 1 * 2 ^ 16 + 2 * 2 ^ 11)
    let mx : BitVec 26 := BitVec.ofNat 26 (3 * 2 ^ 21 + 1 * 2 ^ 16 + 2 * 2 ^ 11 + 12 * 2 ^ 6)
    canIssue (run tile0) 0 = true ∧ fld add 0 6 = 0 ∧ fld add 6 5 ≤ 12 ∧ fld mx 6 5 = 12 ∧ fld mx 0 6 = 0 ∧
    fld (BitVec.ofNat 26 (9 * 2 ^ 12)) 12 4 ≤ 9 ∧ fld (0 : BitVec 26) 16 4 = 0 ∧ fld (0 : BitVec 26) 24 2 = 0 ∧
    fld (BitVec.ofNat 26 (1 * 2 ^ 24)) 24 2 = 1 ∧ fld (BitVec.ofNat 26 (1 * 2 ^ 24)) 0 15 = 0 ∧
    fld (BitVec.ofNat 26 (2 * 2 ^ 24)) 24 2 = 2 ∧ fld (BitVec.ofNat 26 (2 * 2 ^ 24)) 0 15 = 0 ∧
    12 < fld (BitVec.ofNat 26 (13 * 2 ^ 6)) 6 5 ∧ 9 < fld (BitVec.ofNat 26 (10 * 2 ^ 12)) 12 4 ∧
    fld (BitVec.ofNat 26 (3 * 2 ^ 24)) 24 2 = 3) := by decide

/-- The results of R168 on one step: 7 + −3, and s0 stays 0. -/
theorem test_salu_add : (let s := run { tile0 with sregs := [(1, 7), (2, 0xFFFFFFFD)] }
    let t := after (execSalu 0 (BitVec.ofNat 26 (3 * 2 ^ 21 + 1 * 2 ^ 16 + 2 * 2 ^ 11)) s)
    ((t.tile 0).upTo 1001).sreg 3 = 4 ∧ (t.tile 0).pc = 0x110) := by decide

theorem wit_LoadStore : (let T := issueTile (run tile0) 0
    canIssue (run tile0) 0 = true ∧ debugJob (run tile0) = false ∧ bit (BitVec.ofNat 26 (2 ^ 16)) 16 = true ∧
    ∀ i < 4, bankMeets (T.foreseen.readsAt T.now) (granOf (0 + i)) = false) := by decide

/-- BR: always, back by 4 bundles; on a zero register, not taken; to the address of a register. -/
theorem wit_Branch : (let back : BitVec 26 := BitVec.ofNat 26 (2 ^ 17 - 4)
    let viaA : BitVec 26 := BitVec.ofNat 26 (2 ^ 17)
    let T := issueTile (run tile0) 0
    canIssue (run tile0) 0 = true ∧ fld back 23 3 ≠ 7 ∧ fld back 18 5 = 0 ∧ bit back 17 = false ∧
    addr21 (Int.ofNat T.pc + 16 * sfld back 0 17) = 0xC0 ∧
    bit viaA 17 = true ∧ fld viaA 0 13 = 0 ∧ fld (T.areg (fld viaA 13 4)) 4 17 * 16 < 0x1C0000 ∧
    fld (BitVec.ofNat 26 (2 * 2 ^ 23)) 23 3 = 2) := by decide

/-- LOOP with a count of 1, with a register count of 0; a loop whose last bundle has just fallen through, at its last iteration and before,
with the loop buffer its own and another's. -/
theorem wit_Loops : (let w : BitVec 26 := BitVec.ofNat 26 (3 * 2 ^ 14)
    let c : BitVec 26 := BitVec.ofNat 26 (3 * 2 ^ 14 + 2 ^ 13)
    let T := issueTile (run tile0) 0
    canIssue (run tile0) 0 = true ∧ bit w 13 = false ∧ fld c 0 8 = 0 ∧ bit c 13 = true ∧ (T.sreg (fld c 8 5)).toNat = 0 ∧
    T.loops.length < 4 ∧ T.loops = []) ∧
  (∀ n ∈ [1, 2], ∀ b ∈ [some { first := 0xE0, last := 0xF0, count := 0 }, none],
    let s := run { tile0 with loops := [{ first := 0xE0, last := 0xF0, count := n }], fell := true, loopBuf := b }
    s.dev = .run ∧ (s.tile 0).pwr = .active ∧ (s.tile 0).loops = [{ first := 0xE0, last := 0xF0, count := n }] ∧ (s.tile 0).fell = true ∧
    0xF0 + 16 = (s.tile 0).pc ∧ 0xF0 - 0xE0 < 1024) := by decide

/-- A tile in its exchange phase, a branch out of tile memory; a bundle whose vector slot has met code 4; opcode 4, VEXT alone, a NOP with a
bit set, a matrix slot of opcode 6; a fifth loop, and one that ends after the loop that holds it. -/
theorem wit_IssueFaults : (let s := run { tile0 with phase := .exchange, exEnd := 2000, aregs := [(1, 0x1C0000)] }
    let far : BitVec 26 := BitVec.ofNat 26 (2 ^ 17 + 1 * 2 ^ 13)
    canIssue s 0 = true ∧ (s.tile 0).bundle.fault = none ∧ (issueTile s 0).phase = .exchange ∧ fld (0 : BitVec 26) 16 10 = 0 ∧
    fld (1 : BitVec 26) 0 6 ≠ 0 ∧ fld (0 : BitVec 26) 0 17 = 0 ∧ (issueTile s 0).queue (fld (0 : BitVec 26) 22 4) = [] ∧
    fld far 23 3 = 0 ∧ fld far 18 5 = 0 ∧ bit far 17 = true ∧ fld far 0 13 = 0 ∧
    0x1C0000 ≤ fld ((issueTile s 0).areg (fld far 13 4)) 4 17 * 16) ∧
  (let b := { tile0 with phase := .exchange, exEnd := 2000, bundle := { Bundle.empty with fault := some 4 } }
   canIssue (run b) 0 = true ∧ ((run b).tile 0).bundle.fault = some 4 ∧ (issueTile (run b) 0).phase = .exchange) ∧
  opcodeAssigned .control (fld (BitVec.ofNat 48 (4 * 2 ^ 26)) 26 6) = false ∧ fld (BitVec.ofNat 48 (4 * 2 ^ 26)) 26 6 ≠ 0x3F ∧
  (fld (1 : BitVec 48) 26 6 = 0 ∧ fld (1 : BitVec 48) 0 26 ≠ 0) ∧ fld (BitVec.ofNat 48 (0x3F * 2 ^ 26)) 26 6 = 0x3F ∧
  opcodeAssigned .matrix (fld (BitVec.ofNat 48 (6 * 2 ^ 43)) 43 5) = false ∧
  (let l : LoopRec := { first := 0x100, last := 0x100, count := 9 }
   4 ≤ (issueTile (run { tile0 with loops := [l, l, l, l] }) 0).loops.length ∧
   l.last < (issueTile (run { tile0 with loops := [l] }) 0).pc + 16 * (fld (0 : BitVec 26) 14 12 + 1)) := by decide

/-- XSEND of one granule to folio tile 1, in an exchange phase that holds it exactly. -/
theorem wit_ExchangeSlots : (let s := run { tile0 with phase := .exchange, exEnd := 1001, aregs := [(1, 1)] }
    let w : BitVec 26 := BitVec.ofNat 26 (1 * 2 ^ 18)
    let T := issueTile s 0
    canIssue s 0 = true ∧ T.phase = .exchange ∧ fld w 0 5 = 0 ∧ fld w 8 2 = 0 ∧ fld w 5 3 = 0 ∧ T.xFree ≤ T.now ∧ T.now + ceilDiv (fld w 12 6 + 1) 4 ≤ T.exEnd ∧
    placedSite s (fld (T.areg (fld w 18 4)) 0 11) = some 1 ∧ fld w 16 6 = 4 ∧ fld (0 : BitVec 26) 16 6 = 0 ∧ debugJob s = false) := by decide

theorem wit_WindowSlipCensus : canIssue (run tile0) 0 = true ∧ debugJob (run tile0) = false ∧
    fld (BitVec.ofNat 26 (2 ^ 14)) 0 14 = 0 ∧ bit (BitVec.ofNat 26 (2 ^ 14)) 14 = true ∧ bit (0 : BitVec 26) 14 = false ∧
    fld (BitVec.ofNat 26 (2 * 2 ^ 13)) 0 13 = 0 ∧ fld (BitVec.ofNat 26 (2 * 2 ^ 13)) 13 2 ≠ 3 ∧
    fld (BitVec.ofNat 26 (256 * 2 ^ 11)) 0 11 = 0 ∧ fld (BitVec.ofNat 26 (256 * 2 ^ 11)) 11 10 = 256 := by decide

/-! ### Queues -/

/-- A GREAD record at 0x200; one of kind 15, which is no kind; a LOAN with no catalogue; a full queue. -/
theorem wit_QreqPlacesRequest :
    (let w : BitVec 26 := BitVec.ofNat 26 (1 * 2 ^ 18)
     let s (k : Byte) := run { tile0 with aregs := [(1, 0x200)], mem := [(0x200, k), (0x205, 0x10), (0x212, 0x04)] }
     let T (k : Byte) := issueTile (s k) 0
     let ws (k : Byte) := recordRead (issueState (s k) 0) (T k) 0x200 (T k).now
     let r (k : Byte) := retireFault (issueState (s k) 0) 0 (mkRequest (issueState (s k) 0) (T k) (ws k) (T k).now)
     fld w 0 18 = 0 ∧ fld ((T 1).areg (fld w 18 4)) 5 16 * 32 = 0x200 ∧
     (∀ k ∈ [1, 15, 8], canIssue (s k) 0 = true ∧ ((s k).tile 0).bundle.fault = none ∧ ((T k).queue (fld w 22 4)).length < 8 ∧
       (∀ i < 32, bankMeets ((T k).foreseen.readsAt (T k).now) (granOf (0x200 + i)) = false)) ∧
     recordBad (ws 1) = false ∧ r 1 = none ∧ (∀ o ∈ (T 1).queue (fld w 22 4), o.id ≠ (T 1).nextReq) ∧ recordBad (ws 15) = true ∧
     recordBad (ws 8) = false ∧ r 8 = some (0x09, 0)) := by decide +kernel

theorem wit_QreqStalls : (let full := run { tile0 with queues := [(0, List.replicate 8 { req0 with id := 9 })] }
    canIssue full 0 = true ∧ (full.tile 0).bundle.fault = none ∧ fld (0 : BitVec 26) 0 18 = 0 ∧
    8 ≤ ((issueTile full 0).queue (fld (0 : BitVec 26) 22 4)).length) := by decide

/-- With no slot of the bundle waiting, nothing but the tile differs before the request is placed. -/
theorem waiting_none (s : State) (x : Site) (c : Nat) (h : (s.tile x).bundle = Bundle.empty) (y : Site) (hy : y ≠ x) :
    (issueWaiting (s.onTile x (·.retireIn c)) x).tile y = s.tile y := by
  simp [issueWaiting, Tile.retireIn, h, Bundle.empty, onTile_tile_ne, hy]

theorem wit_QreqRetires : (let s (k : Byte) := run { tile0 with
      stall := .qreq 0 0x200, nextReq := 7, mem := [(0x200, k), (0x205, 0x10), (0x212, 0x04)], queues := [(0, List.replicate 7 req0)] }
    let v (k : Byte) := issueWaiting ((s k).onTile 0 (·.retireIn (Nat.max ((s k).tile 0).now (s k).cycle))) 0
    let T (k : Byte) := issueTile (v k) 0
    let ws (k : Byte) := recordRead (issueState (v k) 0) (T k) 0x200 (T k).now
    let r (k : Byte) := retireFault (issueState (v k) 0) 0 (mkRequest (issueState (v k) 0) (T k) (ws k) (T k).now)
    (∀ k ∈ [1, 15, 8], (s k).dev = .run ∧ ((s k).tile 0).stall = .qreq 0 0x200 ∧ (((s k).tile 0).queue 0).length < 8 ∧
      ((s k).tile 0).bundle = Bundle.empty ∧ canIssue (v k) 0 = true ∧ ((v k).tile 0).bundle.fault = none ∧
      (∀ i < 32, bankMeets ((T k).foreseen.readsAt (T k).now) (granOf (0x200 + i)) = false)) ∧
    recordBad (ws 1) = false ∧ r 1 = none ∧ (∀ o ∈ (T 1).queue 0, o.id ≠ (T 1).nextReq) ∧ recordBad (ws 15) = true ∧
    recordBad (ws 8) = false ∧ r 8 = some (0x09, 0)) := by decide +kernel

/-- QWAIT on queue 2: posted in cycle 999, in its own cycle, and not at all; a stalled one, its outcome posted before and in cycle 1,000. -/
theorem wit_QwaitReturnsOutcome : (let w : BitVec 26 := BitVec.ofNat 26 (2 * 2 ^ 22 + 5 * 2 ^ 17)
    let r (p : Option (ReqOutcome × Nat)) := { req0 with posted := p }
    let s (p : Option (ReqOutcome × Nat)) := run (tileReq (r p))
    fld w 0 17 = 0 ∧
    (∀ p ∈ [some (.done, 999), some (.lapsed, 999), some (.poison, 1000), none],
      canIssue (s p) 0 = true ∧ ((s p).tile 0).bundle.fault = none ∧ (issueTile (s p) 0).queue (fld w 22 4) = [r p]) ∧
    (issueTile (s none) 0).now = 1000 ∧
    (∀ p ∈ [500, 1000],
      let t := run { tileReq (r (some (.poison, p))) with stall := .qwait 2 5 }
      let v := issueWaiting (t.onTile 0 (·.retireIn (Nat.max (t.tile 0).now (p + 1)))) 0
      t.dev = .run ∧ (t.tile 0).stall = .qwait 2 5 ∧ (t.tile 0).queue 2 = [r (some (.poison, p))] ∧ (t.tile 0).bundle = Bundle.empty ∧
      canIssue v 0 = true ∧ (v.tile 0).bundle.fault = none ∧ (issueTile v 0).queue 2 = [r (some (.poison, p))])) := by decide +kernel

/-- An on-demand LOAN of queue 2, its chunk open. -/
def loan0 : Loan :=
  { key := .demand 0 2 0, start := 900, deadline := some 950, card := 0, words := [], dest := 2, fromRoom := false, win := 0, off := 0, nolapse := false,
    stage := .move, chunks := [{ site := 0, srcGran := 0, len := 1, landed := 0, st := .open }], bad := [], lost := false, poisoned := false, got := [] }

theorem wit_OutcomesPost : (let s (r : Request) := run (tileReq r)
    (∀ r ∈ [req0, { req0 with nolapse := true }, { req0 with deadline := 0 }, { req0 with kind := .gwrite }, { req0 with kind := .loanwait },
        { req0 with poisoned := true }, { req0 with poisoned := true, nolapse := true },
        { req0 with poisoned := true, posted := some (.lapsed, 1000) }],
      jobRuns (s r) = true ∧ (s r).cycle = 1000 ∧ ((s r).tile 0).request 2 0 = some r) ∧
    ReqKind.gwrite.canLapse = false ∧
    ({ req0 with kind := .gwrite } : Request).grans ≤ ({ req0 with kind := .gwrite } : Request).acked ∧
    (let t := { s { req0 with kind := .loan } with lend := { (run tile0).lend with loans := [loan0] } }
     jobRuns t = true ∧ (t.tile 0).request 2 0 = some { req0 with kind := .loan } ∧ loanOf t (.demand 0 2 0) = some loan0 ∧
     ∀ h ∈ loan0.chunks, h.st = .open ∧ h.site ≠ noSite)) := by decide +kernel

/-- A tile with a request that sends, of a worker 0 whose stream 0 has its SRECV at tile 1 on this device, and another device's stream. -/
def sending (r : Request) : State :=
  let e (x : Site) : StreamEnd := { site := x, q := 2, id := 0, tag := 0, len := 0, seen := 0 }
  let st : Stream := { sendSite := some 0, recvSite := some 1, sends := [e 0], recvs := [e 1], readies := 1, asks := [], acks := 0 }
  { run (tileReq r) with tiles := [(0, tileReq r), (1, tileReq { req0 with kind := .srecv })],
                         streams := [(0, st), (256 * 8, st)], regs := [(rLNK_WID, 0x4000)] }

/-- A granule to send of an RWRITE, of an HWRITE that ends a line and of one that does not, of an SSEND to this worker and to another. -/
theorem wit_SendsLeave : (∀ p ∈ [(ReqKind.rwrite, 0, 0x8000020, 0), (.hwrite, 0, 0x1020, 0), (.hwrite, 1, 0x1000, 0), (.ssend, 0, 0, 0),
      (.ssend, 0, 0, 7)],
    (let r := { req0 with kind := p.1, len := p.2.1, target := p.2.2.1, worker := p.2.2.2 }
     let s := sending r
     s.dev = .run ∧ nextSend s 0 = some (2, r) ∧ (s.tile 0).request 2 r.id = some r ∧ (s.tile 0).sendBuf.length < 128 ∧
     decide (r.sent + 1 = r.grans ∨ (r.target + 32 * (r.sent + 1)) % 64 = 0) = (p.2.1 == 0) ∧ ownWid s = 0 ∧
     (p.1 = .ssend → (s.stream (streamKey s r)).recvs[(s.stream (streamKey s r)).sends.findIdx fun d =>
       d.site == 0 && d.q == 2 && d.id == r.id]? = some { site := 1, q := 2, id := 0, tag := 0, len := 0, seen := 0 }))) ∧
  accepts (sending req0) (Block.rdr.page 0) = true ∧ accepts (sending req0) (Block.hif.page 0) = true ∧
  ((sending req0).tile 1).request 2 0 = some { req0 with kind := .srecv } ∧ ((sending req0).tile 1).pwr ≠ .fenced := by decide +kernel

/-- A GWRITE of one granule that ends no unit, of two with the first to send; granules landing for a request, the last and not the last. -/
theorem wit_QueueTraffic : (∀ n ∈ [0, 1],
      let r := { req0 with kind := .gwrite, len := n }
      let s := run (tileReq r)
      s.dev = .run ∧ nextSend s 0 = some (2, r) ∧ (s.tile 0).request 2 r.id = some r ∧ (s.tile 0).sendBuf.length < 128 ∧
      decide (r.sent + 1 = r.grans ∨ (r.target + 32 * (r.sent + 1)) % 256 = 0) = (n == 0)) ∧
  (let R := ((run (tileReq { req0 with kind := .gwrite })).tile 0).ranked
   bankFree (R.readsAt 1000 ++ planAt (R.arrivalPlan 1000).reads 1000) (granOf 0x1000) = true) ∧
  (∀ n ∈ [0, 1],
    let r := { req0 with len := n }
    let l : Landing := { addr := 0x1BFFE0, data := List.replicate 32 7, owner := .req 2 0, slip := 2, win := 0, off := 0 }
    let s := run { tileReq r with landing := [l] }
    jobRuns s = true ∧ (s.tile 0).transit = [] ∧ nextLanding s 0 = some (0, l, 1000) ∧ (s.tile 0).request 2 0 = some r ∧
    r.posted = none ∧ r.kind ≠ .loan ∧ l.addr + l.data.length ≤ 0x1C0000) := by decide +kernel

/-! ### The matrix slot -/

/-- A feeding instruction of one slice whose words are read; one that awaits its decision. -/
def feed0 : Feed :=
  { op := .mma, acc := 0, add := true, kind := .window, fa := 4, fb := 4, da := 0x1000, db := 0x1080, rb := 1, mode := 0, issue := 990,
    parts := 4, descA := [], descB := [], t0 := 997, periods := [], span := 4, draw := 0, rnd := 1, per := 0, off := 0, held := [],
    scaleA := [], scaleB := [], words := [{ at_ := 1002, rdy := 1000, p := 0, q := 0, a := [], b := [] }], reads := [], upset := false, round := 0, slice := 0, ovr := false,
    awaiting := false, closed := false }

/-- MMA of the lowest and MDIST of a distance mode, on a tile without a drain and on one whose drain issued in cycle 995. -/
theorem wit_FeedsIssue : (let w : BitVec 43 := BitVec.ofNat 43 (4 * 2 ^ 37 + 4 * 2 ^ 33)
    let d : BitVec 43 := BitVec.ofNat 43 (1 * 2 ^ 20)
    ∀ s ∈ [run tile0, run { tile0 with drainAt := some 995, drain0At := some 995 }],
      canIssue s 0 = true ∧ (s.tile 0).bundle.fault = none ∧ (s.tile 0).slotTaken .matrix = false ∧ feedCode .mma (issueTile s 0) w = none ∧ feedCode .mconv (issueTile s 0) w = none ∧
      feedCode .mdist (issueTile s 0) d = none) ∧
    (issueTile (run { tile0 with drainAt := some 995, drain0At := some 995 }) 0).drainOf 0 = some 995 := by decide

theorem wit_SliceAccumulates : (let s := run { tile0 with feeds := [feed0], acc0 := { AccTile.reset with kind := .window } }
    s.dev = .run ∧ (s.tile 0).pwr = .active ∧
    (match nextSlice (s.tile 0) with
     | some (T, f, _) => (match T.feeds.find? (fun h => h.issue == f.issue) with | some g => decide (g.acc ≤ 1) | none => false) && !(T.acc 0).scaled
     | none => false) = true) := by decide +kernel

/-- An overflow with budget, one without, one with OSC at 254, and none, each awaiting its decision. -/
theorem wit_ReplayDecides : ∀ p ∈ [(true, 0, 127, true), (true, 1, 127, false), (true, 0, 254, false), (false, 0, 127, false)],
    (let f := { feed0 with awaiting := true, ovr := p.1, round := p.2.1 }
     let s := run { tile0 with feeds := [f], acc0 := { AccTile.reset with osc := p.2.2.1 } }
     let T := (s.tile 0).toWrite (f.t0 + f.round * (f.span + 7) + f.span - 1 + 13)
     s.dev = .run ∧ (s.tile 0).pwr = .active ∧
     (s.tile 0).feeds.find? (fun g => g.awaiting) = some f ∧ f.acc ≤ 1 ∧
     decide (f.ovr = true ∧ f.round < f.rb ∧ (T.acc f.acc).osc.toNat < 254) = p.2.2.2) := by decide +kernel

/-- An MDRAIN to FP32 of a WINDOW tile. -/
theorem wit_DrainIssues : (let s := run { tile0 with acc0 := { AccTile.reset with kind := .window } }
    canIssue s 0 = true ∧ (s.tile 0).bundle.fault = none ∧ (s.tile 0).slotTaken .matrix = false ∧ drainCode (issueTile s 0) 0 = none) := by decide

/-- The first row and the last row of a drain to tile memory, of one to MXFP8 with its scale byte, and of one to a vector register. -/
theorem wit_DrainRowWrites : ∀ row ∈ [0, 31], ∀ p ∈ [(0, false), (0x6, false), (0, true)],
    (let d : Drain := { src := AccTile.reset, toReg := p.2, ofmt := p.1, rm := 0, sat := false, scm := false, part := false, base := 0x4000,
                        sbase := 0x3020, pitch := 4, vr := 0, ofs := 0, issue := 990, draw := 0, row := row, early := false }
     let s := run { tile0 with drains := [d] }
     let c := d.issue + d.row + 5
     let U := ((s.tile 0).settleWriters (c, issueRank d.issue 0)).toWrite c
     let a := (d.base + 32 * d.pitch * d.row) % 2 ^ 21
     let bytes := packElems (fmtBits d.ofmt) ((drainRow d d.row).map Prod.fst)
     s.dev = .run ∧ (s.tile 0).pwr = .active ∧ (s.tile 0).drains = [d] ∧ isMX d.ofmt = (d.ofmt == 6) ∧ 0 < bytes.length ∧
     a + bytes.length ≤ 0x1C0000 ∧ (∀ i < bytes.length, bankMeets (U.putsAt c) (granOf (a + i)) = false) ∧ U.ports = [] ∧
     (p.1 = 6 → bankMeets (U.putsAt c) (granOf (d.sbase + d.row)) = false) ∧ (drainRow d d.row)[31]?.isSome = true) := by decide +kernel

/-- MSCALE of OFMT 6 with OSC 127 in the instruction; with OSC from a register that holds 255, which caps at 254. -/
theorem wit_Mscale : (let w : BitVec 43 := BitVec.ofNat 43 (6 * 2 ^ 37 + 127 * 2 ^ 28)
    let v : BitVec 43 := BitVec.ofNat 43 (6 * 2 ^ 37 + 2 ^ 36 + 1 * 2 ^ 31)
    let s := run { tile0 with sregs := [(1, 255)] }
    canIssue s 0 = true ∧ (s.tile 0).bundle.fault = none ∧ (s.tile 0).slotTaken .matrix = false ∧ mscaleCode (issueTile s 0) w = none ∧ mscaleCode (issueTile s 0) v = none ∧
    (bit v 36 = true ∧ min (fld ((issueTile s 0).sreg (fld v 31 5)) 0 8) 254 = 254)) := by decide

/-! ### The vector slot -/

/-- Every vector command with operands it accepts; VLD with INC. -/
theorem wit_VectorIssues : (canIssue (run tile0) 0 = true ∧ ((run tile0).tile 0).bundle.fault = none ∧ ((run tile0).tile 0).slotTaken .vector = false) ∧
    (∀ k ∈ [VKind.add, .sub, .mul, .vmin, .vmax, .div, .sqrt, .rcp, .rsqrt, .exp, .log, .tanh, .ld, .st],
      vectorCode k (issueTile (run tile0) 0) 0 none = none) ∧
    (∀ k ∈ [VKind.fma, .cmp, .sel, .cvtPlain], vectorCode k (issueTile (run tile0) 0) 0 (some 0) = none) ∧
    (∀ p ∈ [(VKind.cvtSlice, 0xC * 2 ^ 39, 0xE * 2 ^ 22 + 2 ^ 15), (.rec7, 0xD * 2 ^ 39, 0xC * 2 ^ 22 + 2 * 2 ^ 15),
        (.rec6, 0xD * 2 ^ 39, 0xC * 2 ^ 22 + 3 * 2 ^ 15)],
      vectorCode p.1 (issueTile (run tile0) 0) (BitVec.ofNat 43 p.2.1) (some (BitVec.ofNat 26 p.2.2)) = none) ∧
    vectorCode .red (issueTile (run tile0) 0) (BitVec.ofNat 43 (31 * 2 ^ 27)) none = none ∧
    vectorCode .upd (issueTile (run tile0) 0) (BitVec.ofNat 43 (1 * 2 ^ 21 + 2 * 2 ^ 18 + 1 * 2)) none = none ∧
    vectorCode .ld (issueTile (run tile0) 0) (BitVec.ofNat 43 (2 ^ 11)) none = none := by decide

/-- A VADD of one beat that has read, its one element due; a VST of one granule, due. -/
theorem wit_VectorBeatWrites : ∀ p ∈ [(VKind.add, [{ reg := 1, bit := 0, width := 32, value := 7 }], []),
      (.st, [], [(0x2000, List.replicate 32 7)])],
    (let r : BeatResult := { writes := p.2.1, stores := p.2.2, events := [] }
     let o : VOp := { kind := p.1, fmt := 0, n := 1, w := 0, vext := 0, scalar := 0, params := [], base := 0, gen := false, issue := 990,
                      beats := 1, lat := 6, parts := 0, desc := [], draw := 0, latched := 1, off := 0, held := [], reads := [], upset := false, next := 0,
                      seen := [], results := [r] }
     let s := run { tile0 with vops := [o] }
     let c := (s.tile 0).beatDue o
     let T := ((s.tile 0).settleRows (c, issueRank o.issue 2)).beforeBeat c
     s.dev = .run ∧ (s.tile 0).pwr = .active ∧ nextBeatOp (s.tile 0).vops (s.tile 0).beatDue = some o ∧
     ((T.vops.find? (fun v => v.issue == o.issue)).bind fun p => p.results[o.next]?) = some r ∧
     (∀ i < 32, bankMeets (T.putsAt c) (granOf (0x2000 + i)) = false) ∧ T.ports = [] ∧ (∀ v ∈ T.vops, v.issue = 990)) := by decide +kernel

/-! ### The bell, the time limits, the census -/

/-- A job whose 64 tiles are all as `t0`. -/
def atBell (t0 : Tile) : State :=
  { run t0 with tiles := (List.range 64).map fun i => (siteOf Fuse.part i, t0) }

/-- A tile at a bell that it executed in cycle 900, and there since 905. -/
def belled : Tile := { tile0 with phase := .waiting, bellAt := 900, bellL := 3, arrived := some 905, arrTime := 94500 }

/-- A worker of a job of two that is not its root, its last tile about to arrive. -/
def member : State :=
  { atBell belled with tiles := (0, { belled with arrived := none }) :: (atBell belled).tiles.drop 1,
                       regs := [(rLNK_WID, 0x4005)], rgs := { (run tile0).rgs with workers := [4, 5] } }

/-- The root of that job, waiting for the other, and with only itself to hear of. -/
def root (seen : List Nat) : State :=
  { run tile0 with regs := [(rLNK_WID, 0x4004)], rgs := { (run tile0).rgs with workers := [4, 5], arrivedFrom := seen } }

theorem wit_BellArrives : (let s := run { belled with arrived := none, bellAt := 1100 }
    s.dev = .run ∧ inJob s 0 = true ∧ (s.tile 0).phase = .waiting ∧ (s.tile 0).arrived = none ∧ (s.tile 0).accumsAcked = true ∧
    jobSpans s = false ∧ s.cycle ≤ max (s.tile 0).bellAt (s.tile 0).ackAt) ∧
  ((run { tile0 with phase := .exchange, exEnd := 1010 }).dev = .run ∧
    ((run { tile0 with phase := .exchange, exEnd := 1010 }).tile 0).phase = .exchange) := by decide

theorem wit_SpanningArrives : member.dev = .run ∧ inJob member 0 = true ∧ (member.tile 0).phase = .waiting ∧ (member.tile 0).arrived = none ∧
    (member.tile 0).accumsAcked = true ∧ jobSpans member = true ∧ member.rgs.arriveSent = false ∧ bellRoot member ≠ ownWid member ∧
    allArrived (after (exec (.bellArrive 0) member)) = true := by decide +kernel

theorem wit_BellReleases : (let s := atBell belled
    s.dev = .run ∧ (jobSites s).Nodup ∧ mayRelease s = true ∧ s.cycle ≤ lastArrival s + 120) ∧
  (let t := { member with rgs := { member.rgs with arriveSent := true } }
   t.dev = .run ∧ (jobSites t).Nodup ∧ jobSpans t = true ∧ bellRoot t ≠ ownWid t ∧ t.rgs.arriveSent = true) := by decide +kernel

/-- ARRIVE of device 5 at the root, the last of the job and not the last. -/
theorem wit_Arrive : (∀ seen ∈ [[4], []], (root seen).dev = .run ∧ jobSpans (root seen) = true ∧ bellRoot (root seen) = ownWid (root seen) ∧
      5 ∈ (root seen).rgs.workers ∧ (∃ v ∈ (root seen).rgs.workers, v ∉ (root seen).rgs.arrivedFrom)) ∧
    (∀ v ∈ [4, 5], v ∈ (after (exec (.arrive 5 9) (root [4]))).rgs.arrivedFrom) ∧
    (∃ v ∈ [4, 5], v ∉ (after (exec (.arrive 5 9) (root []))).rgs.arrivedFrom) := by decide +kernel

theorem wit_BellTimeout : (let s := run { belled with arrived := some 905 }
    s.dev = .run ∧ s.rgs.job = some job0 ∧ firstArrival s = some 94500 ∧ mayRelease s = false) ∧
  (let s := { atBell belled with rgs := { (run tile0).rgs with job := some { job0 with bellTo := 0 } } }
   mayRelease s = true ∧ firstArrival s = some 94500 ∧ 94500 < s.time + (lastArrival s + 120 - s.cycle) * stepTicks (jobStep s)) := by
  decide +kernel

/-- A folio whose BOUNDS gives superstep 0 a bound of 500, and whose MSMAP an EVAL entry of bound 300. -/
def folio0 : Memory :=
  [(0x100000048, 1), (0x10000004C, 1), (0x100000058, 2), (0x10000005C, 1), (0x100000108, 0xF4), (0x100000109, 0x01),
   (0x100000208, 1), (0x10000020C, 0x2C), (0x10000020D, 0x01)]

theorem wit_TimeLimits : (let s := { run tile0 with gddr := folio0 }
    s.dev = .run ∧ s.rgs.job = some job0 ∧ overrunDue s = some (0, 500) ∧ evalDue s = some (0, 300) ∧ 0 < 256 ∧ job0.deadline ≠ 0 ∧
    regFld s rRGS_OVERRUN 16 1 = 0) := by decide +kernel

/-- A job with one frozen entry and a given CEN_TABLE. -/
def frozen (v : Word) : State :=
  { run tile0 with regs := [(rCEN_TABLE, v)],
                   cen := { ledger := [], snaps := [{ first := 3, span := 1, micro := 0, sec := 0, ns := 0, eval := false, ledger := [] }] } }

theorem wit_CensusFolds : (frozen 1).dev = .run ∧ (frozen 1).cen.snaps.length = 1 ∧ (jobSites (frozen 1)).Nodup ∧ regFld (frozen 1) rCEN_TABLE 20 4 = 0 ∧
    regFld (frozen 0x00100001) rCEN_TABLE 20 4 = 1 := by decide +kernel

/-! ### The mesh and tile power -/

/-- A flit of one granule from site 1, in window 0. -/
def flit0 (dst : Site) : Flit :=
  { src := 1, dst := dst, win := 0, off := 0, plane := 0, vc := 0, pri := 0, addf := 0, rg := 0, data := [List.replicate 32 7], ready := 1000 }

/-- A flit for its own tile and one for a neighbour, at a router of a tile that is ACTIVE, and FENCED. -/
theorem wit_RouterGrants : (∀ p ∈ [(Power.active, 0, Side.loc), (.fenced, 0, .loc), (.active, 33, .east)],
    (let s := { run { tile0 with pwr := p.1 } with
                  routers := [(0, { held := [{ input := .loc, flit := flit0 p.2.1 }], rrVc := [], rrPri := [], last := [] })] }
     meshMoves s = true ∧ debugJob s = false ∧ (s.tile 0).pwr = p.1 ∧
     (match grantCycle (injectUpTo s 0 s.cycle) 0 0 p.2.2 with
      | some c => (arbitrate (injectUpTo (toCycle (injectUpTo s 0 s.cycle) c) 0 c) 0 0 c p.2.2).isSome
      | none => false) = true)) ∧
  (neighbour 0 .east).1 ≠ 0 := by decide +kernel

/-- A tile with one arrival and window 0 open or shut. -/
def arriving (a : Arrival) (o : Bool) : State :=
  run { tile0 with arrivals := [a], windows := [(0, { isOpen := o, base := 0x2000, bound := 0x2020 })] }

/-- A granule that fills its window to the bound, and one in a window that is shut; the port is free at once. -/
theorem wit_Arrivals : (let a : Arrival := { flit := flit0 0, entry := 990, targets := none, noted := false, sums := none }
    let s (o : Bool) := arriving a o
    let R (o : Bool) := (((s o).tile 0).upTo 1000).checkArrivals 1000
    (∀ o ∈ [true, false], ((s o).dev = .run ∧ ((s o).tile 0).pwr = .active ∧ debugJob (s o) = false ∧
      ((s o).tile 0).arrivals = [a] ∧ max (s o).cycle a.entry = 1000 ∧ (R o).arrivals.length = 1)) ∧
    a.flit.addf = 0 ∧ (R true).arrivals.map (·.targets) = [some [(true, 0x2000)]] ∧
    (R true).foreseen.writeFree [granOf 0x2000] 1000 = 1000 ∧ (enterUpTo (s true) 0 1000).dev = .run ∧
    (R false).arrivals.map (·.targets) = ((((s false).tile 0).settleEffects 990).checkArrivals 990).arrivals.map (·.targets) ∧
    (∃ r, (R false).arrivals.map (·.targets) = [some [(false, r)]])) := by
  refine ⟨by decide, by decide, by decide, by decide, by decide, by decide, ?_⟩
  exact ⟨_, rfl⟩

/-- An ADDF granule to read, and one whose sum is to be written. -/
theorem wit_Addf : (let a : Arrival := { flit := { flit0 0 with addf := 1 }, entry := 1000, targets := none, noted := false, sums := none }
    let s := arriving a true
    let R := ((s.tile 0).upTo 1000).checkArrivals 1000
    s.dev = .run ∧ (s.tile 0).pwr = .active ∧ debugJob s = false ∧ (s.tile 0).arrivals = [a] ∧
    (nextRead s R).map (fun p => (p.1, p.2.2)) = some (0, 1000) ∧
    (nextRead s R).map (fun p => (p.2.1.flit.data, p.2.1.targets)) = some ([List.replicate 32 7], some [(true, 0x2000)]) ∧
    (enterUpTo s 0 1000).dev = .run ∧
    (((enterUpTo s 0 1000).tile 0).upTo 1000).arrivals.map (·.targets) = [some [(true, 0x2000)]] ∧
    (let b := { a with targets := some [(true, 0x2000)], sums := some (1000, [List.replicate 32 0], []) }
     ((arriving b true).tile 0).arrivals = [b] ∧ (arriving b true).dev = .run ∧ (enterUpTo (arriving b true) 0 1002).dev = .run)) := by
  decide +kernel

theorem wit_FenceAndUngate : (logicalAt (run tile0).fuse 0 = some 0 ∧ ((run tile0).tile 0).pwr ≠ .fenced ∧ inJob (run tile0) 0 = true ∧
    inJob (run tile0) 63 = true ∧ logicalAt (run tile0).fuse 2047 = some 1985 ∧ inJob (run tile0) 2047 = false) ∧
  (let s := { up with dev := .armed, rgs := { Rgs.idle with cur := some 3, job := some job0, arm := .ungate, armAt := 84000 } }
   let r : Resid := { key := 1, secure := false, base := 0, bound := 2, groups := [(0, 0)] }
   s.dev = .armed ∧ s.rgs.arm = .ungate ∧ inJob s 0 = true ∧ 0 ∈ jobGroups s ∧ groupUp s 0 = false ∧ (∀ h ∈ jobGroups s, h ≠ 0 → groupUp s h = true) ∧
   (∀ q ∈ ({ s with rgs := { s.rgs with resid := [r] } }).rgs.resid, ∃ p ∈ q.groups, p.2 = groupOf 0) ∧
   (let t := { s with tiles := (groupSites s.fuse 0).map fun x => (x, { Tile.off with pwr := .fenced }) }
    ∀ h ∈ jobGroups t, groupUp t h = true)) := by decide +kernel

/-! ### Memory tiers and lending -/

/-- A running job whose GDDR7 has one region, of a kind and a world, at 0x2000000, and whose controller 2 holds work. -/
def tiers (kind : Nat) (secure : Bool) (c : Ctl) (r : Request) : State :=
  { run (tileReq r) with regions := [(5, { base := 2, last := 2, kind := kind, secure := secure })], ctls := [(2, c)] }

/-- The whole of unit 0x20000 for the request of queue 2. -/
def unit0 (k : ReqKind) : UnitMsg :=
  { owner := .tile 0 2 0, kind := k, secure := false, rg := 0, unit := 0x20000, first := 0, count := 8, idx := 0,
    data := if k = .gread then [] else List.replicate 8 (List.replicate 32 9) }

/-- A GREAD and a GWRITE of an annex region, a GWRITE of a SHELVED region, of no region, and of a secure region. -/
theorem wit_UnitsChecked : (let s k sec u := tiers k sec { Ctl.idle with arrivals := [u] } { req0 with kind := u.kind }
    accepts (s 3 false (unit0 .gread)) (Block.mct.page 2) = true ∧
    accepts { s 3 false (unit0 .gread) with regs := [(Block.mct.page 2 * 0x1000 + oCTRL, 0)] } (Block.mct.page 2) = false ∧
    (∀ k ∈ [ReqKind.gread, .gwrite], (s 3 false (unit0 k)).dev = .run ∧
      takeFirst (fun v => !unitBlocked (s 3 false (unit0 k)) 2 v) ((s 3 false (unit0 k)).ctl 2).arrivals = some (unit0 k, []) ∧
      checkAccess (s 3 false (unit0 k)) false (unit0 k).access 0x2000000 = .ok ∧ ledgerOf (s 3 false (unit0 k)) 0x20000 = none ∧
      localRange (s 3 false (unit0 k)) = none ∧ ((s 3 false (unit0 k)).tile 0).request 2 0 = some { req0 with kind := k }) ∧
    checkAccess (s 1 false (unit0 .gwrite)) false .gwrite 0x2000000 = .violation 1 ∧
    checkAccess (s 3 false (unit0 .gread)) false .gread 0x3000000 = .violation 7 ∧
    (s 1 false (unit0 .gwrite)).ctls.all (fun c => c.2.reads.isEmpty && c.2.groups.isEmpty) = true ∧
    checkAccess (s 3 true (unit0 .gwrite)) false .gwrite 0x2000000 = .shut 5 ∧
    keyOpen (s 3 true (unit0 .gwrite)).time (s 3 true (unit0 .gwrite)).keeper.keys (0 + 8 * 5) = false) := by decide

theorem wit_ReadsServed : (let t : Tile := { tileReq req0 with slips := [(2, { want := 64, allot := 8, flight := 0, bind := 0 })] }
    let s := { tiers 3 false { Ctl.idle with reads := [unit0 .gread] } req0 with tiles := [(0, t)] }
    s.dev = .run ∧ (s.ctl 2).reads.filter (fun v => v.unit == 0x20000) = [unit0 .gread] ∧ (s.ctl 2).cached 0x20000 = none ∧
    (s.tile 0).request 2 0 = some req0 ∧ req0.posted = none ∧ unitBad s 0x20000 = false ∧ ledgerOf s 0x20000 = none ∧ mcOf 0x20000 = 2 ∧
    (s.tile 0).transit = [] ∧ (((s.tile 0).settleEffects s.cycle).slip 2).flight + (unit0 .gread).count ≤
      (((s.tile 0).settleEffects s.cycle).slip 2).allot ∧ (unit0 .gread).first + (unit0 .gread).count ≤ 8) := by decide

/-- A contribution in group 3 of a ledger that is not INIT; INT64 operands at the limits; a unit to forward. -/
theorem wit_LedgersAdd : (let s := tiers 2 false { Ctl.idle with groups := [(3, [unit0 .accum])] } { req0 with kind := .accum }
    s.dev = .run ∧ (s.ctl 2).nextGroup = some 3 ∧ (s.ctl 2).group 3 = [unit0 .accum] ∧ mcOf (unit0 .accum).unit = 2 ∧
    ((ledgerOf s (unit0 .accum).unit).map fun p => p.2.init) = some false ∧ unitBad s (unit0 .accum).unit = false ∧
    (s.ctl 2).cached (unit0 .accum).unit = none ∧ (s.tile 0).request 2 0 = some { req0 with kind := .accum } ∧
    -(2 ^ 63) ≤ signed 64 (2 ^ 63) + signed 64 0 ∧ signed 64 (2 ^ 63) + signed 64 0 < 2 ^ 63 ∧
    signed 64 (2 ^ 63 - 2) + signed 64 1 < 2 ^ 63) ∧
  (let s := { run tile0 with forward := [unit0 .accum] }
   s.dev = .run ∧ s.forward = [unit0 .accum] ∧ takesTraffic s = true) ∧
  (let s := { up with rgs := { Rgs.idle with past := [7] } }
   takesTraffic s = false ∧ 7 ∈ s.rgs.past) := by decide

/-- Room 63 with one access and one poisoned granule, the last, in bank 15. -/
def roomed (st : BankState) (accs : List RoomAcc) : State :=
  { run (tileReq { req0 with kind := .rread }) with
      rooms := [(63, { Room.off with banks := [(15, { st := st, accs := accs, held := [], gateAfter := false })], poison := [(2 ^ 18 - 1, true)] })] }

/-- A write of bytes, a write of poison and a read, of a powered and of a gated bank; the ends of a wake and of a gating. -/
theorem wit_RoomBanks : (let a (w p : Bool) : RoomAcc :=
      { owner := .tile 0 2 0, write := w, gran := 2 ^ 18 - 1, idx := 0, data := List.replicate 32 5, poison := p }
    (∀ st ∈ [BankState.powered, .gated, .waking 10], ∀ p ∈ [(true, false), (true, true), (false, false)],
      (roomed st [a p.1 p.2]).dev = .run ∧ (((roomed st [a p.1 p.2]).room 63).bank 15).st = st ∧
      (((roomed st [a p.1 p.2]).room 63).bank 15).accs = [a p.1 p.2]) ∧
    SMap.get false ((roomed .powered []).room 63).poison (2 ^ 18 - 1) = true ∧
    ((roomed .powered []).tile 0).request 2 0 = some { req0 with kind := .rread } ∧
    (((roomed (.waking 10) []).room 63).bank 15).st = .waking 10 ∧
    (∀ z ∈ [none, some 11], (((roomed (.gating 10 z) [a false false]).room 63).bank 15).st = .gating 10 z ∧
      (∀ x ∈ (((roomed (.gating 10 z) [a false false]).room 63).bank 15).accs, x.write = false) ∧
      (∃ x ∈ (((roomed (.gating 10 z) [a true false]).room 63).bank 15).accs, x.write = true)) ∧
    ({ st := .gating 10 (some 1000), accs := [a false false], held := [], gateAfter := false } : Bank).firstIdle 1000 = true) := by decide

/-- A clean read at that bank: of a tile, whose landing buffer admits it, and of a loan to tile 1, in a window. -/
theorem wit_RoomReads : (let t : Tile := { tileReq { req0 with kind := .rread } with slips := [(2, { want := 64, allot := 8, flight := 0, bind := 0 })] }
    let u : Tile := { tile0 with windows := [(0, { isOpen := true, base := 0x2000, bound := 0x2020 })] }
    let c : Chunk := { site := 1, srcGran := 4, len := 1, landed := 0, st := .open }
    let l : Loan := { key := .sched 3, start := 500, deadline := none, card := 0, words := [], dest := 2, fromRoom := true, win := 0, off := 0,
                      nolapse := false, stage := .move, chunks := [c], bad := [], got := [], lost := false, poisoned := false }
    let a (o : UnitOwner) : RoomAcc := { owner := o, write := false, gran := 2 ^ 18 - 1, idx := 4, data := [], poison := false }
    let s (o : UnitOwner) : State := { run t with
      tiles := [(0, t), (1, u)], lend := { cards := [], started := [], loans := [l], cmd := none },
      rooms := [(63, { Room.off with banks := [(15, { st := .powered, accs := [a o], held := [], gateAfter := false })] })] }
    (∀ o ∈ [UnitOwner.tile 0 2 0, .loan (.sched 3)], (s o).dev = .run ∧ (((s o).room 63).bank 15).st.serves = true ∧
      (((s o).room 63).bank 15).accs = [a o] ∧ SMap.get false ((s o).room 63).poison (2 ^ 18 - 1) = false) ∧
    ((s (.tile 0 2 0)).tile 0).request 2 0 = some { req0 with kind := .rread } ∧ ((s (.tile 0 2 0)).tile 0).transit = [] ∧
    (((((s (.tile 0 2 0)).tile 0).settleEffects 1000).slip 2).flight < ((((s (.tile 0 2 0)).tile 0).settleEffects 1000).slip 2).allot) ∧
    loanOf (s (.loan (.sched 3))) (.sched 3) = some l ∧
    ((((s (.loan (.sched 3))).tile 1).settleEffects 1000).remoteTarget 0 (0 + (4 - 4))).isSome = true) := by decide

/-- A loan of four granules to tile 1, its card valid with a replica in GDDR7. -/
def loan1 (st : LoanStage) : Loan :=
  { key := .sched 0, start := 500, deadline := some 800, card := 0, words := [0x21, 3, 0x2000000, 0, 0, 0, 0, 0x2000100, 0], dest := 2,
    fromRoom := false, win := 0, off := 0, nolapse := true, stage := st,
    chunks := [{ site := 1, srcGran := 0, len := 4, landed := 0, st := .open }], bad := [], lost := false, poisoned := false, got := [] }

/-- A running job with loans started and in flight; the catalogue is at 0. -/
def lending (started loans : List Loan) : State :=
  { run tile0 with lend := { cards := [], started := started, loans := loans, cmd := none },
                   regions := [(1, { base := 0, last := 0, kind := 4, secure := false }), (5, { base := 2, last := 2, kind := 3, secure := false })] }

theorem wit_LoansMoveOn : (let s := lending [loan1 .waiting] []
    s.dev = .run ∧ accepts s (Block.lnd.page 0) = true ∧ s.lend.started = [loan1 .waiting] ∧ s.lend.loans.length < 4096 ∧ cachedCard s 0 = none) ∧
  (let s := lending [] [{ loan1 .move with chunks := [] }]
   inFlight s (.sched 0) = some { loan1 .move with chunks := [] } ∧ ({ loan1 .move with chunks := [] } : Loan).canRetire = true) ∧
  (∀ s ∈ [lending [loan1 .waiting] [], lending [] [loan1 .move]], s.dev = .run ∧ (loanOf s (.sched 0)).isSome = true) ∧
  (loan1 .move).deadline = some 800 := by decide

/-- A full engine: with no loan that can retire, and with one at its front. -/
theorem wit_LoansFull (n : Nat) (h : n = 4096) : (let s := lending [loan1 .waiting] (List.replicate n (loan1 .move))
    let t := lending [loan1 .waiting] ({ loan1 .move with chunks := [] } :: List.replicate n (loan1 .move))
    s.dev = .run ∧ accepts s (Block.lnd.page 0) = true ∧ accepts t (Block.lnd.page 0) = true ∧ 4096 ≤ s.lend.loans.length ∧ (∀ m ∈ s.lend.loans, m.canRetire = false) ∧ nextHeld s.lend.started = some (loan1 .waiting) ∧
    debugJob s = false ∧ 4096 ≤ t.lend.loans.length ∧ t.lend.loans.find? (·.canRetire) = some { loan1 .move with chunks := [] }) := by
  have len : ∀ l : Loan, 4096 ≤ (List.replicate n l).length := fun l => Nat.le_of_eq (h.symm.trans List.length_replicate.symm)
  have open_ : accepts (lending [] []) (Block.lnd.page 0) = true := by decide
  exact ⟨rfl, open_, open_, len _, fun m hm => by obtain rfl := (List.mem_replicate.mp hm).2; rfl, rfl, rfl, Nat.le_succ_of_le (len _), rfl⟩

/-- The card fetched, readable or not; a page-in whose card is in the cache, or not and unreadable; a re-read of a copy that is aligned to a
unit's 32 B only; poison on a chunk, for want of a card, and on a loan to a home, under NOLAPSE. -/
theorem wit_LoanStages : (let s := lending [] [loan1 .card]
    s.dev = .run ∧ inFlight s (.sched 0) = some (loan1 .card) ∧ firstCard s (loan1 .card) = true ∧ cachedCard s 0 = none ∧
    checkAccess s (jobSecure s) .card (cardAddr s 0) = .ok ∧ unitBad s (cardAddr s 0 / 256) = false ∧
    (s.ctl (mcOf (cardAddr s 0 / 256))).cached (cardAddr s 0 / 256) = none) ∧
  (let l := { loan1 .pageIn with dest := 0 }
   let s := lending [] [l]
   let b := { s with ecc := [(0, .uncorrectable)] }
   inFlight s (.sched 0) = some l ∧ l.bad = [] ∧ s.host.lines ++ s.host.offered = [] ∧ unitBad s (cardAddr s 0 / 256) = false ∧
   checkAccess s (jobSecure s) .card (cardAddr s 0) = .ok ∧ checkAccess s (jobSecure s) .gpresent (cardAddr s 0) = .ok ∧
   inFlight b (.sched 0) = some l ∧ unitBad b (cardAddr b 0 / 256) = true ∧ cachedCard b 0 = none) ∧
  (let l := { loan1 .move with bad := [(0, 0, false)] }
   inFlight (lending [] [l]) (.sched 0) = some l ∧ l.due 0 = [(0, 0)] ∧ (loanCopies l)[0]? = some (.gddr 0x2000100)) ∧
  (∀ l ∈ [{ loan1 .move with bad := [(0, 1, false)] }, { loan1 .card with lost := true }],
   inFlight (lending [] [l]) (.sched 0) = some l ∧ (l.lost || l.gone.any fun g => l.chunks.all (·.holdsUnit (g / 8))) = true ∧
   l.hasPoison = false) ∧
  (let l := { loan1 .move with chunks := [], lost := true }
   inFlight (lending [] [l]) (.sched 0) = some l ∧ l.nolapse = true ∧ l.poisoned = false) := by decide

/-- An HREAD line and the last line of an HWRITE; an SRECV that is ready, an SSEND that is not yet acknowledged, of another worker's stream. -/
theorem wit_HostLines : ∀ k ∈ [ReqKind.hread, .hwrite],
    (let r := { req0 with kind := k, target := 0x1000, acked := 0 }
     let t := { tileReq r with slips := [(2, { want := 64, allot := 8, flight := 0, bind := 0 })] }
     let s := { run t with host := { up.host with lines := [(.tile 0 2 0, 64, 1)], wlines := [(.tile 0 2 0, 64, [7])] } }
     let T := (s.tile 0).settleEffects s.cycle
     (s.tile 0).pwr = .active ∧ lineOutstanding (.tile 0 2 0) 64 512 s.host.lines = true ∧ (s.tile 0).request 2 0 = some r ∧ r.posted = none ∧ s.host.mode ≠ 0 ∧
     (r.target / 32 + (lineGrans r 64).1) % 2 + (lineGrans r 64).2 ≤ 2 ∧ (s.tile 0).transit = [] ∧
     (T.slip 2).flight + (lineGrans r 64).2 ≤ (T.slip 2).allot ∧ r.acked + (lineGrans r 64).2 = r.grans ∧
     s.host.wlines.filter (fun p => decide (p.1 = HostOwner.tile 0 2 0 ∧ p.2.1 = 64)) = [(.tile 0 2 0, 64, [7])]) := by decide

theorem wit_Streams : (let e : StreamEnd := { site := 0, q := 2, id := 0, tag := 0, len := 0, seen := 0 }
    let r := { req0 with kind := .ssend, sent := 1 }
    let st : Stream := { sendSite := some 0, recvSite := some 1, sends := [e], recvs := [e], readies := 0, asks := [], acks := 0 }
    let s := { run (tileReq r) with streams := [(3, st), (259, { st with sendSite := none, recvSite := none, recvs := [] })] }
    s.dev = .run ∧ (s.stream 3).readies < (s.stream 3).recvs.length ∧ (s.stream 3).sendSite.isSome = true ∧
    (s.stream 3).recvs[(s.stream 3).acks]? = some e ∧ streamDrained s 3 e = true ∧
    (∀ n ∈ [3, 259], (s.stream n).sends[(s.stream n).acks]? = some e ∧ (s.stream n).sends[(s.stream n).readies]? = some e) ∧
    (s.tile 0).request 2 0 = some r ∧ r.sent = r.grans ∧ r.posted = none ∧ (s.tile 0).sendOf 2 0 = []) := by decide

/-! ### Jobs, reset and power -/

/-- A free entry, a device hold, a full queue of 256, and an entry that waits already. -/
theorem wit_SubmitQueues : (let q (l : List Nat) : State := { up with rgs := { Rgs.idle with queue := l } }
    hostReaches up = true ∧ up.dev ≠ .boot ∧ pageSecure up (Block.rgs.page 0) = false ∧ up.devHold = false ∧
    (pendingEntries up).length < 256 ∧ 255 ∉ pendingEntries up ∧ (pendingEntries (q (List.range 255))).length < 256 ∧
    255 ∉ pendingEntries (q (List.range 255)) ∧ 256 ≤ (pendingEntries (q (List.range 256))).length ∧ 7 ∈ pendingEntries (q [7])) := by
  decide +kernel

theorem wit_HoldAndAccession : (let s := { up with dev := .hold, rgs := { Rgs.idle with cur := some 3, held := true } }
    hostReaches s = true ∧ pageSecure s (Block.rgs.page 0) = false ∧ s.dev = .hold ∧ s.devHold = false ∧ s.rgs.cur = some 3) ∧
  (let s := { up with rgs := { Rgs.idle with queue := [3] } }
   s.rgs.queue = [3] ∧ s.dev = .sleep ∧ accepts s (Block.rgs.page 0) = true ∧ gddrAwake s = true) := by decide

/-- An entry in ACCESSION; one whose spanning folio waits, with no half reduced and with half W a step below its ceiling. -/
def acceding (wait : Bool) (freq : Word) : State :=
  { up with dev := .accession, rgs := { Rgs.idle with cur := some 255, seamWait := wait }, regs := [(rCPW_FREQ, freq)] }

theorem wit_AccessionOutcome : (acceding false 0).dev = .accession ∧ (acceding false 0).rgs.cur = some 255 ∧ 255 < 256 ∧
    (acceding false 0).rgs.seamWait = false ∧ (acceding true 0).rgs.seamWait = true ∧ halvesReduced (acceding true 0) = false ∧
    halvesReduced (acceding true 8) = true := by decide

/-- An empty entry fails its first check: a header outside the table is MAGIC or earlier, so the entry is held. -/
theorem test_accession_holds_bad_entry : (after (execAccessionDone (acceding false 0))).dev = .hold := by decide +kernel

/-- A job in ARMED at a stage, tile 0 ACTIVE, of given workers, some of them ready. -/
def arming (a : ArmStage) (ws ready : List Nat) (wid : Word) : State :=
  { up with dev := .armed, regs := [(rLNK_WID, wid)], tiles := [(0, tile0)],
            rgs := { Rgs.idle with cur := some 3, job := some job0, arm := a, workers := ws, readyFrom := ready } }

/-- A confined job at its PLLs and at its end; a spanning folio at its PLLs with half W reduced. -/
theorem wit_ArmedToRun : (∀ a ∈ [ArmStage.pll, .done], (arming a [] [] 0).dev = .armed ∧ (arming a [] [] 0).rgs.job = some job0 ∧
      (arming a [] [] 0).rgs.arm = a ∧ jobSpans (arming a [] [] 0) = false) ∧ job0.span = false ∧
    (copyCards (arming .done [] [] 0) job0 []).dev = .armed ∧ (jobSites (arming .done [] [] 0)).Nodup ∧
    ((arming .done [] [] 0).tile (siteOf Fuse.part (64 * job0.base + 0))).pwr = .active ∧
    (let s := { arming .pll [] [] 0 with regs := [(rCPW_FREQ, 8)], rgs := { (arming .pll [] [] 0).rgs with job := some { job0 with span := true } } }
     s.dev = .armed ∧ s.rgs.job = some { job0 with span := true } ∧ s.rgs.arm = .pll ∧ halvesReduced s = true) := by decide +kernel

/-- The root of a job of two, with neither and with one of them ready; the other worker, before and after its READY; one not yet ARMED. -/
theorem wit_SpanningStart : (let root (l : List Nat) := arming .done [4, 5] l 0x4004
    let other (l : List Nat) := arming .done [4, 5] l 0x4005
    (∀ s ∈ [root [], root [4], root [5], other [], other [5]], s.dev = .armed ∧ s.rgs.job = some job0 ∧ jobSpans s = true ∧ s.rgs.arm = .done) ∧
    (∀ s ∈ [root [], root [4]], bellRoot s = ownWid s ∧ 5 ∈ s.rgs.workers ∧ (∃ v ∈ s.rgs.workers, v ∉ s.rgs.readyFrom)) ∧
    (∃ v ∈ [4, 5], v ∉ (after (exec (.ready 5) (root []))).rgs.readyFrom) ∧ (∀ v ∈ [4, 5], v ∈ (after (exec (.ready 5) (root [4]))).rgs.readyFrom) ∧
    (∀ s ∈ [root [], root [5], other []], ownWid s ∉ s.rgs.readyFrom ∧ (copyCards s job0 []).dev = .armed) ∧
    ownWid (root []) ∈ (root []).rgs.workers ∧ (∃ v ∈ [4, 5], v ∉ (after (exec (.armedComplete []) (root []))).rgs.readyFrom) ∧
    (∀ v ∈ [4, 5], v ∈ (after (exec (.armedComplete []) (root [5]))).rgs.readyFrom) ∧ bellRoot (other []) ≠ ownWid (other []) ∧
    ownWid (other [5]) ∈ (other [5]).rgs.readyFrom ∧ up.dev ≠ .armed ∧ up.dev ≠ .boot ∧ up.inReset = false ∧ 5 ∉ up.rgs.readyFrom ∧
    6 ∉ (root []).rgs.workers ∧ 6 ∉ (root []).rgs.readyFrom ∧ (root []).dev ≠ .boot ∧ (root []).inReset = false) := by
  decide +kernel

/-- All tiles of the job HALTED, the mesh empty; the same job in DRAIN with nothing on its way. -/
theorem wit_DrainRuns : (let s := atBell { tile0 with halted := true }
    s.rgs.job = some job0 ∧ s.dev = .run ∧ (∀ x ∈ jobSites s, (s.tile x).halted = true) ∧ meshEmpty s = true ∧
    drained { s with dev := .drain } = true ∧ s.rgs.queue = [] ∧ (jobSites s).Nodup ∧
    (s.tile 0).pwr ≠ .fenced ∧ drained { s with dev := .drain, forward := [unit0 .accum] } = false) ∧
  (let s := { atBell { tile0 with halted := true } with dev := .drain, rgs := { (run tile0).rgs with queue := [9] } }
   s.rgs.job = some job0 ∧ drained s = true ∧ s.rgs.queue = [9] ∧ 9 ≠ job0.entry ∧ regFld s rCPW_DSTATE 2 1 = 0 ∧
   accepts s (Block.rgs.page 0) = true ∧ accepts { s with regs := [(Block.rgs.page 0 * 0x1000 + oCTRL, 3)] } (Block.rgs.page 0) = false ∧
   drained { s with regs := [(Block.rgs.page 0 * 0x1000 + oCTRL, 3)] } = true) := by decide +kernel

theorem wit_JobFaults : (let f : FaultRec := { reason := 255, detail := 65535, site := 4095, k := 0, at_ := 0 }
    let s := { run tile0 with dev := .faulted, regs := [(rLNK_WID, 0x4004)], rgs := { (run tile0).rgs with fault := some f, workers := [4, 5] } }
    s.dev = .faulted ∧ s.rgs.fault = some f ∧ s.rgs.job = some job0 ∧ f.reason < 256 ∧ f.detail < 65536 ∧ f.site < 4096 ∧ 0 ∈ jobSites s ∧
    jobSpans s = true ∧ 5 ∈ s.rgs.workers ∧ 5 ≠ ownWid s) ∧
  (let s := { arming .done [4, 5] [] 0x4004 with rgs := { (arming .done [4, 5] [] 0x4004).rgs with ref := some (0x4001, 7) } }
   s.dev = .armed ∧ 5 ∈ s.rgs.workers ∧ s.rgs.ref = some (0x4001, 7) ∧ up.dev = .sleep) := by decide +kernel

theorem wit_DeviceResets : (hostReaches up = true ∧ up.dev ≠ .boot ∧ pageSecure up (Block.cpw.page 0) = false ∧ up.inReset = false) ∧
    State.reset.inReset = true := by decide

/-- An image of no valid header. -/
def image0 (t : Word) : Image :=
  { magic := 0, itype := t, svn := 0, ecdsaSlot := 0, lmsSlot := 0, digest := 0, ecdsaKey := [], lmsKey := [], ecdsaSig := [], lmsSig := [],
    body := [] }

theorem wit_BootRuns : (State.reset.inReset = true ∧ State.reset.pow.tripped = false ∧ State.reset.keeper.udsLocked = false ∧
    Fuse.part.lifecycle ≠ 2 ∧ { Fuse.part with lifecycle := 2 }.lifecycle = 2) ∧
  (let s := { State.reset with inReset := false }
   s.dev = .boot ∧ s.keeper.recovering = false ∧ (s.fuse.grade ≠ 3 ∨ s.mgrRole = true)) ∧
  (let s := { State.reset with inReset := false, fuse := { Fuse.part with grade := 3 } }
   s.dev = .boot ∧ s.fuse.grade = 3 ∧ s.mgrRole = false) ∧
  (let s := { State.reset with inReset := false, keeper := { Keeper.reset with recovering := true } }
   s.keeper.recovering = true ∧ (image0 1).itype = 1 ∧ (image0 2).itype = 2 ∧ imageCheck s.fuse 1 (some (image0 1)) = 1) := by decide

/-- A device in SLEEP with an LND_CMD in progress. -/
def paging0 (c : Option (Nat × Nat × Bool)) : State := { up with lend := { cards := [], started := [], loans := [], cmd := c } }

theorem wit_HostLink : (up.host.mode ≠ 0 ∧ up.inReset = false ∧ up.dev = .sleep ∧ (run tile0).host.mode ≠ 0 ∧ (run tile0).dev = .run) ∧
  (let s := { acceding false 0 with host := { up.host with dma := { up.host.dma with busy := true } } }
   s.host.mode ≠ 0 ∧ s.host.dma.busy = true ∧ s.dev = .accession ∧ s.rgs.cur = some 255) ∧
  (let s := { up with host := { up.host with mode := 0 } }
   s.inReset = false ∧ s.host.mode = 0 ∧ s.pins.perstN = true ∧ { s.pins with perstN := false }.perstN = false ∧ s.host.lines = [] ∧
   State.reset.inReset = true) ∧
  (paging0 (some (1, 0, false))).lend.cmd.isSome = true ∧ (paging0 (some (1, 0, false))).host.mode ≠ 0 := by decide

/-- Readings that no threshold meets, with one of the trip threshold of a logic sensor, of the throttle threshold, and above the cap. -/
def cool : Readings := { logic := [40, 40, 40, 40], sram := [40, 40, 40, 40], gddr := [], conv := [], power := 0 }

/-- A device whose power cap is 1,000 W, its W half two steps down and nine ticks below resume. -/
def capped : State := { up with regs := [(rCPW_PCAP, 1000), (rCPW_FREQ, 16)], pow := { State.reset.pow with wBelow := 9 } }

/-- Cool, at 950 W. -/
def warm950 : Readings := { cool with power := 950 }

theorem wit_ThermalTicks :
    (∃ p ∈ allReadings { cool with logic := [40, 40, 40, 200] }, p.2.trip ≤ p.1) ∧ (∀ p ∈ allReadings cool, p.1 < p.2.trip) ∧
    (let s := { State.reset with pow := { State.reset.pow with tripped := true } }
     s.inReset = true ∧ s.pow.tripped = true) ∧ capped.inReset = false ∧ regFld capped rCPW_PCAP 0 12 < 1001 ∧
    (∀ p ∈ actingOn cool false, p.1 < p.2.throttle ∧ p.1 < p.2.resume) ∧ 100 * cool.power < 95 * regFld capped rCPW_PCAP 0 12 ∧
    9 ≤ capped.pow.wBelow ∧
    (let warm := { cool with logic := [95, 95, 95, 95] }
     (∀ p ∈ allReadings warm, p.1 < p.2.trip) ∧ (∀ p ∈ actingOn warm false, p.1 < p.2.throttle) ∧ (∃ p ∈ actingOn warm false, p.2.resume ≤ p.1)) ∧
    warm950.power ≤ regFld capped rCPW_PCAP 0 12 ∧ 95 * regFld capped rCPW_PCAP 0 12 ≤ 100 * warm950.power ∧
    (∃ p ∈ actingOn { cool with logic := [100, 100, 100, 100] } false, p.2.throttle ≤ p.1) ∧
    (∃ p ∈ actingOn { cool with logic := [100, 100, 100, 100] } true, p.2.throttle ≤ p.1) := by decide

theorem wit_Sleep : (let s := { up with regs := [(rCPW_IDLE, 1)] }
    mayDSleep s = true ∧ mayDSleep { s with dev := .hold } = false ∧ regFld { up with regs := [(rCPW_DSTATE, 0)] } rCPW_DSTATE 0 2 = 0 ∧
    regFld s rCPW_DSTATE 0 2 ≠ 0) ∧
  (let s := { up with regs := [(rCPW_DSTATE, 5)], host := { up.host with waiting := [.read 0x100 64] } }
   regFld s rCPW_DSTATE 2 1 = 1 ∧ regFld s rCPW_DSTATE 0 2 ≠ 0 ∧ s.host.waiting = [.read 0x100 64] ∧ s.keeper.running = none ∧
   tierOpen (setFld s rCPW_DSTATE 2 1 0) 0x100 64 = true ∧ regFld up rCPW_DSTATE 2 1 = 0) := by decide

/-! ### Registers and the host's data paths -/

/-- Pages that are open to the host, the first and the last of their blocks; the secure page to a secure actor. -/
theorem wit_PageOpen_rgs : PageOpen up .host (Block.rgs.page 0) .rgs 0 := by unfold PageOpen; decide +kernel
theorem wit_PageOpen_mct : PageOpen up .host (Block.mct.page 9) .mct 9 := by unfold PageOpen; decide +kernel
theorem wit_PageOpen_lnk : PageOpen up .host (Block.lnk.page 0) .lnk 0 := by unfold PageOpen; decide +kernel
theorem wit_PageOpen_cen : PageOpen up .host (Block.cen.page 0) .cen 0 := by unfold PageOpen; decide +kernel
theorem wit_PageOpen_tim : PageOpen up .host (Block.tim.page 0) .tim 0 := by unfold PageOpen; decide +kernel
theorem wit_PageOpen_glb : PageOpen up .host (Block.glb.page 0) .glb 0 := by unfold PageOpen; decide +kernel
theorem wit_PageOpen_sec : PageOpen up .secureActor (Block.sec.page 0) .sec 0 := by unfold PageOpen; decide +kernel

/-- Words with every assigned bit of LNK0's ISTAT, IEN and IFORCE, and with the reserved bit 4; a vector whose condition holds, masked and not. -/
theorem wit_InterruptRegisters : (∀ o ∈ [oISTAT, oIEN, 0x018], reservedSet (headerFields .lnk 0 o) 0x30F = false ∧
      reservedSet (headerFields .lnk 0 o) 0x31F = true) ∧
    (let s := { up with regs := [(Block.rgs.page 0 * 0x1000 + oISTAT, 0x1F), (Block.rgs.page 0 * 0x1000 + oIEN, 0x1F)] }
     (∃ v ∈ pageVectors (Block.rgs.page 0), vectorCond s v = true ∧ SMap.get true s.host.mask v = true ∧
        SMap.get false s.host.cond v = false) ∧ s.host.mode ≠ 0 ∧
     (∃ v ∈ pageVectors (Block.rgs.page 0), SMap.get true [(v, false)] v = false)) := by decide +kernel

/-- A page that accepts work, in RUN and in SLEEP; one that does not, with work and without. -/
theorem wit_BlockControl : (let page := Block.cen.page 0
    let off : State := { up with regs := [(page * 0x1000 + oCTRL, 0)] }
    let draining : State := { up with regs := [(page * 0x1000 + oCTRL, 3)] }
    regFld up (page * 0x1000 + oCTRL) 0 1 = 1 ∧ regFld up (page * 0x1000 + oCTRL) 1 1 = 0 ∧ (run tile0).dev = .run ∧
    accepts up page = true ∧ accepts off page = false ∧ regFld off (page * 0x1000 + oCTRL) 1 1 = 0 ∧
    regFld draining (page * 0x1000 + oCTRL) 0 1 = 1 ∧ accepts draining page = false ∧ up.inReset = false ∧
    workLeft off .cen 0 = false) ∧
  (acceding false 0).dev = .accession ∧ (acceding false 0).rgs.cur = some 255 ∧ (arming .done [] [] 0).dev = .armed ∧
  (arming .done [] [] 0).rgs.cur = some 3 ∧ (arming .done [] [] 0).rgs.job.isSome = true ∧ up.host.waiting = [] ∧ up.keeper.running = none ∧
  (up.ctl 9).reads = [] ∧ (up.room 0).banks = [] := by decide +kernel

/-- A register of RW fields written in its range and with a reserved bit; CPW_PCAP's page secure. -/
theorem wit_RegisterAccess : (let o := 0x040
    o % 4 = 0 ∧ o < 0x1000 ∧ unpredictable up .cen 0 o 0 false = false ∧ unpredictable up .cen 0 o 0xFFFFFFFF false = true ∧ fieldsOf .cen 0 o ≠ Fields.none ∧
    fieldsOf .cen 0 0xFFC = Fields.none) ∧
    (let s := { up with regs := [(Block.cen.page 0 * 0x1000 + oWORLD, 1)] }
     pageBlock (Block.cen.page 0) = some (.cen, 0) ∧ hostReaches s = true ∧ s.dev ≠ .boot ∧ pageSecure s (Block.cen.page 0) = true ∧
     keyOpen s.time s.keeper.keys (8 * (64 + Block.cen.page 0 * 0x1000)) = false ∧ s.keeper.xlog.length < 16) ∧
    (let e : XEnt := { source := 7, write := true, adopt := false, entry := 63, lost := 255, addr := 0, sec := 0, ns := 0, key := 0, time := 0 }
     { Keeper.reset with xlog := [e] }.xlog = [e] ∧ e.source < 8 ∧ e.entry < 64 ∧ e.lost < 256) := by decide +kernel

/-- TIL pages of a site without a logical tile and of one with. -/
theorem wit_UnusedPage : pageBlock (Block.til.page 2047) = some (.til, 2047) ∧ unusedPage { up with fuse := { Fuse.part with grade := 2 } } .til 2047 = true ∧
    unusedPage up .til 0 = false := by decide +kernel

/-- A hole of BAR0, an offset of the MSI-X table, and one that is not aligned. -/
theorem wit_Holes : inMsix 0x4FFF000 = false ∧ pageBlock (0x4FFF000 / 0x1000) = none ∧ 0x4FFF000 % 4 = 0 ∧ inMsix 0x4008000 = true ∧
    0x4FFF002 % 4 ≠ 0 := by decide +kernel

/-- A region of the secure world shuts the non-secure host out; the byte before it and the byte after it do not. -/
theorem wit_HostMemory : (let s := { up with regions := [(5, { base := 2, last := 2, kind := 3, secure := true })], host := { up.host with mode := 3, hdm := true, memEn := true } }
    s.dev ≠ .boot ∧ hostReaches s = true ∧ hdmOpen s = true ∧ hostShut s true 0x2000000 = some 5 ∧ hostShut s true 0x1FFFFFF = none ∧
    hostShut s false 0x3000000 = none ∧ 0x3000000 < gddrEnd ∧ tierOpen s 0x2000000 512 = true ∧
    runConfig s 0x2000000 = false ∧ inEntries s (pendingEntries s) 0x2000000 = false ∧
    (s.ctl (mcOf 0x20000)).cached 0x20000 = none ∧ (ledgerOf s 0x20000).isNone = true ∧
    (let z := setReg s rCPW_DSTATE 0
     tierOpen z 0x2000000 512 = false ∧ regFld z rCPW_DSTATE 0 2 = 0) ∧
    (let t := setReg s (Block.mct.reg 1 oCTRL) 0
     tierOpen t 0x100 1 = false ∧ tierOpen t 0xFF 1 = true ∧ tierOpen t 0xFF 2 = false)) := by decide +kernel

/-- A ring of 4,096 whose tail and HEAD are 5: the last tail that does not pass HEAD, and in a ring of 16 one outside it. -/
theorem wit_DmaEngine : (let s n : State := { up with regs := [(rHIF_DMA_CFG, n), (rHIF_DMA_HEAD, 5)], host := { up.host with dma := { tail := 5, stopped := false, busy := true, status := 0 } } }
    hostReaches (s 12) = true ∧ (s 12).dev ≠ .boot ∧ pageSecure (s 12) (Block.hif.page 0) = false ∧ tailBad (s 12) 4 = false ∧
    tailBad (s 12) 4095 = false ∧ tailBad (s 4) 16 = true ∧ (s 12).host.dma.busy = true ∧ regFld (s 12) rHIF_DMA_CFG 0 4 ≤ 12 ∧
    descriptorBad [0, 0, 0, 0, 0x2000000, 0, 0, 0] = false ∧ descriptorBad [1, 0, 0, 0, 0x2000000, 0, 0, 0] = false ∧
    descriptorBad [2, 0, 0, 0, 0x876E8000, 372, 0, 0] = true ∧ descriptorBad [3, 0, 0, 0, 0x876E7FE0, 372, 0, 0] = false ∧
    bit (wordAt [3, 0, 0, 0, 0, 0, 0, 0] 0) 1 = true ∧ up.host.dma.busy = false ∧ dmaMayStart up = false ∧
    (let b := { s 12 with ecc := [(0x100000, .uncorrectable)] }
     unitBad b 0x20000 = true ∧ (b.ctl (mcOf 0x20000)).cached 0x20000 = none ∧ hostShut b false 0x2000000 = none) ∧
    tierOpen (s 12) 0x2000000 32 = true ∧ tierOpen (setReg (s 12) (Block.mct.reg (mcOf 0x20000) oCTRL) 3) 0x2000000 32 = false) := by decide +kernel

/-- A card with an object of 4 granules at 0x2000000 and a copy at the start of the host's aperture. -/
def paging (kind : Nat) (d : DevState) : State :=
  { up with dev := d, regs := [(rLND_CATALOG, 0x10000), (rHIF_HAP 0 2, 0x80000000)], host := { up.host with mode := 3, cacheEn := true }, gddr := [(0, 0x09), (4, 3), (11, 2)],
            regions := [(1, { base := 0, last := 0, kind := 4, secure := false }), (5, { base := 2, last := 2, kind := kind, secure := false })] }

/-- Cards that PAGEIN and PAGEOUT take, one that PAGEIN is refused for (its home a ledger), one beyond the catalogue, one outside SYSTEM. -/
theorem wit_PagingCommands : (let ok (s : State) (i : Nat) := lndOpen s i = true ∧ cardBad s i = false
    (∀ s ∈ [paging 3 .sleep, paging 2 .sleep, paging 2 .armed], hostReaches s = true ∧ s.dev ≠ .boot ∧
      pageSecure s (Block.lnd.page 0) = false ∧ s.lend.cmd = none ∧ ok s 0 ∧ checkAccess s false .card (cardAddr s 0) = .ok) ∧
    lndRefused (paging 3 .sleep) true 0 = false ∧ lndRefused (paging 2 .armed) false 0 = false ∧ lndRefused (paging 2 .sleep) true 0 = true ∧
    lndRefused (paging 3 .sleep) false 1 = true ∧ ok (paging 3 .sleep) 1 ∧ lndOpen (paging 3 .sleep) (2 ^ 19 - 1) = false ∧
    lndOpen (paging 3 .run) 0 = false ∧
    ¬ checkAccess { paging 3 .sleep with regions := [] } false .card (cardAddr (paging 3 .sleep) 0) = .ok) := by decide +kernel

/-- A PAGEIN of that card, and PAGEOUTs to an annex and from a ledger, about to end; the host's copy is of two lines. -/
theorem wit_PagingDone : ∀ op ∈ [1, 2], ∀ k ∈ [2, 3],
    (let s := { paging k .sleep with lend := { cards := [], started := [], loans := [], cmd := some (op, 0, false) } }
     let c := decodeCard (cardNow s 0)
     s.lend.cmd = some (op, 0, false) ∧ tierOpen s (cardAddr s 0) 64 = true ∧ tierOpen s c.gaddr (32 * c.size) = true ∧ s.host.mode ≠ 0 ∧ cachedCard s 0 = none ∧
     c.valid = true ∧ checkAccess s false .card (cardAddr s 0) = .ok ∧ checkAccess s false .gpresent (cardAddr s 0) = .ok ∧
     unitBad s (cardAddr s 0 / 256) = false ∧ (s.ctl (mcOf (cardAddr s 0 / 256))).cached (cardAddr s 0 / 256) = none ∧ c.size = 4 ∧ (lineSpan c.haddr (32 * c.size)).2 = 2 ∧ homeShut s false (op == 1) c = none ∧
     (∀ u ∈ touchedUnits c.gaddr (32 * c.size), unitBad s u = false) ∧ (s.ctl (mcOf (c.gaddr / 256))).cached (c.gaddr / 256) = none ∧ (regionAt s c.gaddr).map (fun p => p.2.kind) = some k) := by decide +kernel

theorem wit_ConfigurationSpace : hostReaches up = true ∧ up.host.mode ≠ 0 ∧ kfwServes up = true ∧ up.host.ready = true ∧
    ¬ up.host.mode ≤ 3 ∧ (let h := { up.host with mode := 3, ready := false }
      h.mode ≠ 0 ∧ h.ready = false ∧ h.mode ≤ 3) ∧
    kfwServes { up with dev := .boot, host := { up.host with kfwAt := some 1 } } = false ∧ State.reset.host.mode = 0 ∧
    functionId { up.fuse with grade := 1, b0 := true } = [0x21, 0x4E, 0xB0, 0x00, 0x00, 0x12] := by decide

/-! ### The Keeper and SPDM -/

/-- A secure session is established; entry 63 is a region of a kind and a world at the last 16 MiB units of the table's space. -/
def secured (kind : Nat) (sec : Bool) (d : DevState) : State :=
  { up with dev := d, regions := [(63, { base := 8, last := 9, kind := kind, secure := sec })],
            spdm := { Spdm.reset with version := true, caps := true, algs := true, sessions := [{ id := 1, established := true, keys := 0 }], nextId := 2 } }

/-- Arguments of REGION_SET for entry 63: units 8 to 8 secure, and units 10 to 11; of the entry 64; of an overlap from entry 0. -/
theorem wit_RegionCommands : (let s := secured 3 true .sleep
    let c (args : List Word) : KCmd := { src := .secure, code := 1, args := args }
    secureHost s = true ∧ s.inReset = false ∧ s.keeper.running = none ∧ s.keeper.waiting = [] ∧
    unassignedBits (c [63, 8, 9, 0x103]) .regionSet = false ∧ malformed s (c [63, 8, 9, 0x103]) .regionSet = false ∧
    leaving (s.region 63) (argRegion (c [63, 8, 9, 0x103])) = [] ∧
    malformed s (c [63, 8, 8, 0x103]) .regionSet = false ∧ leaving (s.region 63) (argRegion (c [63, 8, 8, 0x103])) = [(9, 10)] ∧
    malformed s (c [64, 8, 8, 0x103]) .regionSet = true ∧ unassignedBits (c [63, 8, 9, 0x203]) .regionSet = true ∧
    overlapsOther s 0 (argRegion (c [0, 9, 9, 1])) = true) ∧
  (let s := secured 3 true .sleep
   let c (k : Nat) (args : List Word) : KCmd := { src := .secure, code := k, args := args }
   malformed s (c 2 [63]) .regionClear = false ∧ unassignedBits (c 2 [63]) .regionClear = false ∧ (s.region 63).kind ≠ 0 ∧
   (s.region 63).secure = true ∧ (s.region 63).base ≤ (s.region 63).last ∧ (s.region 0).kind = 0 ∧
   malformed s (c 3 [63]) .regionRead = false ∧ unassignedBits (c 3 [63]) .regionRead = false ∧
   malformed s (c 16 (63 :: 0x20000 :: List.replicate 12 0)) .adopt = false ∧
   unassignedBits (c 16 (63 :: 0x20000 :: List.replicate 12 0)) .adopt = false ∧
   malformed s (c 16 (63 :: 0x20001 :: List.replicate 12 0)) .adopt = true) ∧
  ((secured 3 true .run).dev = .run ∧ hostReaches (secured 3 true .sleep) = true ∧ pageSecure (secured 3 true .sleep) 0 = false ∧
   0 < [(63 : Word)].length) := by decide +kernel

theorem wit_ScrubAndAdopt : (let c : KCmd := { src := .secure, code := 2, args := [63] }
    let s := { secured 3 true .sleep with keeper := { Keeper.reset with running := some c, scrub := [(8, 10)] } }
    s.keeper.running = some c ∧ s.keeper.waiting = [] ∧ c.src = .secure ∧ s.keeper.adopting = none ∧ (8, 10) ∈ s.keeper.scrub ∧ s.keeper.scrub ≠ [] ∧
    gddrAwake s = true ∧ ∀ m < 10, accepts s (Block.mct.page m) = true) ∧
  (let c : KCmd := { src := .secure, code := 16, args := 63 :: 1 :: List.replicate 12 0 }
   let s := { secured 3 false .sleep with keeper := { Keeper.reset with running := some c, adopting := some 63 } }
   s.keeper.running = some c ∧ s.keeper.waiting = [] ∧ c.src = .secure ∧ s.keeper.adopting = some (wordAt c.args 0).toNat ∧
    gddrAwake s = true ∧ (∀ m < 10, accepts s (Block.mct.page m) = true) ∧
    (∀ u ∈ touchedUnits ((s.region 63).base * 0x1000000) 256, unitBad s u = false) ∧
    (let b := { s with ecc := [(0x8000000 / 32, .uncorrectable)] }
     ∃ u ∈ touchedUnits ((b.region 63).base * 0x1000000) 256, unitBad b u = true ∧ (b.ctl (mcOf u)).cached u = none)) := by decide +kernel

theorem wit_KeeperCommands : (let s := secured 3 true .sleep
    let right (o : KOp) (args : List Word) : Bool :=
      !unassignedBits { src := .secure, code := o.code, args := args } o && !malformed s { src := .secure, code := o.code, args := args } o
    right .setDigest (255 :: List.replicate 12 1) = true ∧ right .secWrite (0x8000000 :: 0 :: 32 :: List.replicate 8 0xABCD) = true ∧
    right .pageWorld [BitVec.ofNat 32 (Block.cen.page 0 * 0x1000), 3] = true ∧ right .mgrTrust [255] = true ∧ right .mgrTrust [3] = true ∧
    right .commitSvn [1] = true ∧ right .commitSvn [2] = true ∧ right .revoke [1, 3] = true ∧
    (kop 0x14).isSome = true ∧ managerTrusted s 3 = false ∧ tierOpen s 0x8000000 32 = true ∧
    tierOpen { s with regs := [(rCPW_DSTATE, 5)] } 0x8000000 32 = false ∧
    (let t := { s with
       keeper := { Keeper.reset with trusted := some 3 }, route := [(0x4003, 0x1F)], regs := [(rLNK_STAT 15, 2), (rLNK_PEER 15, 0x4003)] }
     let c : KCmd := { src := .vc11 3, code := 0x11, args := 255 :: List.replicate 12 1 }
     t.inReset = false ∧ managerTrusted t 3 = true ∧ unassignedBits c .setDigest = false ∧ malformed t c .setDigest = false)) := by decide +kernel

/-- A part that has derived its Alias key, in that session; one that has not; a part in RMA. -/
def attesting : State :=
  { secured 0 false .sleep with
      keeper := { Keeper.reset with identity := some { deviceId := [], cdi := some 5, aliasKey := [], aliasCert := [] }, udsLocked := true } }

theorem wit_SpdmRequests : (∀ s ∈ [attesting, secured 0 false .sleep], doeServes s 0 = true ∧ s.fuse.lifecycle ≠ 2 ∧ s.spdm.version = true ∧
      s.spdm.caps = true ∧ s.spdm.algs = true ∧ s.spdm.flight = false) ∧ up.spdm.flight = false ∧ up.dev ≠ .boot ∧
    { up.spdm with flight := true }.flight = true ∧
    attesting.keeper.identity.bind (·.cdi) = some 5 ∧ (secured 0 false .sleep).keeper.identity.bind (·.cdi) = none ∧
    doeServes up 0 = true ∧ up.spdm.version = false ∧ up.spdm.caps = false ∧ up.spdm.algs = false ∧
    doeServes { up with host := { up.host with mode := 3 } } 0 = true ∧
    doeServes { up with fuse := { Fuse.part with lifecycle := 2 } } 0 = true := by decide +kernel

/-- A vendor-defined request whose scrub is about to end; one that comes while a command runs. -/
theorem wit_VendorCommands : (let c : KCmd := { src := .secure, code := 2, args := [63], viaDoe := true }
    let s := { secured 3 true .sleep with
      keeper := { Keeper.reset with running := some c, scrub := [(8, 10)] }, spdm := { (secured 3 true .sleep).spdm with flight := true } }
    s.keeper.running = some c ∧ s.keeper.waiting = [] ∧ s.keeper.adopting = none ∧ s.keeper.scrub ≠ [] ∧ gddrAwake s = true ∧
    (∀ m < 10, accepts s (Block.mct.page m) = true) ∧ s.spdm.flight = true ∧
    (let t := { s with spdm := { s.spdm with flight := false } }
     t.keeper.running.isSome = true ∧ sessionOpen t 1 = true ∧ doeServes t 0 = true ∧ t.spdm.flight = false)) := by decide +kernel

theorem wit_SpdmSessions : (attesting.spdm.sessions.length < 2 ∧ sessionOpen attesting 1 = true ∧ sessionOpen attesting 2 = false ∧
    attesting.keeper.running = none ∧ attesting.keeper.waiting = [] ∧ attesting.inReset = false ∧ kop 0xFF = none ∧
    unassignedBits { src := .secure, code := 0x14, args := [255] } .mgrTrust = false ∧
    malformed attesting { src := .secure, code := 0x14, args := [255] } .mgrTrust = false) ∧
  (let s := { up with spdm := { Spdm.reset with algs := true, sessions := [{ id := 1, established := false, keys := 0 }, { id := 2, established := false, keys := 0 }] } }
   doeServes s 0 = true ∧ 2 ≤ s.spdm.sessions.length ∧ (∃ e ∈ s.spdm.sessions, e.id = 2 ∧ e.established = false)) := by decide +kernel

/-! ### Links, messages and managers -/

/-- A device with a word in LNK15's status and that port. -/
def linked (stat : Word) (P : Port) : State := { up with regs := [(rLNK_STAT 15, stat)], ports := [(15, P)] }

/-- A message for worker 7. -/
def msg0 (vc : Nat) : LinkMsg := { dest := 7, src := 0, vc := vc, what := "ledgerUnit", words := [], port := some 15 }

/-- A port that has used no credits has none to come back. -/
theorem credited_fresh (x : Port) (d : Nat) (h : x.used = []) : x.credited d = x := by
  obtain ⟨_, _, _, _, _, _, _, _⟩ := x; subst h; simp [Port.credited, SMap.get, SMap.find, List.range, List.range.loop, SMap.set, SMap.del]

/-- Port 15 down and training, and up: its resends, its idle, and one message of each of VC 0 and VC 10 in every slot of the frame. -/
theorem wit_LinkPorts : (let down := linked 0 { Port.idle with training := true }
    let on (n k : Nat) (st : Word) := linked st { Port.idle with out := [msg0 0, msg0 10], slot := k, fails := n, replay := [msg0 0] }
    let x (k : Nat) := (on 0 k 2).port 15
    down.inReset = false ∧ portUp down 15 = false ∧ (down.port 15).training = true ∧ accepts down (Block.lnk.page 15) = true ∧
    down.keeper.recovering = false ∧ portUp (on 15 0 2) 15 = true ∧ ((on 15 0 2).port 15).replay ≠ [] ∧ ((on 15 0 2).port 15).fails < 16 ∧
    16 ≤ ((on 16 0 2).port 15).fails ∧ regFld (on 0 0 2) (Block.lnk.page 15 * 0x1000 + oSTAT) 5 1 = 0 ∧
    regFld (on 0 0 0x22) (Block.lnk.page 15 * 0x1000 + oSTAT) 5 1 = 1 ∧ accepts (on 0 0 2) (Block.lnk.page 15) = true ∧
    (∀ k ∈ List.range 16, (x k).used = []) ∧ (∃ k ∈ List.range 16, slotOwner (x k).slot = some 0 ∧ (x k).has 0 = true) ∧
    (∃ k ∈ List.range 16, (∀ w ∈ slotOwner (x k).slot, (x k).has w = false) ∧ (x k).has 10 = true)) := by
  decide +kernel

/-- A manager with a word in LNK15's CTRL. -/
def shelfManager (ctrl : Word) : State := { up with mgrRole := true, regs := [(Block.lnk.page 15 * 0x1000 + oCTRL, ctrl)] }

/-- A manager's port trains where it has a partner, which the board says; one with DRAIN = 1 does not. -/
theorem wit_PortTrains (fitted : Config.partnerFitted 15 = true) : portTrains (shelfManager 1) 15 = true ∧ portTrains (shelfManager 3) 15 = false := by
  have h : accepts (shelfManager 1) (Block.lnk.page 15) = true := by decide
  have g : accepts (shelfManager 3) (Block.lnk.page 15) = false := by decide
  exact ⟨by rw [portTrains, h, fitted]; rfl, by rw [portTrains, g]; rfl⟩

theorem wit_Lpi : (let s := { linked 2 Port.idle with regs := [(rLNK_STAT 15, 2), (rCPW_IDLE, 256), (rCPW_DSTATE, 0)] }
    portUp s 15 = true ∧ regFld s rCPW_IDLE 8 1 = 1 ∧ regFld s rCPW_DSTATE 0 2 = 0) := by decide +kernel

/-- A message with a route to port 15, which is up; one whose port is down and whose VC may use ALT; one without a route, at its source
and passing through. -/
theorem wit_RoutedMessages : (let s := { linked 2 Port.idle with route := [(7, 0x1F), (8, 0x3D3)] }
    s.inReset = false ∧ isOwn s (msg0 0) = false ∧ bit (SMap.get 0 s.route 7) 4 = true ∧ fld (SMap.get 0 s.route 7) 0 4 = 15 ∧
    portUp s 15 = true ∧ portUp s (fld (SMap.get 0 s.route 8) 0 4) = false ∧ bit (SMap.get 0 s.route 8) 9 = true ∧
    bit (SMap.get 0 s.route 8) 4 = true ∧ bit (SMap.get 0 s.route 9) 4 = false ∧ (msg0 0).src = ownAddr s ∧
    ({ msg0 0 with src := 5 } : LinkMsg).src ≠ ownAddr s ∧ arrives s (msg0 0) = true ∧
    arrives { s with regs := [] } (msg0 0) = false ∧
    (let m := { msg0 0 with port := none }
     arrives { s with linkOut := [m] } m = true ∧ arrives s m = false)) ∧
  (let s := { run tile0 with regs := [(rLNK_WID, 0x4000), (rLNK_STAT 15, 2)] }
   let m : LinkMsg := { dest := 0, src := 5, vc := 11, what := "mirrorRefused", words := [], port := some 15 }
   isOwn s m = true ∧ arrives s m = true ∧ s.dev = .run ∧ s.inReset = false) := by decide +kernel

/-- The part of a job of workers 9 and 10 for one of them, without images. -/
def part0 (w : Nat) : Part := { relay := { Relay.none with worker := w, workers := [9, 10], job := 1, lead := 0x4000 }, images := [] }

/-- A manager whose workers 9 and 10 are at positions 2 and 6, a spare at 3, given probes and heartbeats of 9 missed. -/
def managing (probes : List (Nat × Nat × Nat)) (missed : Nat) : State :=
  { up with mgrRole := true,
            mgr := { Mgr.reset with map := [(2, { st := .active 9, grade := 0, b0 := true }), (3, { st := .spare, grade := 0, b0 := true }),
                                            (6, { st := .active 10, grade := 0, b0 := true })],
                                    probes := probes, missed := [(9, missed)], parts := [part0 9, part0 10] } }

/-- A manager with two and with three heartbeats missed, one that probes, one whose worker rests by notice; a worker in RUN. -/
theorem wit_ManagersWatch : (let s := managing [] 1
    s.inReset = false ∧ s.mgrRole = true ∧ positionOf s 9 = some 2 ∧ s.mgr.probes = [] ∧ (∃ r ∈ relays s, r.worker = 9) ∧
    restsByNotice s 9 = false ∧ takingOver s 9 = false ∧ SMap.get 0 s.mgr.missed 9 < 2 ∧ 2 ≤ SMap.get 0 (managing [] 2).mgr.missed 9 ∧
    (∃ r ∈ relays s, 9 ∈ r.workers ∧ r.worker ≠ 9) ∧ restsByNotice { s with mgr := { s.mgr with resting := [9] } } 9 = true ∧
    (∀ z ∈ [none, some 3],
      let k : Takeover := { worker := 9, lost := 2, spare := z, copies := [], waits := false, sec := 0, ns := 0 }
      let t := { s with mgr := { s.mgr with takeovers := [k] } }
      takingOver t 9 = true ∧ k ∈ t.mgr.takeovers ∧ ledTo t 9 (reporterCode t 10) 0 = false) ∧
    placeOfWorker s 9 = some (placeAt 0 2) ∧ s.mgr.leads = []) ∧
  (let at_ (w : Nat) : MapEnt := { st := .active w, grade := 0, b0 := true }
   let s := { managing [] 0 with regs := [(rLNK_STAT 0, 2), (rLNK_STAT 1, 2)], route := [(9, 0x10)],
                                 mgr := { (managing [] 0).mgr with map := [(0, at_ 30), (2, at_ 9), (4, at_ 31), (6, at_ 10)] } }
   portUp s 0 = true ∧ portUp s 1 = true ∧ fld (routeEntry s 9) 0 4 = 0 ∧
   (∀ q ∈ [0, 1], (routeLegs s (placeAt 0 (4 * q)) (placeAt 0 2)).any (isLink (placeAt 0 4) 9) = (q == 1))) ∧
  (let t := { managing [] 0 with mgr := { (managing [] 0).mgr with leads := [(9, [1])] } }
   ∃ q ∈ t.mgr.leads, 1 ∈ q.2) ∧
  (let s := managing [(9, 6, 9)] 1
   s.mgr.probes.find? (fun q => q.1 == 9) = some (9, 6, 9) ∧ (∀ q ∈ s.mgr.probes, q.1 ≠ 10) ∧ (usersOf s (placeOfCode 6) 9).length = 2) ∧
  (let s := { run tile0 with regs := [(rLNK_WID, 0x4005)] }
   s.mgrRole = false ∧ s.dev = .run ∧ s.inReset = false ∧ regFld s rLNK_WID 14 1 = 1 ∧ 5 = ownWid s ∧ regFld s (rLNK_STAT 0) 6 1 = 0) := by
  decide +kernel

/-- A relay to a manager, of a worker, of the bay map alone, and to the worker; a worker that a spare takes over. -/
theorem wit_RelaysAndTakeovers : (let s := managing [] 0
    let t := { up with regs := [(rLNK_WID, 0x4009)] }
    s.inReset = false ∧ s.dev ≠ .boot ∧ s.mgrRole = true ∧ (part0 9).relay.workers ≠ [] ∧ Relay.none.workers = [] ∧
    hostMayMap (mapEnt s 4).st .spare = true ∧ hostMayMap (mapEnt s 4).st (.active 9999) = true ∧ hostMayMap (mapEnt s 4).st (.active 10000) = true ∧
    t.mgrRole = false ∧ regFld t rLNK_WID 14 1 = 1 ∧ (part0 9).relay.worker = ownWid t) ∧
  (let s := { managing [] 0 with mgr := { (managing [] 0).mgr with commits := [(9, 5)] } }
   SMap.wf MapEnt.empty s.mgr.map = true ∧ positionOf s 9 = some 2 ∧ (mapEnt s 2).st = .active 9 ∧ takingOver s 9 = false ∧
   (∃ x ∈ relays s, x.worker = 9) ∧ buddyWorker s 9 2 = some 10 ∧ partOf s 9 = some (part0 9) ∧ (positionOf s 10).isSome = true ∧ takingOver s 10 = false ∧
   (∀ x ∈ relays s, 9 ∈ x.workers → (commitOf s x).isSome = true) ∧
   ((relays s).find? fun x => x.workers.contains 9) = some (part0 9).relay ∧ commitOf s (part0 9).relay = some 5 ∧
   chooseSpare s (folioNeeds s 9).1 (folioNeeds s 9).2 (buddyPlace s 9 2) = none) := by decide +kernel

/-- That worker's folio asks for the stepping of the spare; copies under way; spares of the wing's shelf, the second of the grade. -/
theorem wit_SpareChosen : (let f : List (Nat × Nat × Nat) := [(0x4000, 0, 256)]
    let s := { managing [] 0 with
      gddr := [(0x4008, 2)],
      mgr := { (managing [] 0).mgr with commits := [(9, 5)], parts := [{ part0 9 with images := f }, part0 10] } }
    chooseSpare s (folioNeeds s 9).1 (folioNeeds s 9).2 (buddyPlace s 9 2) = some 3 ∧ commitOf s (part0 9).relay = some 5) ∧
  (let tk (cs : List Nat) : Takeover := { worker := 9, lost := 2, spare := some 3, copies := cs, waits := false, sec := 0, ns := 0 }
   let s (cs : List Nat) := { managing [] 0 with mgr := { (managing [] 0).mgr with takeovers := [tk cs] } }
   (∀ cs ∈ [[0, 1], [0]], (s cs).mgr.takeovers.find? (fun t => t.worker == 9 && t.copies.contains 0) = some (tk cs)) ∧
   (∃ d ∈ (tk [0, 1]).copies, d ≠ 0) ∧ (∀ d ∈ (tk [0]).copies, d = 0) ∧ (partOf (s [0]) 9).isSome = true) ∧
  (let s := { up with mgrRole := true, mgr := { Mgr.reset with map := [(64, { st := .spare, grade := 1, b0 := true }), (65, { st := .spare, grade := 0, b0 := true })] } }
   wingLead s = true ∧ (∀ i < 65, ¬ (64 ≤ i ∧ i < 68 ∧ eligible s 0 2 i = true)) ∧ eligible s 0 2 65 = true ∧
   (∀ i ∈ [64, 65, 66, 67], eligible s 2 2 i = false)) := by decide +kernel

/-- A buddy of worker 9 that holds two slots of 16 MiB: the last granule of the second slot, and one past it. -/
theorem wit_Checkpoints : (let s := { up with regs := [(rLNK_SHARD, 1), (rLNK_HELD, 8), (rLNK_BUDDY, BitVec.ofNat 32 (9 * 2 ^ 16 + 2 ^ 30))],
                                              regions := [(5, { base := 9, last := 9, kind := 3, secure := true })] }
    regFld s rLNK_BUDDY 30 1 = 1 ∧ regFld s rLNK_BUDDY 16 14 = 9 ∧ regFld s rLNK_SHARD 0 14 * 0x1000000 ≠ 0 ∧
    0x1FFFFE0 + 32 ≤ 2 * (regFld s rLNK_SHARD 0 14 * 0x1000000) ∧ ¬ 0x1FFFFE0 + 64 ≤ 2 * (regFld s rLNK_SHARD 0 14 * 0x1000000) ∧
    tierOpen s 0x8000000 32 = true ∧ tierOpen { s with regs := s.regs ++ [(rCPW_DSTATE, 0)] } 0x8000000 32 = false ∧
    regFld s rLNK_HELD 0 17 * 0x1000000 = 0x8000000 ∧ regionAt s 0x8000000 = none ∧
    regionAt s 0x9FFFFE0 = some (5, { base := 9, last := 9, kind := 3, secure := true }) ∧
    crossWorld s false true 5 { base := 9, last := 9, kind := 3, secure := true } = true) := by decide +kernel

/-- Worker 9 seals epoch 5, which 10 has sealed with 4 and 5, and which it has not; a census entry of a worker of the bay. -/
theorem wit_SealsAndCensus : (let s (l : List Nat) := { managing [] 0 with mgr := { (managing [] 0).mgr with seals := [(10, l)], commits := [(9, 4)] } }
    (s []).inReset = false ∧ (s []).mgrRole = true ∧ 9 ∉ (s []).mgr.failed ∧ partOf (s []) 9 = some (part0 9) ∧ (part0 9).relay.workers ≠ [] ∧
    commonSeal (noteSealed (s [4, 5]) 9 5) [9, 10] = some 5 ∧ commitOf (s [4, 5]) (part0 9).relay = some 4 ∧
    commonSeal (noteSealed (s []) 9 5) [9, 10] = none) ∧
  (let s := { managing [] 0 with mgr := { (managing [] 0).mgr with leads := [(20, [1])] } }
   partOf s 20 = none ∧ 20 ∉ s.mgr.failed ∧ SMap.get [] s.mgr.leads 20 = [1]) ∧
  (let s := { managing [] 0 with regs := [(rCEN_TABLE, 0x00100000)] }
   regFld s rCEN_TABLE 20 4 ≠ 0 ∧ s.dev ≠ .boot ∧ s.mgrRole = true ∧ (positionOf s 9).isSome = true) ∧ up.ckpt.heldUnits = [] := by decide +kernel

/-- A worker, with and without a request on its way, and a manager that is LOCKED with 0 and with 2 edges ignored: an edge at the second, and
one half a second off, LOCKED and not. -/
theorem wit_Chronicle : (let m (k : Nat) (l : Word) (ns : Nat) : State :=
      { up with mgrRole := true, regs := [(rTIM_STAT, l)], chron := { State.reset.chron with ignored := k, ns := ns } }
    up.inReset = false ∧ up.mgrRole = false ∧ timeFree up = false ∧ ({ up.chron with asked := some 7 } : Chron).asked = some 7 ∧
    (m 0 2 0).mgrRole = true ∧ timeFree (m 0 2 0) = false ∧ ppsFar (toTime (m 0 2 0) 0) 1000000000 = false ∧
    (∀ k ∈ [0, 2], ppsFar (toTime (m k 2 500000000) 0) 1000000000 = true ∧ regFld (m k 2 500000000) rTIM_STAT 1 1 = 1 ∧
      (m k 2 500000000).chron.ignored = k) ∧ regFld (m 0 0 500000000) rTIM_STAT 1 1 = 0) := by decide +kernel

/-! ### The queue and the invariants -/

theorem wit_QueueSteps : (let s : State := { up with pending := [.functionReady, .release 0] }
    s.pending = .functionReady :: [.release 0] ∧ up.pending = []) := by decide

/-- A state with two region entries and a tile with memory: the invariants hold of it as they do of reset. -/
theorem wit_MemoriesCanonical : MemoriesCanonical (run { tile0 with mem := [(0x200, 1), (0x205, 0x10)] }) := by
  unfold MemoriesCanonical; decide

theorem wit_RegionsApart : RegionsApart (lending [] []) := ⟨by decide, fun _ h => nomatch h⟩

/-- A step that runs, for the statements about every step: FUNCTION_READY at reset. -/
theorem wit_step : ∃ t, step { State.reset with pending := [.functionReady] } = .next t := ⟨_, rfl⟩

/-! ### Worked examples of the spec -/

/-- "The Tile": an NVH-1984 with W-9 and E-22 unusable, W-19 with COL_SKIP 32, E-0 with COL_SKIP 5. -/
def part1984 : Fuse := { Fuse.part with grade := 1, colSkip := [(9, 33), (19, 32), (32, 5), (54, 33)] }

theorem test_sites_1984 : gradeN 1 = 31 ∧ siteOf part1984 600 = 0x28B ∧ siteOf part1984 1000 = 0x429 ∧
    logicalAt part1984 0x429 = some 1000 ∧ groupOf 1000 = 15 ∧ isSeamGroup part1984 15 = true := by decide +kernel

/-- "Register Map": the TIL page of E-0-9 after an issue fault with code 0x08 at 0x1_0230. -/
theorem test_til_page : (let s : State := { run Tile.off with fuse := part1984, tiles := [(1065, { Tile.off with ifault := 0x80102308 })] }
    regRead s 0x529000 = 0x54042902 ∧ regRead s 0x529004 = 0x00002101 ∧ regRead s 0x529044 = 0x0004F3E8 ∧
    regRead s 0x52904C = 0x80102308 ∧ regRead s 0x000004 = 0x00012101) := by decide +kernel

/-- "Instruction Reference": the MMA of T 0, FA = FB = 0x2, AA 4, AB 5, slot value 0x0844_8A00_0000, in cycle 50: t0 = 57. -/
theorem test_mma_example : (let w : BitVec 43 := BitVec.ofNat 43 0x08448A000000
    let s := run { tile0 with now := 50, aregs := [(4, 0x1000), (5, 0x1080)] }
    let t := after (execMma 0 w { s with cycle := 50, time := 5250 })
    (0x08448A000000 : Nat) / 2 ^ 43 = 0x01 ∧
    (t.tile 0).feeds.map (fun f => (f.fa, f.fb, f.da, f.db, f.t0)) = [(2, 2, 0x1000, 0x1080, 57)]) := by decide +kernel

/-- The Matrix Array: a feed into acc0 issued in cycle 148 after a drain of it issued in 145 has t0 = 168. -/
theorem test_frozen_feed : (mkFeed .mma { tile0 with now := 148, drain0At := some 145 } 0 (BitVec.ofNat 43 (2 * 2 ^ 37 + 2 * 2 ^ 33))).t0 = 168 := by
  decide +kernel

/-- The Matrix Array: the padded lane word. Lane 0 in slice 5 is zero padding; lane 31 in slice 261 reads 0x5A14. -/
theorem test_padded_lane : (let d : Desc :=
      { base := 0x4000, scaleBase := 0, scaleStride := 0, padConst := 0, bad := false,
        dims := [{ count := 32, lane := false, axis := 0, coef := 0, stride := 4 }, { count := 3, lane := false, axis := 2, coef := 1, stride := 0 },
                 { count := 3, lane := false, axis := 1, coef := 1, stride := 0 }, { count := 16, lane := true, axis := 2, coef := 1, stride := 0 },
                 { count := 2, lane := true, axis := 1, coef := 1, stride := 0 }],
        axes := [{ extent := 16, origin := -1, astride := 2304, lo := 1, hi := 1, mode := 0 },
                 { extent := 16, origin := -1, astride := 128, lo := 0, hi := 1, mode := 0 }] }
    laneSrc 2 d 0 0 5 = .zero ∧ laneSrc 2 d 0 31 261 = .mem 0x5A14) := by decide +kernel

/-- The Matrix Array: MINPLUS in BF16. Slice 0 leaves 1.75, slice 1 leaves 1.5; a NaN operand leaves NaN. -/
theorem test_minplus : (let n (x : Nat) : Machine.Num := decodeNum fBF16 x
    let e0 := (startElem .extremumF 3).extremumF false [term 3 (n 0x4000) (n 0x7F80), term 3 (n 0x3FC0) (n 0x3E80)]
    e0.x = 0x3FE00000 ∧ (e0.extremumF false [term 3 (n 0x3F00) (n 0x3F80), term 3 (n 0x4040) (n 0xBF00)]).x = 0x3FC00000 ∧
    (e0.extremumF false [term 3 (n 0x7FC0) (n 0x3F80), term 3 (n 0x4040) (n 0xBF00)]).x = 0x7FC00000) := by decide +kernel

/-- Number Formats: 0x4049_0FDB to BF16, E4M3 and E5M2 with RNE. -/
theorem test_one_value : (let x := decodeNum fFP32 0x40490FDB
    (rne fBF16 x).1 = 0x4049 ∧ (rne fE4M3 x).1 = 0x45 ∧ (rne fE5M2 x).1 = 0x42) := by decide +kernel

/-- Number Formats: the slice group 5.0, −1.25, 25 × 2⁻⁴⁸, whose exponent is 4: its planes in both formats, and its record. -/
theorem test_slice_group : (let xs : List Machine.Num := [.fin false 5 0 false, .fin true 5 (-2) false, .fin false 25 (-48) false]
    sliceExp xs = 4 ∧ xs.map (fun x => (sliceElem 7 4 x).1) =
      [[0x28, 0, 0, 0, 0, 0, 0], [0xF6, 0, 0, 0, 0, 0, 0], [0, 0, 0, 0, 0, 1, 0xC8]] ∧
    (sliceElem 6 4 (.fin false 25 (-48) false)).1 = [0, 0, 0, 0, 0, 1] ∧ sliceRecord 4 xs = 0x0004) := by decide +kernel

/-- Accumulation: the slice-mode product 5.0 × 3.0: V = 0x0780_0000_0000_0000, LO = 2⁵⁵, HI = 7. -/
theorem test_slice_product : (let e := Elem.zero.slice 6 0 0 [40 * 48]
    e.v = 0x0780000000000000 ∧ e.drainValue .slice 0 false = Machine.Num.ofInt (2 ^ 55) ∧ e.drainValue .slice 0 true = Machine.Num.ofInt 7) := by
  decide +kernel

/-- The Vector Engine: the SGD update of 0x3F80_1234 with lr 2⁻¹⁰, wd 2⁻⁴, gs 1.0 and G 0.5 is 0x3F80_0034, with no class. -/
theorem test_sgd_step : (let f (x : Nat) : Machine.Num := decodeNum fFP32 x
    (updStep 0 [f 0x3A800000, f 0x3D800000, f 0x3F800000] (f 0x3F801234) (f 0x3F000000) Machine.Num.zero Machine.Num.zero).1 = (0x3F800034, 0)) := by
  decide +kernel

/-- Instruction Reference: the VFMA's slot value 0x2007_FB00_0040 and VEXT 0xFD00_0000; 1.0 × 2.0 + 0.5 = 2.5, and 64 × 2.5 = 160.0. -/
theorem test_fma_example : (let w : BitVec 43 := BitVec.ofNat 43 0x2007FB000040
    let e : BitVec 26 := BitVec.ofNat 26 0xFD000000
    vF w = 0 ∧ vN w = 256 ∧ vVD w = 3 ∧ vVA w = 0 ∧ vVB w = 1 ∧ xVC e = 2 ∧ vBeats .fma w e = 4 ∧
    (elemResult .fma 0 0 0x3F800000 0x40000000 0x3F000000).1 = 0x40200000 ∧
    (redSegment 0 0 64 (List.replicate 64 0x40200000)).1 = 0x43200000) := by decide +kernel

/-- Instruction Reference: those slot values in bundles: the MMA beside the VFMA and its VEXT; an all-zero bundle is three no-operations. -/
theorem test_bundles : (let w : BitVec 128 := BitVec.ofNat 128 (0xFD000000 + 0x08448A000000 * 2 ^ 32 + 0x2007FB000040 * 2 ^ 80)
    decodeBundle 0 w = [.mma 0 (BitVec.ofNat 43 0x08448A000000), .vfma 0 (BitVec.ofNat 43 0x2007FB000040) (some (BitVec.ofNat 26 0xFD000000))] ∧
    decodeBundle 0 0 = [.nop 0 .matrix 0, .nop 0 .vector 0, .nop 0 .control 0]) := by decide +kernel

/-- Exchange Network: the destination word 0x0004_1025 names folio tile 37, window 2, offset 16; W-30-5 to E-1-7 leaves the source
eastwards and turns south at E-1-5. -/
theorem test_seam_flit : (let w305 := siteIndex 0 30 5
    let e15 := siteIndex 1 1 5
    let e17 := siteIndex 1 1 7
    xsendDest 0x00041025 = (37, 2, 16, 0) ∧ routeSide w305 e17 = .east ∧ routeSide e15 e17 = .south ∧ routeSide e17 e17 = .loc ∧
    neighbour (siteIndex 0 31 5) .east = (siteIndex 1 0 5, .west, true)) := by decide +kernel

/-- Reduction: one rescale of an E4M3 block. -/
theorem test_rescale : (let r := addBlock 6 0x7F [0x7A, 0x03, 0x3B] 0x7F [0x74, 0, 0]
    r.1 = 0x80 ∧ r.2.1.map (·.1) = [0x78, 0x02, 0x33] ∧ r.2.2 = 1) := by decide +kernel

/-- Security: the log entry of a BAR2 write to 0x10_0000_4000 in entry 12 while it is adopted. -/
theorem test_xlog_entry : (let e : XEnt := { source := 1, write := true, adopt := true, entry := 12, lost := 0, addr := 0x1000004000, sec := 0, ns := 0, key := 0, time := 0 }
    e.word 0 = 0x00000C33 ∧ e.word 1 = 0x00004000 ∧ e.word 2 = 0x00000010) := by decide +kernel

/-- Security: that write itself is discarded and logged so. -/
theorem test_bar2_during_adopt :
    (let k := { Keeper.reset with adopting := some 12 }
     let s : State := { up with regions := [(12, { base := 0x1000, last := 0x1003, kind := 4, secure := false })], keeper := k }
     let t := after (execBar2Access (.write 0x1000004000 [1, 2, 3, 4]) s)
     t.gddr = [] ∧ t.keeper.xlog.map (fun e => (e.word 0, e.word 1, e.word 2)) = [(0x00000C33, 0x00004000, 0x00000010)]) := by
  decide +kernel

/-- Memory tiers: address 0x1_0000 is unit 256, on channel 16, which is one of MC6's. -/
theorem test_unit_256 : 0x10000 / 256 = 256 ∧ 256 % 80 = 16 ∧ mcOf 256 = 6 := by decide

end Sys2Proof.Tests
end

section
/-! PROOFS. Carrying the clock forward changes nothing else, and where it comes to (log entries 2 and 34). -/

namespace Sys2Proof.Machine

/-- Only the clock moves. -/
theorem toEdge_frame (s : State) (t : Nat) : toEdge s t =
    { s with cycle := (toEdge s t).cycle, time := (toEdge s t).time, phase := (toEdge s t).phase, chron := (toEdge s t).chron } := by
  unfold toEdge
  split <;> rfl

theorem toCycle_frame (s : State) (c : Nat) : toCycle s c =
    { s with cycle := (toCycle s c).cycle, time := (toCycle s c).time, phase := (toCycle s c).phase, chron := (toCycle s c).chron } := by
  unfold toCycle
  split
  · rfl
  · dsimp only
    rw [toEdge_frame]

theorem toTime_frame (s : State) (t : Nat) : toTime s t =
    { s with cycle := (toTime s t).cycle, time := (toTime s t).time, phase := (toTime s t).phase, chron := (toTime s t).chron } := by
  unfold toTime
  split
  · rfl
  · dsimp only [span]
    rw [toEdge_frame]

@[simp] theorem toCycle_tile (s : State) (c : Nat) (x : Site) : (toCycle s c).tile x = s.tile x := by simp [State.tile]

/-- The edge at which the ceilings take effect is passed only on the way to a later time. -/
theorem toEdge_time_le {s : State} {t : Nat} (h : s.time ≤ t) : (toEdge s t).time ≤ t := by
  unfold toEdge
  split
  · simp only [span]; omega
  · exact h

/-- The clock never goes back, and reaches the time asked for. -/
theorem toTime_time (s : State) (t : Nat) : (toTime s t).time = max s.time t := by
  unfold toTime
  split
  · omega
  · have := toEdge_time_le (s := s) (t := t) (by omega)
    simp only [span]
    omega

/-- The cycle in progress began as long ago as its phase says (R443). -/
theorem cycleTime_self (s : State) : cycleTime s s.cycle = s.time - s.phase := by simp [cycleTime]

theorem OnlyTile.toCycle (x : Site) (s : State) (c : Nat) : OnlyTile x s (toCycle s c) :=
  ⟨(toCycle_frame s c).trans (by simp), fun y _ => by simp⟩

end Sys2Proof.Machine
end

section
/-! PROOFS. Arrival at the bell, on a device and at the root (R20, R354), and the end of an exchange phase (R22). -/

namespace Sys2Proof.Machine

/-! ### What an arrival may change -/

theorem jobSites_congr {s t : State} (hj : t.rgs.job = s.rgs.job) (hf : t.fuse = s.fuse) : jobSites t = jobSites s := by
  simp only [jobSites, hj, hf]

/-- The worker ID stands in a register, and its bell root follows from it (R354, R370). -/
theorem ownWid_congr {s t : State} (h : t.regs = s.regs) : ownWid t = ownWid s := by
  unfold ownWid regFld regRaw
  rw [h]

theorem bellRoot_congr {s t : State} (h : t.regs = s.regs) (hw : t.rgs.workers = s.rgs.workers) : bellRoot t = bellRoot s := by
  unfold bellRoot
  rw [ownWid_congr h, hw]

theorem jobSpans_congr {s t : State} (hw : t.rgs.workers = s.rgs.workers) : jobSpans t = jobSpans s := by
  unfold jobSpans
  rw [hw]

/-- Whether all have arrived depends on the job, its sites and their tiles alone. -/
theorem allArrived_congr {s t : State} (hj : t.rgs.job = s.rgs.job) (hf : t.fuse = s.fuse) (ht : t.tiles = s.tiles) :
    allArrived t = allArrived s := by
  simp only [allArrived, jobSites_congr hj hf, State.tile, ht]

/-- Messages that go out one after another stand in the order in which they were sent; sending changes no worker ID. -/
theorem foldl_linkSend (what : String) (words : List Nat) (ws : List Nat) (s : State) :
    ws.foldl (fun s w => linkSend s { dest := w, src := ownWid s, vc := 10, what := what, words := words }) s =
      { s with linkOut := s.linkOut ++ ws.map fun v => { dest := v, src := ownWid s, vc := 10, what := what, words := words } } := by
  induction ws generalizing s with
  | nil => simp
  | cons w ws ih =>
    rw [List.foldl_cons, ih, List.map_cons, List.append_cons]
    rfl

theorem toOthers_eq (s : State) (what : String) (words : List Nat) : toOthers s what words =
    { s with linkOut := s.linkOut ++ (s.rgs.workers.filter (· != ownWid s)).map fun v =>
        { dest := v, src := ownWid s, vc := 10, what := what, words := words } } :=
  foldl_linkSend _ _ _ _

/-- The devices that have arrived at the root, with one more, each once (R354). -/
def arrivedWith (s : State) (w : Nat) : List Nat := if w ∈ s.rgs.arrivedFrom then s.rgs.arrivedFrom else s.rgs.arrivedFrom ++ [w]

/-- The root once it has noted an arrival, with the longest exchange phase so far (R354; log entry 110). -/
def rootNoted (s : State) (w len : Nat) : State :=
  { s with rgs := { s.rgs with arrivedFrom := arrivedWith s w, lmax := max s.rgs.lmax len } }

/-- The last device's arrival is the one at which all workers are there and before which one was not. -/
theorem rootArrival_eq (s : State) (w len : Nat) : rootArrival s w len =
    if (∀ v ∈ s.rgs.workers, v ∈ arrivedWith s w) ∧ (∃ v ∈ s.rgs.workers, v ∉ s.rgs.arrivedFrom) then
      toOthers (rootNoted s w len) "release" [max s.rgs.lmax len]
    else rootNoted s w len := by
  have hg : (if s.rgs.arrivedFrom.contains w then s.rgs.arrivedFrom else s.rgs.arrivedFrom ++ [w]) = arrivedWith s w := by
    simp [arrivedWith]
  unfold rootArrival
  dsimp only
  rw [hg]
  exact if_congr (by simp) rfl rfl

theorem rootArrival_frame (s : State) (w len : Nat) : rootArrival s w len =
    { rootNoted s w len with linkOut := (rootArrival s w len).linkOut } := by
  rw [rootArrival_eq]
  split
  · rw [toOthers_eq]
  · rfl

/-- The device's arrival is noted in the Registrar, and sends nothing but link messages. -/
theorem deviceArrival_frame (s : State) : deviceArrival s =
    { s with rgs := (deviceArrival s).rgs, linkOut := (deviceArrival s).linkOut } := by
  unfold deviceArrival
  dsimp only
  split
  · rfl
  · split
    · rw [rootArrival_frame]; rfl
    · rfl

@[simp] theorem deviceArrival_job (s : State) : (deviceArrival s).rgs.job = s.rgs.job := by
  unfold deviceArrival
  dsimp only
  split
  · rfl
  · split
    · rw [rootArrival_frame]; rfl
    · rfl

theorem allArrived_deviceArrival (s : State) : allArrived (deviceArrival s) = allArrived s := by
  refine allArrived_congr (by simp) ?_ ?_
  · rw [deviceArrival_frame]
  · rw [deviceArrival_frame]

/-- A job of one device, or a device with a tile still on its way, sends nothing (R354). -/
theorem deviceArrival_quiet {s : State} (h : jobSpans s = false ∨ allArrived s = false) : deviceArrival s = s := by
  unfold deviceArrival
  rw [if_pos]
  rcases h with h | h <;> simp [h]

/-- A device that is not the root sends ARRIVE with its last tile, once (R354; log entry 110). -/
theorem deviceArrival_sends {s : State} (hj : jobSpans s = true) (hs : s.rgs.arriveSent = false) (ha : allArrived s = true)
    (hr : bellRoot s ≠ ownWid s) :
    deviceArrival s = linkSend { s with rgs := { s.rgs with arriveSent := true } }
      { dest := bellRoot s, src := ownWid s, vc := 10, what := "arrive", words := [longestL s] } := by
  simp [deviceArrival, hj, hs, ha, hr]

/-! ### The tile's arrival -/

/-- The cycle in which a tile that waits arrives: that of its BELL, or of its last acknowledgement (R20). -/
def Tile.arrivesAt (t : Tile) : Nat := max t.bellAt t.ackAt

/-- The state once tile `x` stands at the bell, before its device takes note. -/
def tileArrived (s : State) (x : Site) : State :=
  (toCycle s (s.tile x).arrivesAt).setTile x
    { s.tile x with arrived := some (s.tile x).arrivesAt,
                    arrTime := cycleTime (toCycle s (s.tile x).arrivesAt) (s.tile x).arrivesAt }

theorem exec_bellArrive {s : State} {x : Site} (hr : s.dev = .run) (hj : inJob s x = true) (hp : (s.tile x).phase = .waiting)
    (ha : (s.tile x).arrived = none) (hk : (s.tile x).accumsAcked = true) :
    exec (.bellArrive x) s = .next (deviceArrival (tileArrived s x)) := by
  change execBellArrive x s = _
  simp [execBellArrive, hr, hj, hp, ha, hk, tileArrived, Tile.arrivesAt]

theorem tileArrived_onlyTile (s : State) (x : Site) : OnlyTile x s (tileArrived s x) := (OnlyTile.toCycle x s _).setTile _

theorem tileArrived_cycle (s : State) (x : Site) : (tileArrived s x).cycle = max s.cycle (s.tile x).arrivesAt := toCycle_cycle s _

/-- A tile that arrives in the cycle the clock comes to arrives as that cycle begins. -/
theorem tileArrived_arrTime {s : State} {x : Site} (h : s.cycle ≤ (s.tile x).arrivesAt) :
    ((tileArrived s x).tile x).arrTime = (tileArrived s x).time - (tileArrived s x).phase := by
  have hc : (toCycle s (s.tile x).arrivesAt).cycle = (s.tile x).arrivesAt := by rw [toCycle_cycle]; exact max_eq_right h
  have := cycleTime_self (toCycle s (s.tile x).arrivesAt)
  rw [hc] at this
  simpa [tileArrived] using this

/-- An arrival leaves the lengths that the tiles ask for (R37). -/
theorem longestL_tileArrived (s : State) (x : Site) : longestL (tileArrived s x) = longestL s := by
  have hL (y : Site) : ((tileArrived s x).tile y).bellL = (s.tile y).bellL := by
    by_cases h : y = x
    · subst h; simp [tileArrived]
    · rw [(tileArrived_onlyTile s x).2 y h]
  simp only [longestL, hL, jobSites_congr (s := s) (t := tileArrived s x) (by simp [tileArrived]) (by simp [tileArrived])]

/-! ### The end of an exchange phase -/

theorem exec_exchangePhaseEnd {s : State} {x : Site} (hr : s.dev = .run) (hp : (s.tile x).phase = .exchange) :
    exec (.exchangePhaseEnd x) s = .next ((toCycle s (s.tile x).exEnd).setTile x { s.tile x with phase := .compute }) := by
  change execExchangePhaseEnd x s = _
  simp [execExchangePhaseEnd, hr, hp]

/-- Settles O17: the arrival is `tileArrived` followed by the device's own, `deviceArrival`, which changes the Registrar and the links
alone. -/
theorem bellArrivesAndPhaseEnds : Obligations.BellArrivesAndPhaseEnds := by
  unfold Obligations.BellArrivesAndPhaseEnds
  intro s x hr
  refine ⟨fun hj hp ha hk => ?_, fun hp => ?_⟩
  · have hf := deviceArrival_frame (tileArrived s x)
    obtain ⟨hs, hy⟩ := tileArrived_onlyTile s x
    have hrgs : (tileArrived s x).rgs = s.rgs := by rw [hs]
    have hregs : (tileArrived s x).regs = s.regs := by rw [hs]
    have htiles : (deviceArrival (tileArrived s x)).tiles = (tileArrived s x).tiles := by rw [hf]
    have htile (y : Site) : (deviceArrival (tileArrived s x)).tile y = (tileArrived s x).tile y := by simp only [State.tile, htiles]
    have hx : (tileArrived s x).tile x = 
        { s.tile x with arrived := some (s.tile x).arrivesAt, arrTime := ((tileArrived s x).tile x).arrTime } := by
      rw [tileArrived, setTile_tile]
    refine ⟨_, exec_bellArrive hr hj hp ha hk, ?_, ?_, fun hc => ?_, ?_, fun y h => ?_, fun h => ?_, fun h1 h2 h3 h4 => ?_⟩
    · rw [hf]; exact tileArrived_cycle s x
    · rw [htile]; exact hx
    · rw [htile, tileArrived_arrTime hc, hf]
    · rw [hf, hs]
    · rw [htile, hy y h]
    · rw [allArrived_deviceArrival, ← jobSpans_congr (congrArg _ hrgs)] at h
      rw [deviceArrival_quiet h]
      exact ⟨hs, hy⟩
    · rw [allArrived_deviceArrival] at h3
      rw [← jobSpans_congr (congrArg _ hrgs)] at h1
      rw [← bellRoot_congr hregs (congrArg _ hrgs), ← ownWid_congr hregs] at h4 ⊢
      rw [deviceArrival_sends h1 (by rwa [hrgs]) h3 h4, longestL_tileArrived, linkSend, hrgs, hs]
      exact ⟨rfl, rfl⟩
  · exact ⟨_, exec_exchangePhaseEnd hr hp, setTile_tile _ _ _, (OnlyTile.toCycle x s _).setTile _, toCycle_cycle s _⟩

end Sys2Proof.Machine
end

section
/-! PROOFS. Fields of register words (R459, R460), and what an event that sets an ISTAT bit gives: the bit, the frame, and the message
where the vector's condition was false (R412, R413). -/

namespace Sys2Proof.Machine

/-! ### Fields of a word -/

/-- A word with a field replaced: what lies below it, the new value, what lies above it. -/
theorem putFld_toNat (w : Word) {lo len : Nat} (v : Nat) (h : lo + len ≤ 32) : (putFld w lo len v).toNat =
    w.toNat % 2 ^ lo + 2 ^ lo * (v % 2 ^ len + 2 ^ len * (w.toNat / 2 ^ lo / 2 ^ len)) := by
  have hx := Nat.mod_add_div w.toNat (2 ^ lo)
  have hf := Nat.mod_add_div (w.toNat / 2 ^ lo) (2 ^ len)
  have hv : v % 2 ^ len < 2 ^ len := Nat.mod_lt _ (by positivity)
  have ha : w.toNat % 2 ^ lo < 2 ^ lo := Nat.mod_lt _ (by positivity)
  have hb : w.toNat / 2 ^ lo / 2 ^ len < 2 ^ (32 - (lo + len)) := by
    rw [Nat.div_div_eq_div_mul, ← pow_add, Nat.div_lt_iff_lt_mul (by positivity), ← pow_add]
    simpa [Nat.sub_add_cancel h] using w.isLt
  have h32 : 2 ^ lo * (2 ^ len * 2 ^ (32 - (lo + len))) = 2 ^ 32 := by
    rw [← pow_add, ← pow_add]
    congr 1
    omega
  have hlt : w.toNat % 2 ^ lo + 2 ^ lo * (v % 2 ^ len + 2 ^ len * (w.toNat / 2 ^ lo / 2 ^ len)) < 2 ^ 32 := by
    have h1 : v % 2 ^ len + 2 ^ len * (w.toNat / 2 ^ lo / 2 ^ len) + 1 ≤ 2 ^ len * 2 ^ (32 - (lo + len)) := by
      calc _ ≤ 2 ^ len * (w.toNat / 2 ^ lo / 2 ^ len + 1) := by rw [Nat.mul_add]; omega
        _ ≤ _ := Nat.mul_le_mul_left _ hb
    have h2 := Nat.mul_le_mul_left (2 ^ lo) h1
    rw [h32, Nat.mul_add] at h2
    omega
  have hsplit : w.toNat - fld w lo len * 2 ^ lo + v % 2 ^ len * 2 ^ lo =
      w.toNat % 2 ^ lo + 2 ^ lo * (v % 2 ^ len + 2 ^ len * (w.toNat / 2 ^ lo / 2 ^ len)) := by
    rw [← hf, Nat.mul_add] at hx
    rw [fld, Nat.mul_add, Nat.mul_comm _ (2 ^ lo), Nat.mul_comm _ (2 ^ lo)]
    omega
  rw [putFld, BitVec.toNat_ofNat, hsplit, Nat.mod_eq_of_lt hlt]

/-- The field written reads as the value, reduced to its width. -/
theorem fld_putFld_self (w : Word) {lo len : Nat} (v : Nat) (h : lo + len ≤ 32) : fld (putFld w lo len v) lo len = v % 2 ^ len := by
  rw [fld, putFld_toNat w v h, Nat.add_mul_div_left _ _ (by positivity), Nat.div_eq_of_lt (Nat.mod_lt _ (by positivity))]
  simp

/-- A field below the one written keeps its value. -/
theorem fld_putFld_below (w : Word) {lo len l n : Nat} (v : Nat) (h : lo + len ≤ 32) (hl : l + n ≤ lo) :
    fld (putFld w lo len v) l n = fld w l n := by
  have hmod : (putFld w lo len v).toNat % 2 ^ lo = w.toNat % 2 ^ lo := by
    rw [putFld_toNat w v h, Nat.add_mul_mod_self_left, Nat.mod_mod]
  have hcut (x : Nat) : x / 2 ^ l % 2 ^ n = x % 2 ^ lo / 2 ^ l % 2 ^ n := by
    rw [← Nat.mod_mul_right_div_self, ← Nat.mod_mul_right_div_self, ← pow_add, Nat.mod_mod_of_dvd _ (pow_dvd_pow 2 hl)]
  rw [fld, fld, hcut, hmod, ← hcut]

/-- A field above the one written keeps its value. -/
theorem fld_putFld_above (w : Word) {lo len l n : Nat} (v : Nat) (h : lo + len ≤ 32) (hl : lo + len ≤ l) :
    fld (putFld w lo len v) l n = fld w l n := by
  have hdiv : (putFld w lo len v).toNat / 2 ^ lo / 2 ^ len = w.toNat / 2 ^ lo / 2 ^ len := by
    rw [putFld_toNat w v h, Nat.add_mul_div_left _ _ (by positivity), Nat.div_eq_of_lt (Nat.mod_lt _ (by positivity)), Nat.zero_add,
      Nat.add_mul_div_left _ _ (by positivity), Nat.div_eq_of_lt (Nat.mod_lt _ (by positivity)), Nat.zero_add]
  obtain ⟨k, rfl⟩ := Nat.exists_eq_add_of_le hl
  rw [fld, fld, pow_add, pow_add, ← Nat.div_div_eq_div_mul, ← Nat.div_div_eq_div_mul, hdiv, Nat.div_div_eq_div_mul,
    Nat.div_div_eq_div_mul, Nat.mul_assoc]

/-- A field of one bit is that bit. -/
theorem fld_one {n : Nat} (w : BitVec n) (i : Nat) : fld w i 1 = 1 ↔ w.getLsbD i = true := by
  rw [fld, BitVec.getLsbD, Nat.testBit_eq_decide_div_mod_eq]
  simp

/-! ### Fields of a register -/

theorem regFld_setReg_ne (s : State) {off o : Nat} (w : Word) (lo len : Nat) (h : o ≠ off) :
    regFld (setReg s off w) o lo len = regFld s o lo len := by rw [regFld, setReg_regRaw_ne s w h, regFld]

theorem regRaw_setFld_ne (s : State) {off o : Nat} (lo len v : Nat) (h : o ≠ off) : regRaw (setFld s off lo len v) o = regRaw s o :=
  setReg_regRaw_ne s _ h

theorem regRaw_satAdd_ne (s : State) {off o : Nat} (lo len n : Nat) (h : o ≠ off) : regRaw (satAdd s off lo len n) o = regRaw s o :=
  setReg_regRaw_ne s _ h

theorem regFld_setFld_self (s : State) (off : Nat) {lo len : Nat} (v : Nat) (h : lo + len ≤ 32) :
    regFld (setFld s off lo len v) off lo len = v % 2 ^ len := by
  rw [regFld, setFld, setReg_regRaw, fld_putFld_self _ _ h]

theorem regFld_setFld_below (s : State) (off : Nat) {lo len l n : Nat} (v : Nat) (h : lo + len ≤ 32) (hl : l + n ≤ lo) :
    regFld (setFld s off lo len v) off l n = regFld s off l n := by
  rw [regFld, setFld, setReg_regRaw, fld_putFld_below _ _ h hl, regFld]

theorem regFld_setFld_above (s : State) (off : Nat) {lo len l n : Nat} (v : Nat) (h : lo + len ≤ 32) (hl : lo + len ≤ l) :
    regFld (setFld s off lo len v) off l n = regFld s off l n := by
  rw [regFld, setFld, setReg_regRaw, fld_putFld_above _ _ h hl, regFld]

/-- A counter field counts, and stays at its largest value. -/
theorem regFld_satAdd (s : State) (off : Nat) {lo len : Nat} (n : Nat) (h : lo + len ≤ 32) :
    regFld (satAdd s off lo len n) off lo len = min (regFld s off lo len + n) (2 ^ len - 1) := by
  have hpos : 0 < 2 ^ len := by positivity
  exact (regFld_setFld_self _ _ _ h).trans (Nat.mod_eq_of_lt (Nat.lt_of_le_of_lt (Nat.min_le_right _ _) (by omega)))

/-! ### The vectors of a page -/

/-- A vector follows its condition: one step of `followVectors`. -/
def followVector (written : Bool) (s : State) (v : Nat) : State :=
  let c := vectorCond s v
  let s' := if !c then quietVector s v else if written || !SMap.get false s.host.cond v then sendVector s v else s
  { s' with host := { s'.host with cond := SMap.set false s'.host.cond v c } }

theorem followVectors_cons (b : Bool) (s : State) (v : Nat) (vs : List Nat) :
    followVectors b s (v :: vs) = followVectors b (followVector b s v) vs := rfl

theorem sendVector_frame (s : State) (v : Nat) : sendVector s v =
    { s with host := { s.host with pba := (sendVector s v).host.pba, sent := (sendVector s v).host.sent } } := by
  unfold sendVector
  split
  · rfl
  · split <;> rfl

/-- A vector's message, its pending bit and the condition last seen are all that following it changes. -/
theorem followVector_frame (b : Bool) (s : State) (v : Nat) : followVector b s v =
    { s with host := { s.host with pba := (followVector b s v).host.pba, sent := (followVector b s v).host.sent,
                                   cond := SMap.set false s.host.cond v (vectorCond s v) } } := by
  unfold followVector
  dsimp only
  split
  · rfl
  · split
    · rw [sendVector_frame]
    · rfl

/-- Following a vector takes no message back. -/
theorem followVector_sent_mono (b : Bool) (s : State) (v : Nat) {n : Nat} (h : n ∈ s.host.sent) :
    n ∈ (followVector b s v).host.sent := by
  unfold followVector sendVector quietVector
  dsimp only
  split
  · exact h
  · split
    · split
      · exact h
      · split
        · exact h
        · exact List.mem_append_left _ h
    · exact h

theorem followVectors_sent_mono (b : Bool) (vs : List Nat) {n : Nat} :
    ∀ s : State, n ∈ s.host.sent → n ∈ (followVectors b s vs).host.sent := by
  induction vs with
  | nil => exact fun _ h => h
  | cons v vs ih => exact fun s h => ih _ (followVector_sent_mono b s v h)

theorem followVectors_frame (b : Bool) (vs : List Nat) : ∀ s : State, followVectors b s vs =
    { s with host := (followVectors b s vs).host } := by
  induction vs with
  | nil => exact fun _ => rfl
  | cons v vs ih =>
    intro s
    rw [followVectors_cons, ih, followVector_frame]

/-- The condition of a vector stands in the registers (R412). -/
theorem vectorCond_congr {s t : State} (h : t.regs = s.regs) (v : Nat) : vectorCond t v = vectorCond s v := by
  unfold vectorCond regRaw
  rw [h]

/-- A vector whose condition becomes true sends its message, where it is unmasked and the host link is up (R413). -/
theorem followVector_sends {s : State} {v : Nat} (hc : vectorCond s v = true) (hw : SMap.get false s.host.cond v = false)
    (hm : SMap.get true s.host.mask v = false) (hl : s.host.mode ≠ 0) (b : Bool) : v ∈ (followVector b s v).host.sent := by
  simp [followVector, sendVector, hc, hw, hm, hl]

theorem followVectors_sends (b : Bool) (v : Nat) (vs : List Nat) : ∀ s : State, v ∈ vs → vectorCond s v = true →
    SMap.get false s.host.cond v = false → SMap.get true s.host.mask v = false → s.host.mode ≠ 0 →
    v ∈ (followVectors b s vs).host.sent := by
  induction vs with
  | nil => intro _ h; simp at h
  | cons u vs ih =>
    intro s hv hc hw hm hl
    rw [followVectors_cons]
    by_cases hu : v = u
    · subst hu
      exact followVectors_sent_mono b vs _ (followVector_sends hc hw hm hl b)
    · have hf := followVector_frame b s u
      have hregs : (followVector b s u).regs = s.regs := by rw [hf]
      refine ih _ ((List.mem_cons.mp hv).resolve_left hu) (by rwa [vectorCond_congr hregs]) ?_ (by rwa [hf]) (by rwa [hf])
      rw [hf]
      dsimp only
      rwa [SMap.get_set_ne _ _ _ hu]

/-! ### Setting ISTAT bits -/

theorem setIstat_frame (s : State) (page mask : Nat) : setIstat s page mask =
    { s with regs := (setIstat s page mask).regs, host := (setIstat s page mask).host } := by
  unfold setIstat
  dsimp only
  rw [followVectors_frame]
  rfl

theorem regRaw_setIstat_self (s : State) (page mask : Nat) : regRaw (setIstat s page mask) (page * 0x1000 + oISTAT) =
    regRaw s (page * 0x1000 + oISTAT) ||| BitVec.ofNat 32 mask := by
  rw [setIstat, regRaw, followVectors_regs]
  exact setReg_regRaw _ _ _

theorem regRaw_setIstat_ne (s : State) (page mask : Nat) {off : Nat} (h : off ≠ page * 0x1000 + oISTAT) :
    regRaw (setIstat s page mask) off = regRaw s off := by
  rw [setIstat, regRaw, followVectors_regs]
  exact setReg_regRaw_ne _ _ h

/-! ### What changes nothing but registers and the clock -/

theorem OnlyRegs.trans {s t u : State} (h : OnlyRegs s t) (g : OnlyRegs t u) : OnlyRegs s u := by
  unfold OnlyRegs at *
  rw [g, h]

theorem onlyRegs_toCycle (s : State) (c : Nat) : OnlyRegs s (toCycle s c) := (toCycle_frame s c).trans (by simp)
theorem onlyRegs_toTime (s : State) (t : Nat) : OnlyRegs s (toTime s t) := (toTime_frame s t).trans (by simp)
theorem onlyRegs_setReg (s : State) (off : Nat) (w : Word) : OnlyRegs s (setReg s off w) := rfl
theorem onlyRegs_setFld (s : State) (off lo len v : Nat) : OnlyRegs s (setFld s off lo len v) := rfl
theorem onlyRegs_satAdd (s : State) (off lo len n : Nat) : OnlyRegs s (satAdd s off lo len n) := rfl
theorem onlyRegs_setIstat (s : State) (page mask : Nat) : OnlyRegs s (setIstat s page mask) :=
  (setIstat_frame s page mask).trans (by simp)

/-- What the Registrar records beside the registers does not matter to the rest. -/
theorem OnlyRegs.withRgs {s t : State} (h : OnlyRegs s t) (r : Rgs) : OnlyRegs { s with rgs := r } { t with rgs := r } := by
  unfold OnlyRegs at *
  rw [h]

end Sys2Proof.Machine
end

section
/-! PROOFS. The time limits: the bell timeout (R24), overruns of supersteps and of evaluation segments (R37, R334), lateness (R390). -/

namespace Sys2Proof.Machine

/-! ### The overrun interrupt -/

/-- The address of RGS_ISTAT. -/
def rgsIstat : Nat := Block.rgs.page 0 * 0x1000 + oISTAT

/-- The address of RGS_IEN. -/
def rgsIen : Nat := Block.rgs.page 0 * 0x1000 + oIEN

/-- Setting bit 3 of a word leaves it set. -/
theorem fld_or_overrun (w : Word) : fld (w ||| BitVec.ofNat 32 8) 3 1 = 1 := by
  rw [fld_one, BitVec.getLsbD_or]
  simp

theorem regFld_raiseOverrun (u : State) : regFld (setIstat u (Block.rgs.page 0) 8) rgsIstat 3 1 = 1 := by
  have h : regRaw (setIstat u (Block.rgs.page 0) 8) rgsIstat = _ := regRaw_setIstat_self u (Block.rgs.page 0) 8
  rw [regFld, h]
  exact fld_or_overrun _

/-- Vector 3 reports bit 3 of RGS_ISTAT where its enable bit is set (R412). -/
theorem vectorCond_overrun {s : State} (h : regFld s rgsIstat 3 1 = 1) (he : regFld s rgsIen 3 1 = 1) : vectorCond s 3 = true := by
  have hi : (regRaw s rgsIstat).getLsbD 3 = true := (fld_one _ 3).mp h
  have hn : (regRaw s rgsIen).getLsbD 3 = true := (fld_one _ 3).mp he
  have h8 : regRaw s rgsIstat &&& regRaw s rgsIen &&& BitVec.ofNat 32 0x8 ≠ 0 := fun h0 => by
    have := congrArg (BitVec.getLsbD · 3) h0
    rw [BitVec.getLsbD_and, BitVec.getLsbD_and, hi, hn] at this
    exact absurd this (by decide)
  exact Bool.or_eq_true_iff.mpr (.inl (bne_iff_ne.mpr h8))

/-- The overrun interrupt sets its bit, and sends vector 3 where its condition was false before (R412, R413). -/
theorem raiseOverrun_raised {s u : State} (hh : u.host = s.host) (he : regFld u rgsIen 3 1 = regFld s rgsIen 3 1) :
    regFld (setIstat u (Block.rgs.page 0) 8) rgsIstat 3 1 = 1 ∧
      (regFld s rgsIen 3 1 = 1 → SMap.get true s.host.mask 3 = false → s.host.mode ≠ 0 → SMap.get false s.host.cond 3 = false →
        3 ∈ (setIstat u (Block.rgs.page 0) 8).host.sent) := by
  refine ⟨regFld_raiseOverrun u, fun hen hm hl hw => ?_⟩
  rw [← hh] at hm hl hw
  rw [← he] at hen
  have hv : 3 ∈ pageVectors (Block.rgs.page 0) := by decide
  refine followVectors_sends false 3 _ _ hv ?_ hw hm hl
  refine vectorCond_overrun ?_ ((regFld_setReg_ne u _ 3 1 (by decide)).trans hen)
  rw [regFld]
  exact (congrArg (fld · 3 1) (setReg_regRaw _ _ _)).trans (fld_or_overrun _)

/-! ### The bell timeout -/

/-- A job in RUN faults with the reason given (R391, R393). -/
theorem raiseFault_run {s : State} (h : s.dev = .run) (reason detail site : Nat) : (raiseFault s reason detail site).dev = .faulted ∧
    ∃ f, (raiseFault s reason detail site).rgs.fault = some f ∧ f.reason = reason ∧ f.detail = detail ∧ f.site = site := by
  simp [raiseFault, h]

theorem exec_bellTimeout {s : State} {j : Job} {a : Nat} (hr : s.dev = .run) (hj : s.rgs.job = some j) (ha : firstArrival s = some a)
    (hl : mayRelease s = false ∨ a + j.bellTo * 84000 < cycleTime s (lastArrival s + 120)) :
    exec .bellTimeout s = .next (raiseFault (toTime s (a + j.bellTo * 84000)) 2 0 noSite) := by
  have hn : (mayRelease s && decide (cycleTime s (lastArrival s + bellCycles) ≤ a + j.bellTo * usTicks)) = false := by
    rcases hl with h | h
    · rw [h, Bool.false_and]
    · rw [bellCycles, usTicks, decide_eq_false (Nat.not_le.mpr h), Bool.and_false]
  change execBellTimeout s = _
  simp only [execBellTimeout, hj, ha]
  exact congrArg _ (if_pos (by rw [hr, hn]; rfl))

theorem bellTimeout_faults {s : State} {j : Job} {a : Nat} (hr : s.dev = .run) (hj : s.rgs.job = some j) (ha : firstArrival s = some a)
    (hl : mayRelease s = false ∨ a + j.bellTo * 84000 < cycleTime s (lastArrival s + 120)) :
    ∃ t, exec .bellTimeout s = .next t ∧ t.dev = .faulted ∧ t.time = max s.time (a + j.bellTo * 84000) ∧
      (∃ f, t.rgs.fault = some f ∧ f.reason = 2) ∧ t.tiles = s.tiles ∧ t.gddr = s.gddr ∧ t.regs = s.regs := by
  obtain ⟨hdev, f, hf, hreason, -, -⟩ := raiseFault_run (s := toTime s (a + j.bellTo * 84000)) (by simpa using hr) 2 0 noSite
  exact ⟨_, exec_bellTimeout hr hj ha hl, hdev, (raiseFault_time _ _ _ _).trans (toTime_time s _), ⟨f, hf, hreason⟩, by simp⟩

/-! ### Overruns and lateness -/

/-- RGS_OVERRUN counts one more overrun, and RGS_OVK holds its superstep (R37). -/
def overrunCounted (s : State) (k last : Nat) : State :=
  setReg (satAdd (toCycle s (last + 1)) rRGS_OVERRUN 0 16 1) rRGS_OVK (BitVec.ofNat 32 k)

theorem exec_superstepOverrun {s : State} {k last : Nat} (hr : s.dev = .run) (hd : overrunDue s = some (k, last)) :
    exec .superstepOverrun s = .next (setIstat { overrunCounted s k last with rgs := { s.rgs with flagged := s.rgs.flagged ++ [k] } }
      (Block.rgs.page 0) 8) := by
  change execSuperstepOverrun s = _
  simp only [execSuperstepOverrun, hd, hr, overrunCounted, satAdd, setFld, setReg_rgs, toCycle_rgs]
  rfl

theorem overrunCounted_onlyRegs (s : State) (k last : Nat) : OnlyRegs s (overrunCounted s k last) :=
  ((onlyRegs_toCycle s (last + 1)).trans (onlyRegs_satAdd _ _ _ _ _)).trans (onlyRegs_setReg _ _ _)

theorem overrunCounted_cycle (s : State) (k last : Nat) : (overrunCounted s k last).cycle = max s.cycle (last + 1) := by
  rw [overrunCounted, setReg_cycle, satAdd, setFld, setReg_cycle, toCycle_cycle]

theorem overrunCounted_host (s : State) (k last : Nat) : (overrunCounted s k last).host = s.host := by
  rw [overrunCounted, setReg_host, satAdd, setFld, setReg_host, toCycle_host]

/-- Segment i is noted as over its bound, in the cycle after the last one within it (R334). -/
def segmentSeen (s : State) (i last : Nat) : State :=
  { toCycle s (last + 1) with rgs := { s.rgs with evalSeen := s.rgs.evalSeen ++ [i] } }

/-- The segment is counted and recorded in RGS_EVAL (R334, R337). -/
def segmentCounted (s : State) (i last : Nat) : State :=
  setFld (setFld (satAdd (segmentSeen s i last) rRGS_EVAL 0 16 1) rRGS_EVAL 16 8 i) rRGS_EVAL 31 1 1

theorem exec_evalOverrun {s : State} {i last : Nat} (hr : s.dev = .run) (hd : evalDue s = some (i, last)) :
    exec .evalOverrun s = .next (setIstat (segmentCounted s i last) (Block.rgs.page 0) 8) := by
  change execEvalOverrun s = _
  simp only [execEvalOverrun, hd, hr, toCycle_rgs, segmentCounted, segmentSeen]
  rfl

theorem segmentSeen_onlyRegs (s : State) (i last : Nat) :
    OnlyRegs { s with rgs := { s.rgs with evalSeen := s.rgs.evalSeen ++ [i] } } (segmentSeen s i last) :=
  (onlyRegs_toCycle s (last + 1)).withRgs _

theorem segmentSeen_regFld (s : State) (i last off lo len : Nat) : regFld (segmentSeen s i last) off lo len = regFld s off lo len := by
  simp [regFld, regRaw, segmentSeen]

theorem segmentCounted_onlyRegs (s : State) (i last : Nat) :
    OnlyRegs { s with rgs := { s.rgs with evalSeen := s.rgs.evalSeen ++ [i] } } (segmentCounted s i last) :=
  (((segmentSeen_onlyRegs s i last).trans (onlyRegs_satAdd _ _ _ _ _)).trans (onlyRegs_setFld _ _ _ _ _)).trans
    (onlyRegs_setFld _ _ _ _ _)

theorem segmentCounted_cycle (s : State) (i last : Nat) : (segmentCounted s i last).cycle = max s.cycle (last + 1) := by
  rw [segmentCounted, setFld, setReg_cycle, setFld, setReg_cycle, satAdd, setFld, setReg_cycle, segmentSeen, toCycle_cycle]

theorem segmentCounted_host (s : State) (i last : Nat) : (segmentCounted s i last).host = s.host := by
  rw [segmentCounted, setFld, setReg_host, setFld, setReg_host, satAdd, setFld, setReg_host, segmentSeen, toCycle_host]

/-- RGS_OVERRUN's LATE is set at the job's deadline (R390). -/
def lateMarked (s : State) (j : Job) : State := setFld (toTime s (s.rgs.runTime + j.deadline * 84000)) rRGS_OVERRUN 16 1 1

theorem exec_jobLate {s : State} {j : Job} (hr : s.dev = .run) (hj : s.rgs.job = some j) (hd : j.deadline ≠ 0)
    (hl : regFld s rRGS_OVERRUN 16 1 = 0) : exec .jobLate s = .next (setIstat (lateMarked s j) (Block.rgs.page 0) 8) := by
  change execJobLate s = _
  simp [execJobLate, hr, hj, hd, hl, lateMarked, usTicks]

theorem lateMarked_onlyRegs (s : State) (j : Job) : OnlyRegs s (lateMarked s j) :=
  (onlyRegs_toTime s _).trans (onlyRegs_setFld _ _ _ _ _)

theorem lateMarked_time (s : State) (j : Job) : (lateMarked s j).time = max s.time (s.rgs.runTime + j.deadline * 84000) := by
  rw [lateMarked, setFld, setReg_time, toTime_time]

theorem lateMarked_host (s : State) (j : Job) : (lateMarked s j).host = s.host := by
  rw [lateMarked, setFld, setReg_host, toTime_host]

/-- A register that is not RGS_ISTAT reads after the overrun interrupt as before it. -/
theorem regFld_raiseOverrun_ne (u : State) {off : Nat} (lo len : Nat) (h : off ≠ rgsIstat) :
    regFld (setIstat u (Block.rgs.page 0) 8) off lo len = regFld u off lo len := by
  rw [regFld, regRaw_setIstat_ne _ _ _ h, regFld]

/-- The clock does not change a register. -/
theorem regFld_toCycle (s : State) (c off lo len : Nat) : regFld (toCycle s c) off lo len = regFld s off lo len := by
  simp [regFld, regRaw]

theorem regFld_toTime (s : State) (c off lo len : Nat) : regFld (toTime s c) off lo len = regFld s off lo len := by
  simp [regFld, regRaw]

theorem overrunCounted_overrun (s : State) (k last : Nat) : regFld (overrunCounted s k last) rRGS_OVERRUN 0 16 =
    min (regFld s rRGS_OVERRUN 0 16 + 1) 65535 := by
  rw [overrunCounted, regFld_setReg_ne _ _ _ _ (by decide), regFld_satAdd _ _ _ (by decide), regFld_toCycle]
  rfl

theorem overrunCounted_ien (s : State) (k last : Nat) : regFld (overrunCounted s k last) rgsIen 3 1 = regFld s rgsIen 3 1 := by
  rw [overrunCounted, regFld_setReg_ne _ _ _ _ (by decide), regFld, regRaw_satAdd_ne _ _ _ _ (by decide)]
  exact regFld_toCycle s _ _ _ _

theorem segmentCounted_entry (s : State) {i : Nat} (last : Nat) (hi : i < 256) : regFld (segmentCounted s i last) rRGS_EVAL 16 8 = i := by
  rw [segmentCounted, regFld_setFld_below _ _ _ (by decide) (by decide), regFld_setFld_self _ _ _ (by decide)]
  exact Nat.mod_eq_of_lt hi

theorem segmentCounted_valid (s : State) (i last : Nat) : regFld (segmentCounted s i last) rRGS_EVAL 31 1 = 1 := by
  rw [segmentCounted, regFld_setFld_self _ _ _ (by decide)]
  rfl

theorem segmentCounted_count (s : State) (i last : Nat) : regFld (segmentCounted s i last) rRGS_EVAL 0 16 =
    min (regFld s rRGS_EVAL 0 16 + 1) 65535 := by
  rw [segmentCounted, regFld_setFld_below _ _ _ (by decide) (by decide), regFld_setFld_below _ _ _ (by decide) (by decide),
    regFld_satAdd _ _ _ (by decide), segmentSeen_regFld]
  rfl

theorem segmentCounted_ien (s : State) (i last : Nat) : regFld (segmentCounted s i last) rgsIen 3 1 = regFld s rgsIen 3 1 := by
  rw [segmentCounted, regFld, regRaw_setFld_ne _ _ _ _ (by decide), regRaw_setFld_ne _ _ _ _ (by decide),
    regRaw_satAdd_ne _ _ _ _ (by decide)]
  exact segmentSeen_regFld s i last _ _ _

theorem lateMarked_late (s : State) (j : Job) : regFld (lateMarked s j) rRGS_OVERRUN 16 1 = 1 := by
  rw [lateMarked, regFld_setFld_self _ _ _ (by decide)]
  rfl

theorem lateMarked_ien (s : State) (j : Job) : regFld (lateMarked s j) rgsIen 3 1 = regFld s rgsIen 3 1 := by
  rw [lateMarked, regFld, regRaw_setFld_ne _ _ _ _ (by decide)]
  exact regFld_toTime s _ _ _ _

/-- Settles O19: each limit records itself in its registers, and then raises the one overrun interrupt (`raiseOverrun_raised`). -/
theorem timeLimits : Obligations.TimeLimits := by
  unfold Obligations.TimeLimits
  intro s j hr hj
  refine ⟨fun a ha hl => bellTimeout_faults hr hj ha hl, fun k last hd => ?_, fun i last hi hd => ?_, fun hd hl => ?_⟩
  · refine ⟨_, exec_superstepOverrun hr hd, ((overrunCounted_onlyRegs s k last).withRgs _).trans (onlyRegs_setIstat _ _ _), ?_, ?_, ?_,
      raiseOverrun_raised ?_ (overrunCounted_ien s k last)⟩
    · rw [setIstat_cycle]; exact overrunCounted_cycle s k last
    · rw [regRaw_setIstat_ne _ _ _ (by decide)]; exact setReg_regRaw _ _ _
    · rw [regFld_raiseOverrun_ne _ _ _ (by decide)]; exact overrunCounted_overrun s k last
    · exact overrunCounted_host s k last
  · refine ⟨_, exec_evalOverrun hr hd, (segmentCounted_onlyRegs s i last).trans (onlyRegs_setIstat _ _ _), ?_, ?_, ?_, ?_,
      raiseOverrun_raised ?_ (segmentCounted_ien s i last)⟩
    · rw [setIstat_cycle]; exact segmentCounted_cycle s i last
    · rw [regFld_raiseOverrun_ne _ _ _ (by decide)]; exact segmentCounted_entry s last hi
    · rw [regFld_raiseOverrun_ne _ _ _ (by decide)]; exact segmentCounted_valid s i last
    · rw [regFld_raiseOverrun_ne _ _ _ (by decide)]; exact segmentCounted_count s i last
    · exact segmentCounted_host s i last
  · refine ⟨_, exec_jobLate hr hj hd hl, (lateMarked_onlyRegs s j).trans (onlyRegs_setIstat _ _ _), ?_, ?_,
      raiseOverrun_raised ?_ (lateMarked_ien s j)⟩
    · rw [setIstat_time]; exact lateMarked_time s j
    · rw [regFld_raiseOverrun_ne _ _ _ (by decide)]; exact lateMarked_late s j
    · exact lateMarked_host s j

end Sys2Proof.Machine
end

section
/-! PROOFS. The release of the bell on the tiles of a device (R21 to R23), and what the entries that start with it may touch (R280, R289). -/

namespace Sys2Proof.Machine

/-! ### What starting the entries of a bell may change -/

/-- Nothing but registers, the host interface, controllers, rooms and the lending engine differs, and the superstep's number stands. -/
def TiersOnly (s t : State) : Prop :=
  t = { s with regs := t.regs, host := t.host, ctls := t.ctls, rooms := t.rooms, lend := t.lend } ∧ superstep t = superstep s

theorem TiersOnly.refl (s : State) : TiersOnly s s := ⟨rfl, rfl⟩

theorem TiersOnly.trans {s t u : State} (h : TiersOnly s t) (g : TiersOnly t u) : TiersOnly s u :=
  ⟨by rw [g.1, h.1], g.2.trans h.2⟩

/-- Steps that each keep to the tiers do so together. -/
theorem TiersOnly.foldl {α : Type} {f : State → α → State} (h : ∀ s a, TiersOnly s (f s a)) (l : List α) (s : State) :
    TiersOnly s (l.foldl f s) :=
  foldl_keeps (TiersOnly s) f (fun _ a hb => hb.trans (h _ a)) l s (TiersOnly.refl s)

theorem superstep_setReg_ne (s : State) {off : Nat} (w : Word) (h : rRGS_SUPERSTEP ≠ off) : superstep (setReg s off w) = superstep s := by
  rw [superstep, setReg_regRaw_ne s w h, superstep]

theorem superstep_setIstat_ne (s : State) {page : Nat} (mask : Nat) (h : rRGS_SUPERSTEP ≠ page * 0x1000 + oISTAT) :
    superstep (setIstat s page mask) = superstep s := by
  rw [superstep, regRaw_setIstat_ne s _ _ h, superstep]

/-- The pages of the controllers and of the Registrar lie apart (R456). -/
theorem superstep_ne_mctEcc (mc : Nat) : rRGS_SUPERSTEP ≠ rMCT_ECC mc := by
  simp only [rRGS_SUPERSTEP, rMCT_ECC, Block.reg, Block.page]
  omega

theorem superstep_ne_mctIstat (mc : Nat) : rRGS_SUPERSTEP ≠ Block.mct.page mc * 0x1000 + oISTAT := by
  simp only [rRGS_SUPERSTEP, Block.reg, Block.page, oISTAT]
  omega

/-- An error counted at a controller. -/
theorem tiersOnly_countEcc (s : State) (mc lo n bit : Nat) :
    TiersOnly s (setIstat (satAdd s (rMCT_ECC mc) lo 16 n) (Block.mct.page mc) bit) := by
  refine ⟨?_, (superstep_setIstat_ne _ _ (superstep_ne_mctIstat mc)).trans (superstep_setReg_ne _ _ (superstep_ne_mctEcc mc))⟩
  rw [setIstat_frame]
  rfl

theorem tiersOnly_countCE (s : State) (mc n : Nat) : TiersOnly s (countCE s mc n) := by
  unfold countCE
  split
  · exact TiersOnly.refl s
  · exact tiersOnly_countEcc s mc 0 n 1

theorem tiersOnly_countUE (s : State) (mc : Nat) : TiersOnly s (countUE s mc) := tiersOnly_countEcc s mc 16 1 2

theorem tiersOnly_touchUnit (s : State) (unit : Nat) : TiersOnly s (touchUnit s unit) := by
  unfold touchUnit
  split <;> exact ⟨rfl, rfl⟩

theorem tiersOnly_unitFetched (p : State × Bool) (unit : Nat) : TiersOnly p.1 (unitFetched p unit).1 := by
  have hce := tiersOnly_countCE p.1 (mcOf unit) (unitCE p.1 unit)
  unfold unitFetched
  dsimp only
  split
  · exact tiersOnly_touchUnit _ _
  · split
    · exact hce.trans (tiersOnly_countUE _ _)
    · exact hce

theorem tiersOnly_bytesFetched (s : State) (a n : Nat) : TiersOnly s (bytesFetched s a n).1 :=
  foldl_keeps (fun p => TiersOnly s p.1) unitFetched (fun _ u h => h.trans (tiersOnly_unitFetched _ u)) _ (s, true) (TiersOnly.refl s)

theorem tiersOnly_startEntry (c : Nat) (wakes : Bool) (s : State) (n : Nat) : TiersOnly s (startEntry c wakes s n) := by
  unfold startEntry
  dsimp only
  split <;> exact ⟨rfl, rfl⟩

/-- The schedule read, and the entries that are due started: WAKEs and loans, then GATEs (R289, R306). -/
theorem tiersOnly_started (s : State) (a n : Nat) (due : List Nat) (c : Nat) :
    TiersOnly s (due.foldl (startEntry c false) (due.foldl (startEntry c true) (bytesFetched s a n).1)) :=
  ((tiersOnly_bytesFetched s a n).trans (TiersOnly.foldl (tiersOnly_startEntry c true) _ _)).trans
    (TiersOnly.foldl (tiersOnly_startEntry c false) _ _)

/-- Starting the entries of a bell: beside the tiers, only the job's place in its schedule moves on. -/
theorem startEntries_frame (s : State) (k c : Nat) : ∃ u j, TiersOnly s u ∧
    startEntries s k c = { u with rgs := { s.rgs with job := j } } := by
  unfold startEntries
  split
  next h => exact ⟨s, none, TiersOnly.refl s, by rw [← h]⟩
  next j h =>
    have hr {u : State} (hu : TiersOnly s u) (j : Option Job) :
        ({ u with rgs := { u.rgs with job := j } } : State) = { u with rgs := { s.rgs with job := j } } := by
      rw [show u.rgs = s.rgs by rw [hu.1]]
    dsimp only
    exact ⟨_, _, tiersOnly_started s _ _ _ c, hr (tiersOnly_started s _ _ _ c) _⟩

/-! ### The tiles of a job -/

/-- Every tile of a list of sites changes alike, once; nothing else does. -/
theorem foldl_onTile {l : List Site} (hl : l.Nodup) (f : Tile → Tile) : ∀ s : State,
    (∀ x ∈ l, (l.foldl (fun s x => s.onTile x f) s).tile x = f (s.tile x)) ∧
      (∀ x, x ∉ l → (l.foldl (fun s x => s.onTile x f) s).tile x = s.tile x) := by
  induction l with
  | nil => exact fun s => ⟨by simp, fun _ _ => rfl⟩
  | cons y l ih =>
    intro s
    obtain ⟨hy, hl⟩ := List.nodup_cons.mp hl
    obtain ⟨hin, hout⟩ := ih hl (s.onTile y f)
    rw [List.foldl_cons]
    refine ⟨fun x hx => ?_, fun x hx => ?_⟩
    · rcases List.mem_cons.mp hx with rfl | hx
      · rw [hout x hy, onTile_tile]
      · rw [hin x hx, onTile_tile_ne _ _ (fun e => hy (by rwa [← e]))]
    · obtain ⟨hxy, hx⟩ := not_or.mp (mt List.mem_cons.mpr hx)
      rw [hout x hx, onTile_tile_ne _ _ hxy]

theorem foldl_onTile_frame (f : Tile → Tile) (l : List Site) : ∀ s : State, l.foldl (fun s x => s.onTile x f) s =
    { s with tiles := (l.foldl (fun s x => s.onTile x f) s).tiles } := by
  induction l with
  | nil => exact fun _ => rfl
  | cons y l ih =>
    intro s
    rw [List.foldl_cons, ih]
    rfl

/-! ### The release -/

/-- The tiles of the job released in the state's cycle, with the device's census frozen (R22, R331). -/
def tilesReleased (s : State) : State :=
  (jobSites s).foldl (fun u x => u.onTile x fun t => t.release (superstep s) s.cycle) (freezeDevice s (superstep s))

/-- The micro-step counted, where the superstep of s ends one (R322). -/
def countMicrostep (s u : State) : State :=
  if endsMicrostep s (superstep s) then setReg u rRGS_MICROSTEP (regRaw u rRGS_MICROSTEP + 1) else u

/-- The cycle from which the next superstep is measured (R37). -/
def nextBegin (s : State) : Nat := s.cycle + Nat.max (longestL s) s.rgs.lmax

/-- The next superstep's number in its register, and the evaluation segments that begin or end (R23, R334). -/
def countSuperstep (k begin : Nat) (u : State) : State :=
  evalEdges (setReg u rRGS_SUPERSTEP (BitVec.ofNat 32 ((k + 1) % 2 ^ 32))) k begin

/-- The Registrar's record of the superstep in progress begins anew (R37). -/
def beginRecord (s : State) (begin : Nat) (u : State) : State :=
  { u with rgs := { u.rgs with prev := some (superstep s, s.rgs.sk, begin), sk := begin, arrivedFrom := [], arriveSent := false, lmax := 0 } }

/-- The state at a release, before the entries of the next superstep start. -/
def bellCounted (s : State) : State :=
  beginRecord s (nextBegin s) (countSuperstep (superstep s) (nextBegin s) (countMicrostep s (tilesReleased s)))

theorem releaseBell_eq (s : State) : releaseBell s = startEntries (bellCounted s) ((superstep s + 1) % 2 ^ 32) s.cycle := by
  unfold releaseBell bellCounted beginRecord countSuperstep countMicrostep nextBegin tilesReleased
  rfl

theorem countMicrostep_frame (s u : State) : countMicrostep s u = { u with regs := (countMicrostep s u).regs } := by
  unfold countMicrostep
  split <;> rfl

theorem countSuperstep_frame (k begin : Nat) (u : State) : countSuperstep k begin u =
    { u with regs := (countSuperstep k begin u).regs, rgs := (countSuperstep k begin u).rgs } := rfl

theorem tilesReleased_frame (s : State) : tilesReleased s = { s with cen := (tilesReleased s).cen, tiles := (tilesReleased s).tiles } := by
  unfold tilesReleased
  rw [foldl_onTile_frame]
  rfl

/-- A release changes tiles, the census, registers and the Registrar's own record, before the entries start. -/
theorem bellCounted_frame (s : State) : bellCounted s =
    { s with cen := (tilesReleased s).cen, tiles := (tilesReleased s).tiles, regs := (bellCounted s).regs, rgs := (bellCounted s).rgs } := by
  unfold bellCounted beginRecord
  rw [countSuperstep_frame, countMicrostep_frame, tilesReleased_frame]

theorem superstep_bellCounted (s : State) : superstep (bellCounted s) = (superstep s + 1) % 2 ^ 32 := by
  have h (u : State) : regRaw (countSuperstep (superstep s) (nextBegin s) u) rRGS_SUPERSTEP =
      BitVec.ofNat 32 ((superstep s + 1) % 2 ^ 32) := setReg_regRaw _ _ _
  have hr (b : Nat) (u : State) : regRaw (beginRecord s b u) rRGS_SUPERSTEP = regRaw u rRGS_SUPERSTEP := rfl
  rw [superstep, bellCounted, hr, h, BitVec.toNat_ofNat, Nat.mod_mod]

/-- The release in the state's own cycle. -/
theorem releaseBell_released {s : State} (h : (jobSites s).Nodup) :
    Released s (releaseBell s) s.cycle ∧ (releaseBell s).cycle = s.cycle ∧ (releaseBell s).rgs.sk = nextBegin s := by
  obtain ⟨u, j, ⟨hu, hk⟩, ht⟩ := startEntries_frame (bellCounted s) ((superstep s + 1) % 2 ^ 32) s.cycle
  rw [← releaseBell_eq] at ht
  have hb := bellCounted_frame s
  have htile (x : Site) : (releaseBell s).tile x = (tilesReleased s).tile x := by
    have : (releaseBell s).tiles = (tilesReleased s).tiles := by rw [ht]; dsimp only; rw [hu, hb]
    simp only [State.tile, this]
  obtain ⟨hin, hout⟩ := foldl_onTile h (fun t => t.release (superstep s) s.cycle) (freezeDevice s (superstep s))
  refine ⟨⟨?_, ?_, ?_, fun x hx => ?_, fun x hx => ?_⟩, ?_, ?_⟩
  · rw [← superstep_bellCounted, ← hk, ht]; rfl
  · rw [ht]; dsimp only; rw [hu, hb]
  · rw [ht]; dsimp only; rw [hu, hb]
  · rw [htile, tilesReleased, hin x hx]
    exact ⟨rfl, rfl, rfl, rfl⟩
  · rw [htile, tilesReleased, hout x hx]
    rfl
  · rw [ht]; dsimp only; rw [hu, hb]
  · rw [ht]; rfl

/-- The clock and the longest phase known so far do not bear on what a release is measured against. -/
theorem Released.of_same {s u t : State} {c : Nat} (h : Released u t c) (hk : superstep u = superstep s) (hg : u.gddr = s.gddr)
    (hd : u.dev = s.dev) (hj : jobSites u = jobSites s) (ht : ∀ x, u.tile x = s.tile x) : Released s t c := by
  obtain ⟨h1, h2, h3, h4, h5⟩ := h
  simp only [hj, ht] at h4 h5
  exact ⟨hk ▸ h1, h2.trans hg, h3.trans hd, h4, h5⟩

theorem longestL_congr {s t : State} (hj : jobSites t = jobSites s) (ht : ∀ x, t.tile x = s.tile x) : longestL t = longestL s := by
  simp only [longestL, hj, ht]

/-- BELL_RELEASE: 120 cycles after the last arrival (R21). -/
theorem bellRelease_releases {s : State} (hr : s.dev = .run) (hn : (jobSites s).Nodup) (hm : mayRelease s = true)
    (hc : s.cycle ≤ lastArrival s + 120) :
    ∃ t, exec .bellRelease s = .next t ∧ t.cycle = lastArrival s + 120 ∧ Released s t (lastArrival s + 120) ∧
      t.rgs.sk = lastArrival s + 120 + max (longestL s) s.rgs.lmax := by
  have hcyc : (toCycle s (lastArrival s + 120)).cycle = lastArrival s + 120 := by rw [toCycle_cycle]; exact max_eq_right hc
  have hj : jobSites (toCycle s (lastArrival s + 120)) = jobSites s := jobSites_congr (by simp) (by simp)
  have ht (x : Site) := toCycle_tile s (lastArrival s + 120) x
  obtain ⟨h1, h2, h3⟩ := releaseBell_released (hj ▸ hn : (jobSites (toCycle s (lastArrival s + 120))).Nodup)
  rw [hcyc] at h1 h2
  rw [nextBegin, hcyc, longestL_congr hj ht, toCycle_rgs] at h3
  refine ⟨releaseBell (toCycle s (lastArrival s + 120)), ?_, h2, h1.of_same ?_ (by simp) (by simp) hj ht, h3⟩
  · change execBellRelease s = _
    simp [execBellRelease, hr, hm, bellCycles]
  · simp [superstep, regRaw]

/-- RELEASE: the root's message does the same on another device, at once, with the job's longest exchange phase (R354). -/
theorem release_releases {s : State} (len : Nat) (hr : s.dev = .run) (hn : (jobSites s).Nodup) (hs : jobSpans s = true)
    (hb : bellRoot s ≠ ownWid s) (ha : s.rgs.arriveSent = true) :
    ∃ t, exec (.release len) s = .next t ∧ t.cycle = s.cycle ∧ Released s t s.cycle ∧ t.rgs.sk = s.cycle + max (longestL s) len := by
  obtain ⟨h1, h2, h3⟩ := releaseBell_released (s := { s with rgs := { s.rgs with lmax := len } }) hn
  refine ⟨_, ?_, h2, h1.of_same rfl rfl rfl rfl fun _ => rfl, h3⟩
  change execRelease len s = _
  simp [execRelease, hr, hs, hb, ha]

/-- ARRIVE at the root: the device counts once, and the last one brings RELEASE to the others (R354). -/
theorem arrive_counts {s : State} {w : Nat} (len : Nat) (hr : s.dev = .run) (hs : jobSpans s = true) (hb : bellRoot s = ownWid s)
    (hw : w ∈ s.rgs.workers) : exec (.arrive w len) s = .next (rootArrival s w len) := by
  change execArrive w len s = _
  simp [execArrive, hr, hs, hb, hw]

/-- Settles O18: `releaseBell_released` for both ways to a release, and `rootArrival_eq` for the root. -/
theorem bellReleases : Obligations.BellReleases := by
  unfold Obligations.BellReleases
  refine ⟨fun s hr hn => ⟨bellRelease_releases hr hn, fun len hs hb ha => release_releases len hr hn hs hb ha⟩,
    fun s w len hr hs hb hw => ?_⟩
  have hrgs : (rootArrival s w len).rgs = (rootNoted s w len).rgs := by rw [rootArrival_frame]
  refine ⟨_, arrive_counts len hr hs hb hw, ?_, hrgs, fun ⟨v, hv, hout⟩ => ?_, fun hall hone => ?_⟩
  · rw [rootArrival_frame]; rfl
  · rw [hrgs] at hout
    rw [rootArrival_eq, if_neg fun h => hout (h.1 v hv)]
    rfl
  · rw [hrgs] at hall
    rw [rootArrival_eq, if_pos ⟨hall, hone⟩, toOthers_eq]
    rfl

end Sys2Proof.Machine
end

section
/-! PROOFS. What reads, reports and new traffic leave as it was in the tiles: the frames that a QREQ's retirement needs. -/

namespace Sys2Proof.Machine

/-! ### The tile -/

/-- Two tiles that may differ only in what reading memory and noting it touches: operands read by what is in flight, words of SLDs, bank
ports, and the checks of debug mode. -/
def SameButReads (t u : Tile) : Prop :=
  u = { t with feeds := u.feeds, vops := u.vops, xsends := u.xsends, regWrites := u.regWrites, tLast := u.tLast, tAcc0 := u.tAcc0,
               tAcc1 := u.tAcc1, ports := u.ports, upset := u.upset, found := u.found, gran := u.gran }

theorem SameButReads.refl (t : Tile) : SameButReads t t := rfl

theorem SameButReads.trans {t u v : Tile} (h : SameButReads t u) (g : SameButReads u v) : SameButReads t v := by
  unfold SameButReads at *
  rw [g, h]

theorem noteReads_sameButReads (t : Tile) (gs : List Nat) : SameButReads t (t.noteReads gs) := by
  unfold Tile.noteReads
  split <;> rfl

theorem checkReads_sameButReads (t : Tile) : SameButReads t t.checkReads :=
  SameButReads.trans (by exact rfl) (noteReads_sameButReads _ t.newReads)

theorem leaveFeeds_sameButReads (t : Tile) : SameButReads t t.leaveFeeds :=
  foldl_keeps (SameButReads t) Tile.leaveFeed (fun u f hu => hu.trans (v := u.leaveFeed f) rfl) _ _ (SameButReads.refl t)

/-- Reads of tile memory change neither it nor a register. -/
theorem latchMem_sameButReads (t : Tile) (c : Nat) : SameButReads t (t.latchMem c) :=
  SameButReads.trans (u := Tile.checkReads _) (SameButReads.trans (by exact rfl) (checkReads_sameButReads _)) (leaveFeeds_sameButReads _)

/-! ### Reports -/

@[simp] theorem mayFault_tiles (s : State) : (mayFault s).tiles = s.tiles := by
  by_cases h : (freeWord s).toNat % 2 = 0
  · rw [mayFault, if_pos h]
    rfl
  · rw [mayFault, if_neg h]
    exact raiseFault_tiles _ _ _ _

/-- A hazard of debug mode counted (R394). -/
def hazardCounted (s : State) : State := satAdd s rRGS_HAZARD 0 16 1

/-- The first hazard of a job, recorded and signalled (R394). -/
def hazardNoted (s : State) (kind site addr : Nat) : State :=
  setIstat (setReg (setReg (setReg (hazardCounted s) rRGS_HAZARD
      (BitVec.ofNat 32 (fld (regRaw (hazardCounted s) rRGS_HAZARD) 0 16 + kind * 2 ^ 16 + site * 2 ^ 19 + 2 ^ 31)))
    rRGS_HAZADDR (BitVec.ofNat 32 (addr % 2 ^ 21))) rRGS_HAZK (BitVec.ofNat 32 (superstep s))) (Block.rgs.page 0) 0x10

/-- A hazard is nothing outside debug mode; in it, it is counted, the first is noted, and under DEBUG_STOP that one faults the job. -/
theorem hazard_cases (s : State) (kind site addr : Nat) :
    hazard s kind site addr = s ∨ hazard s kind site addr = hazardCounted s ∨ hazard s kind site addr = hazardNoted s kind site addr ∨
      hazard s kind site addr = raiseFault (hazardNoted s kind site addr) 0x1A kind site := by
  unfold hazard hazardNoted hazardCounted
  by_cases hd : (!debugJob s) = true
  · exact .inl (if_pos hd)
  rw [if_neg hd]
  by_cases hf : regFld s rRGS_HAZARD 31 1 = 1
  · exact .inr (.inl (if_pos hf))
  rw [if_neg hf]
  cases s.rgs.job with
  | none => exact .inr (.inr (.inl rfl))
  | some j =>
    by_cases hs : j.debugStop = true
    · exact .inr (.inr (.inr (if_pos hs)))
    · exact .inr (.inr (.inl (if_neg hs)))

theorem hazardNoted_tiles (s : State) (kind site addr : Nat) : (hazardNoted s kind site addr).tiles = s.tiles := by
  rw [hazardNoted, setIstat_tiles, setReg_tiles, setReg_tiles, setReg_tiles]
  rfl

theorem hazard_tiles (s : State) (kind site addr : Nat) : (hazard s kind site addr).tiles = s.tiles := by
  rcases hazard_cases s kind site addr with h | h | h | h <;> rw [h]
  · rfl
  · exact hazardNoted_tiles s kind site addr
  · rw [raiseFault_tiles, hazardNoted_tiles]

theorem tile_congr {s t : State} (h : t.tiles = s.tiles) (y : Site) : t.tile y = s.tile y := by rw [State.tile, h, State.tile]

theorem raiseFault_tile (s : State) (reason detail site : Nat) (y : Site) : (raiseFault s reason detail site).tile y = s.tile y :=
  tile_congr (raiseFault_tiles s reason detail site) y

theorem foldl_tiles {α : Type} {f : State → α → State} (h : ∀ s a, (f s a).tiles = s.tiles) (l : List α) (s : State) :
    (l.foldl f s).tiles = s.tiles :=
  foldl_keeps (fun u => u.tiles = s.tiles) f (fun _ a hu => (h _ a).trans hu) l s rfl

/-- What a tile has met is reported, and the tile is put back as it was. -/
theorem putTile_sameButReads (s : State) (x : Site) (t : Tile) : SameButReads t ((s.putTile x t).tile x) := by
  have hu (u : State) (h : SameButReads t (u.tile x)) : SameButReads t ((reportUpset u x).tile x) := by
    rw [reportUpset, tile_congr (mayFault_tiles _), onTile_tile]
    exact h.trans rfl
  have hh (u : State) (h : SameButReads t (u.tile x)) : SameButReads t ((reportHazards u x).tile x) := by
    rw [reportHazards, tile_congr (foldl_tiles (α := Nat × Nat) (fun v p => hazard_tiles v p.1 x p.2) _ _), onTile_tile]
    exact h.trans rfl
  have h0 : SameButReads t ((s.setTile x t).tile x) := by rw [setTile_tile]; exact SameButReads.refl t
  unfold State.putTile
  dsimp only
  split <;> split
  · exact hu _ h0
  · exact h0
  · exact hh _ (hu _ h0)
  · exact hh _ h0

theorem putTile_tile_ne (s : State) {x y : Site} (t : Tile) (h : y ≠ x) : (s.putTile x t).tile y = s.tile y := by
  have hu (u : State) : (reportUpset u x).tile y = u.tile y := by
    rw [reportUpset, tile_congr (mayFault_tiles _), onTile_tile_ne _ _ h]
  have hh (u : State) : (reportHazards u x).tile y = u.tile y := by
    rw [reportHazards, tile_congr (foldl_tiles (α := Nat × Nat) (fun v p => hazard_tiles v p.1 x p.2) _ _), onTile_tile_ne _ _ h]
  unfold State.putTile
  dsimp only
  split <;> split <;> simp only [hu, hh, setTile_tile_ne _ _ h]

/-- The areas of a request are checked in debug mode (R231): nothing but the checks changes at its tile. -/
theorem areaHazards_sameButReads (s : State) (x : Site) (c : Nat) (r : Request) : SameButReads (s.tile x) ((areaHazards s x c r).tile x) := by
  unfold areaHazards
  split
  · exact SameButReads.refl _
  · exact ((latchMem_sameButReads _ (c - 1)).trans (by exact rfl)).trans (putTile_sameButReads s x _)

theorem areaHazards_tile_ne (s : State) {x y : Site} (c : Nat) (r : Request) (h : y ≠ x) : (areaHazards s x c r).tile y = s.tile y := by
  unfold areaHazards
  split
  · rfl
  · exact putTile_tile_ne _ _ h

/-! ### New traffic -/

theorem postUnit_tiles (s : State) (u : UnitMsg) : (postUnit s u).tiles = s.tiles := rfl

theorem postRoom_tiles (s : State) (n : Nat) (a : RoomAcc) : (postRoom s n a).tiles = s.tiles := by
  unfold postRoom
  split <;> rfl

theorem addLines_tiles (s : State) (o : HostOwner) (first count : Nat) : (addLines s o first count).tiles = s.tiles := by
  unfold addLines
  split
  · rfl
  · split <;> rfl

theorem faultUnmatched_tiles (s : State) (p : Nat → Bool) (x : Site) : (faultUnmatched s p x).tiles = s.tiles := by
  unfold faultUnmatched
  split
  · exact foldl_tiles (fun u a => raiseFault_tiles u _ _ _) _ _
  · rfl

theorem addEnd_tiles (s : State) (k : Nat) (st : Stream) (send : Bool) (e : StreamEnd) : (addEnd s k st send e).tiles = s.tiles := by
  unfold addEnd
  refine (foldl_tiles (fun u y => faultUnmatched_tiles u _ y) _ _).trans ?_
  split
  · split
    · rfl
    · exact raiseFault_tiles _ _ _ _
  · rfl

theorem joinStream_tiles (s : State) (x : Site) (q : Nat) (r : Request) : (joinStream s x q r).tiles = s.tiles := by
  unfold joinStream
  dsimp only
  split
  · split
    · exact addEnd_tiles _ _ _ _ _
    · exact addEnd_tiles _ _ _ _ _
  · split
    · split
      · exact addEnd_tiles _ _ _ _ _
      · exact addEnd_tiles _ _ _ _ _
    · exact addEnd_tiles _ _ _ _ _

/-- What a request sets going leaves the tiles alone, but for a LOANWAIT, which may post at once (R175, R293). -/
theorem startRequest_tiles {s : State} {x : Site} {q : Nat} {r : Request} (h : r.kind ≠ .loanwait) :
    (startRequest s x q r).tiles = s.tiles := by
  unfold startRequest
  split
  · exact foldl_tiles (fun u _ => postUnit_tiles u _) _ _
  · exact foldl_tiles (fun u _ => postRoom_tiles u _ _) _ _
  · exact addLines_tiles _ _ _ _
  · rfl
  · contradiction
  · exact joinStream_tiles _ _ _ _
  · exact joinStream_tiles _ _ _ _
  · rfl

end Sys2Proof.Machine
end

section
/-! PROOFS. A QREQ retires: its record, its faults and the slot that its request takes (R29, R164, R174, R175). -/

namespace Sys2Proof.Machine

/-! ### The newest request of a queue -/

theorem queue_congr {t u : Tile} (h : u.queues = t.queues) (j : Nat) : u.queue j = t.queue j := by rw [Tile.queue, h, Tile.queue]

@[simp] theorem setQueue_queue (t : Tile) (q : Nat) (rs : List Request) : (t.setQueue q rs).queue q = rs := SMap.get_set_self _ _ _ _

theorem setQueue_queue_ne (t : Tile) {q j : Nat} (rs : List Request) (h : j ≠ q) : (t.setQueue q rs).queue j = t.queue j :=
  SMap.get_set_ne _ _ _ h

/-- A request whose number no older one has is found by it. -/
theorem request_last {t : Tile} {q : Nat} {old : List Request} {r : Request} (hq : t.queue q = old ++ [r]) (hid : ∀ o ∈ old, o.id ≠ r.id) :
    t.request q r.id = some r := by
  have hold : old.find? (fun o => o.id == r.id) = none := List.find?_eq_none.mpr fun o ho => by simpa using hid o ho
  simp [Tile.request, hq, List.find?_append, hold]

/-- Changing that request leaves the older ones as they are. -/
theorem setRequest_last {t : Tile} {q : Nat} {old : List Request} {r v : Request} (hq : t.queue q = old ++ [r])
    (hid : ∀ o ∈ old, o.id ≠ r.id) (hv : v.id = r.id) : t.setRequest q v = t.setQueue q (old ++ [v]) := by
  have hold : old.map (fun o => if o.id == v.id then v else o) = old :=
    (List.map_congr_left fun o ho => by simp [hv, hid o ho]).trans (List.map_id old)
  rw [Tile.setRequest, hq, List.map_append, hold]
  simp [hv]

/-- Between two states, of the tiles only tile `x` differs: in the outcome of the last request of its queue q, and in its fault record. -/
structure LastPosted (s t : State) (x : Site) (q : Nat) (old : List Request) (r : Request) : Prop where
  queue : (t.tile x).queue q = old ++ [r]
  others : ∀ j, j ≠ q → (t.tile x).queue j = (s.tile x).queue j
  same : t.tile x = { s.tile x with queues := (t.tile x).queues, ifault := (t.tile x).ifault }
  tiles : ∀ y, y ≠ x → t.tile y = s.tile y

theorem LastPosted.of_tiles {s t : State} {x : Site} {q : Nat} {old : List Request} {r : Request}
    (hq : (s.tile x).queue q = old ++ [r]) (h : t.tiles = s.tiles) : LastPosted s t x q old r :=
  ⟨by rw [tile_congr h, hq], fun _ _ => by rw [tile_congr h], by rw [tile_congr h], fun y _ => tile_congr h y⟩

/-- Posting on the newest request touches no other (R177). -/
theorem postOutcome_last {s : State} {x : Site} {q : Nat} {old : List Request} {r : Request} (o : ReqOutcome) (c : Nat)
    (hq : (s.tile x).queue q = old ++ [r]) (hid : ∀ o ∈ old, o.id ≠ r.id) (hp : r.posted = none) :
    ∃ p, LastPosted s (postOutcome s x q r.id o c) x q old { r with posted := p } := by
  have hr := request_last hq hid
  have hm : r.mayPost o c = true := by simp [Request.mayPost, hp]
  have hpost : (s.tile x).post q r.id o c = (s.tile x).setQueue q (old ++ [{ r with posted := some (o, c) }]) := by
    simp only [Tile.post, hr, hm, if_true]
    exact setRequest_last hq hid rfl
  have hset : LastPosted s (s.onTile x fun t => t.post q r.id o c) x q old { r with posted := some (o, c) } := by
    refine ⟨?_, fun j hj => ?_, ?_, fun y hy => onTile_tile_ne _ _ hy⟩
    · rw [onTile_tile, hpost, setQueue_queue]
    · rw [onTile_tile, hpost, setQueue_queue_ne _ _ hj]
    · rw [onTile_tile, hpost]
      rfl
  unfold postOutcome
  simp only [hr, hm]
  by_cases hl : (r.nolapse && o == .lapsed) = true
  · refine ⟨none, ?_⟩
    rw [if_neg (by simp), if_pos hl]
    exact ⟨by rw [hq, ← hp], fun _ _ => rfl, rfl, fun _ _ => rfl⟩
  refine ⟨some (o, c), ?_⟩
  rw [if_neg (by simp), if_neg hl]
  by_cases hn : (r.nolapse && o == .poison) = true
  · rw [if_pos hn]
    have ht : (nolapsePoison (s.onTile x fun t => t.post q r.id o c) x r).tile x =
        { (s.onTile x fun t => t.post q r.id o c).tile x with ifault := ifaultWord 0x13 r.pc } := by
      rw [nolapsePoison, raiseFault_tile, onTile_tile]
    have hqs (j : Nat) : ((nolapsePoison (s.onTile x fun t => t.post q r.id o c) x r).tile x).queue j =
        ((s.onTile x fun t => t.post q r.id o c).tile x).queue j := queue_congr (by rw [ht]) j
    refine ⟨(hqs q).trans hset.queue, fun j hj => (hqs j).trans (hset.others j hj), ?_, fun y hy => ?_⟩
    · rw [ht, hset.same]
    · rw [nolapsePoison, raiseFault_tile, onTile_tile_ne _ _ hy, hset.tiles y hy]
  · rw [if_neg hn]
    exact hset

/-- A LOANWAIT posts at once where its loan's outcome is in the tile's table, and sets nothing else going (R293). -/
theorem startRequest_loanwait (s : State) (x : Site) (q : Nat) {r : Request} (h : r.kind = .loanwait) :
    startRequest s x q r = s ∨ ∃ o, startRequest s x q r = postOutcome s x q r.id o r.start := by
  unfold startRequest
  simp only [h]
  split
  · split
    · exact .inr ⟨_, rfl⟩
    · exact .inl rfl
  · exact .inl rfl

/-- What a request sets going when it takes the last slot of its queue: only a LOANWAIT may have its outcome at once (R293). -/
theorem startRequest_last {s : State} {x : Site} {q : Nat} {old : List Request} {r : Request} (hq : (s.tile x).queue q = old ++ [r])
    (hid : ∀ o ∈ old, o.id ≠ r.id) (hp : r.posted = none) :
    ∃ p, (r.kind ≠ .loanwait → p = none) ∧ LastPosted s (startRequest s x q r) x q old { r with posted := p } := by
  have hsame {t : State} (h : t.tiles = s.tiles) : LastPosted s t x q old { r with posted := none } :=
    .of_tiles (by rw [hq, ← hp]) h
  by_cases hk : r.kind = .loanwait
  · rcases startRequest_loanwait s x q hk with h | ⟨o, h⟩ <;> rw [h]
    · exact ⟨none, fun _ => rfl, hsame rfl⟩
    · obtain ⟨p, hl⟩ := postOutcome_last o r.start hq hid hp
      exact ⟨p, fun hne => absurd hk hne, hl⟩
  · exact ⟨none, fun _ => rfl, hsame (startRequest_tiles hk)⟩

/-! ### The slot taken -/

/-- Two tiles that may differ only in what a request that takes a slot touches: its record's read, the checks of its area, the queues, the
number of the next request, and the fault record of a LOANWAIT that meets poison. -/
def SameButRequest (t u : Tile) : Prop :=
  u = { t with feeds := u.feeds, vops := u.vops, xsends := u.xsends, regWrites := u.regWrites, tLast := u.tLast, tAcc0 := u.tAcc0,
               tAcc1 := u.tAcc1, ports := u.ports, upset := u.upset, found := u.found, gran := u.gran, queues := u.queues,
               nextReq := u.nextReq, ifault := u.ifault }

/-- The request that the record at `a` makes in cycle c (R174, R175). -/
def requestAt (s : State) (x : Site) (a c : Nat) : Request := mkRequest s (s.tile x) (recordRead s (s.tile x) a c) c

theorem placeRequest_fault {s : State} {x : Site} {q a c reason detail : Nat}
    (h : retireFault s x (requestAt s x a c) = some (reason, detail)) : placeRequest s x q a c = raiseFault s reason detail x := by
  unfold placeRequest
  unfold requestAt at h
  simp only [h]

/-- The tile once the record has been read in cycle c: the bank port it used, and what it met there (R221, R231). -/
def recordNoted (s : State) (x : Site) (a c : Nat) : Tile :=
  ({ s.tile x with upset := (s.tile x).upset || bankMeets ((s.tile x).foreseen.readsAt c) (granOf a) }.usePort
    { cycle := c, write := false, rank := 0, addr := a, len := 32 }).noteReads (rangeGrans a 32)

/-- The state once the record has been read and the area that it names is checked. -/
def areaChecked (s : State) (x : Site) (a c : Nat) : State :=
  areaHazards ((drew s 1).putTile x (recordNoted s x a c)) x c (requestAt s x a c)

/-- The tile with the request in the slot at the end of its queue. -/
def Tile.takeSlot (t : Tile) (q : Nat) (r : Request) : Tile := { t.setQueue q (t.queue q ++ [r]) with nextReq := t.nextReq + 1 }

theorem placeRequest_good {s : State} {x : Site} {q a c : Nat} (h : retireFault s x (requestAt s x a c) = none) :
    placeRequest s x q a c =
      startRequest ((areaChecked s x a c).onTile x (·.takeSlot q (requestAt s x a c))) x q (requestAt s x a c) := by
  unfold placeRequest
  unfold requestAt at h
  simp only [h]
  rfl

theorem areaChecked_sameButReads (s : State) (x : Site) (a c : Nat) : SameButReads (s.tile x) ((areaChecked s x a c).tile x) := by
  have hn : SameButReads (s.tile x) (recordNoted s x a c) :=
    SameButReads.trans (by exact rfl) (noteReads_sameButReads _ _)
  exact (hn.trans (putTile_sameButReads _ _ _)).trans (areaHazards_sameButReads _ _ _ _)

theorem areaChecked_tile_ne (s : State) {x y : Site} (a c : Nat) (h : y ≠ x) : (areaChecked s x a c).tile y = s.tile y := by
  rw [areaChecked, areaHazards_tile_ne _ _ _ h, putTile_tile_ne _ _ h]
  rfl

/-- A request without a fault takes the slot at the end of its queue, and its number. -/
theorem placeRequest_places {s : State} {x : Site} {q a c : Nat} (h : retireFault s x (requestAt s x a c) = none)
    (hid : ∀ o ∈ (s.tile x).queue q, o.id ≠ (s.tile x).nextReq) :
    ∃ p, ((requestAt s x a c).kind ≠ .loanwait → p = none) ∧
      ((placeRequest s x q a c).tile x).queue q = (s.tile x).queue q ++ [{ requestAt s x a c with posted := p }] ∧
      (∀ j, j ≠ q → ((placeRequest s x q a c).tile x).queue j = (s.tile x).queue j) ∧
      ((placeRequest s x q a c).tile x).nextReq = (s.tile x).nextReq + 1 ∧
      SameButRequest (s.tile x) ((placeRequest s x q a c).tile x) ∧
      ∀ y, y ≠ x → (placeRequest s x q a c).tile y = s.tile y := by
  have hs := areaChecked_sameButReads s x a c
  have hqs (j : Nat) : ((areaChecked s x a c).tile x).queue j = (s.tile x).queue j := queue_congr (by rw [hs]) j
  have hq : (((areaChecked s x a c).onTile x (·.takeSlot q (requestAt s x a c))).tile x).queue q =
      (s.tile x).queue q ++ [requestAt s x a c] := by
    rw [onTile_tile, ← hqs]
    exact setQueue_queue _ _ _
  obtain ⟨p, hk, hl⟩ := startRequest_last hq hid rfl
  rw [← placeRequest_good h] at hl
  refine ⟨p, hk, hl.queue, fun j hj => ?_, ?_, ?_, fun y hy => ?_⟩
  · rw [hl.others j hj, onTile_tile, ← hqs]
    exact setQueue_queue_ne _ _ hj
  · rw [hl.same, onTile_tile, hs]
    rfl
  · unfold SameButRequest
    rw [hl.same, onTile_tile, hs]
    rfl
  · rw [hl.tiles y hy, onTile_tile_ne _ _ hy, areaChecked_tile_ne _ _ _ hy]

end Sys2Proof.Machine
end

section
/-! PROOFS. QREQ as a command of the control slot: what its record is, how its bundle issues, faults or stalls (R164, R174, R185). -/

namespace Sys2Proof.Machine

/-! ### The record -/

/-- Where nothing meets the record in its bank, it reads as memory holds it (R218, R221). -/
theorem recordRead_of_noClash {s : State} {t : Tile} {a c : Nat} (h : NoClash (t.foreseen.readsAt c) a 32) :
    recordRead s t a c = leWords 8 ((t.asRead c).readMem a 32) := by
  have hp : (t.asRead c).portRead (t.foreseen.readsAt c) c s.free a 32 = (t.asRead c).readMem a 32 :=
    List.map_congr_left fun i hi => by rw [h i (List.mem_range.mp hi)]; rfl
  rw [recordRead, hp]

/-- A good record names a kind, which is its request's (R175). -/
theorem mkRequest_kind {ws : List Word} (h : recordBad ws = false) (s : State) (t : Tile) (c : Nat) :
    kindOfCode (fld (wordAt ws 0) 0 4) = some (mkRequest s t ws c).kind := by
  unfold recordBad at h
  unfold mkRequest
  split at h
  · contradiction
  next k hk => simp [hk]

/-- A kind that can lapse takes its NOLAPSE from the record; a LOANWAIT also from its loan (R175, R293). -/
theorem mkRequest_nolapse {s : State} {t : Tile} {ws : List Word} {c : Nat} {k : ReqKind} (hk : (mkRequest s t ws c).kind = k)
    (hc : k.canLapse = true) (hw : k ≠ .loanwait) : (mkRequest s t ws c).nolapse = bit (wordAt ws 0) 7 := by
  unfold mkRequest at *
  dsimp only at *
  rw [hk, hc, beq_eq_false_iff_ne.mpr hw]
  simp

/-- Only an on-demand LOAN without a deadline takes its card's class (R294). -/
theorem mkRequest_deadline {s : State} {t : Tile} {ws : List Word} {c : Nat}
    (h : (mkRequest s t ws c).kind ≠ .loan ∨ fld (wordAt ws 3) 0 24 ≠ 0) : (mkRequest s t ws c).deadline = fld (wordAt ws 3) 0 24 := by
  unfold mkRequest at *
  dsimp only at *
  exact if_neg fun ⟨hk, hd⟩ => h.elim (· hk) (· hd)

/-! ### The bundle -/

@[simp] theorem closeBundle_queues (t : Tile) : t.closeBundle.queues = t.queues := by
  unfold Tile.closeBundle
  split <;> rfl

theorem closeBundle_next {t : Tile} (h : t.stall = .none) : t.closeBundle = t.next := by
  unfold Tile.closeBundle
  split
  · rfl
  next hj => rw [h] at hj; cases hj
  next hn _ => exact absurd h hn

/-- Giving back what a bundle had begun leaves the queues. -/
theorem unissued_ifault_queues (t : Tile) (w : Word) : ({ t.unissued with ifault := w } : Tile).queues = t.queues := rfl

/-- A good bundle that stalls goes on holding what it has to issue. -/
theorem unissued_stalled {t : Tile} (h : t.bundle.fault = none) (st : Stall) :
    ({ t.unissued with stall := st, bundle := { t.unissued.bundle with fault := none } } : Tile) =
      { t.unissued with stall := st, bundle := { t.bundle with undo := none } } := by
  rw [← h]
  rfl

@[simp] theorem issueState_dev (s : State) (x : Site) : (issueState s x).dev = s.dev := by simp [issueState]

theorem onTile_rgs (s : State) (x : Site) (f : Tile → Tile) : (s.onTile x f).rgs = s.rgs := rfl
theorem onTile_dev (s : State) (x : Site) (f : Tile → Tile) : (s.onTile x f).dev = s.dev := rfl

theorem Issues.bundle {s : State} {x : Site} (h : Issues s x) : (issueTile s x).bundle.fault = none := by
  rw [issueTile_bundle]
  exact h.2

/-- A control slot with a code of its own, in a good bundle: the code is recorded, and the queues stay as they are (R185). -/
theorem closeSlot_code {s : State} {x : Site} {k : Nat} {code : State → Tile → Option Nat} {effect : State → Tile → State}
    (h : Issues s x) (hc : code (issueState s x) (issueTile s x) = some k) :
    (closeSlot s x code effect).dev = .faulted ∧ ((closeSlot s x code effect).tile x).queues = (issueTile s x).queues ∧
      ∃ f, (closeSlot s x code effect).rgs.fault = some f ∧ f.reason = 1 ∧ f.detail = k ∧ f.site = x := by
  have hl : lowerCode (code (issueState s x) (issueTile s x)) (issueTile s x).bundle.fault = some k := by rw [hc, h.bundle]; rfl
  have hr : ((issueState s x).setTile x { (issueTile s x).unissued with ifault := ifaultWord k (issueTile s x).pc }).dev = .run := by
    rw [setTile_dev, issueState_dev, canIssue_run h.1]
  rw [closeSlot_fault h.1 hl, issueFault, issueState_tile]
  obtain ⟨hdev, hfault⟩ := raiseFault_run hr 1 k x
  refine ⟨hdev, ?_, hfault⟩
  rw [onTile_tile, closeBundle_queues, raiseFault_tile, setTile_tile, unissued_ifault_queues]

/-! ### QREQ retires -/

/-- The words that the retiring QREQ reads as its record. -/
def recordIn (v : State) (x : Site) (a : Nat) : List Word := recordRead (issueState v x) (issueTile v x) a (issueTile v x).now

/-- The request that they make. -/
def requestIn (v : State) (x : Site) (a : Nat) : Request :=
  mkRequest (issueState v x) (issueTile v x) (recordIn v x a) (issueTile v x).now

/-- The bundle of tile `x` issues in v, and its QREQ takes the request of the record at `a` to queue q: v is the state that holds the
bundle, and s the one in which the command came. -/
structure Retires (i : Instr) (s v : State) (x : Site) (q a : Nat) : Prop where
  issues : Issues v x
  tiles : ∀ y, y ≠ x → v.tile y = s.tile y
  closes : ∃ code effect, exec i s = .next (closeSlot v x code effect) ∧
    code (issueState v x) (issueTile v x) = (if recordBad (recordIn v x a) then some 0x12 else none) ∧
    effect (issueState v x) (issueTile v x) = placeRequest (issueState v x) x q a (issueTile v x).now

theorem requestAt_issue (v : State) (x : Site) (a : Nat) : requestAt (issueState v x) x a (issueTile v x).now = requestIn v x a := by
  rw [requestAt, issueState_tile]
  rfl

/-- A bad record is issue fault 0x12 (R175, R185). -/
theorem Retires.bad {i : Instr} {s v : State} {x : Site} {q a : Nat} (h : Retires i s v x q a) (hb : recordBad (recordIn v x a) = true) :
    ∃ t, exec i s = .next t ∧ t.dev = .faulted ∧ (t.tile x).queues = (issueTile v x).queues ∧
      ∃ f, t.rgs.fault = some f ∧ f.reason = 1 ∧ f.detail = 0x12 ∧ f.site = x := by
  obtain ⟨code, effect, he, hc, -⟩ := h.closes
  exact ⟨_, he, closeSlot_code h.issues (hc.trans (if_pos hb))⟩

/-- With a good record the bundle closes once the request is placed. -/
theorem Retires.good {i : Instr} {s v : State} {x : Site} {q a : Nat} (h : Retires i s v x q a) (hb : recordBad (recordIn v x a) = false) :
    exec i s = .next ((placeRequest (issueState v x) x q a (issueTile v x).now).onTile x Tile.closeBundle) := by
  obtain ⟨code, effect, he, hc, hp⟩ := h.closes
  rw [he, closeSlot_close h.issues.1 h.issues.bundle (hc.trans (if_neg (by simp [hb]))), hp]

/-- A request that its kind does not allow faults the job in the cycle it retires, and takes no slot (R293 to R296, R323, R326). -/
theorem Retires.refused {i : Instr} {s v : State} {x : Site} {q a reason detail : Nat} (h : Retires i s v x q a)
    (hb : recordBad (recordIn v x a) = false) (hf : retireFault (issueState v x) x (requestIn v x a) = some (reason, detail)) :
    ∃ t, exec i s = .next t ∧ t.dev = .faulted ∧ (t.tile x).queues = (issueTile v x).queues ∧
      ∃ f, t.rgs.fault = some f ∧ f.reason = reason ∧ f.detail = detail ∧ f.site = x := by
  have hr : (issueState v x).dev = .run := (issueState_dev v x).trans (canIssue_run h.issues.1)
  refine ⟨_, h.good hb, ?_⟩
  rw [← requestAt_issue] at hf
  obtain ⟨hdev, hfault⟩ := raiseFault_run hr reason detail x
  rw [placeRequest_fault hf]
  refine ⟨hdev, ?_, hfault⟩
  rw [onTile_tile, closeBundle_queues, raiseFault_tile, issueState_tile]

/-- A request that takes a slot leaves the issue of bundles, memory and registers as they were. -/
theorem SameButRequest.kept {t u : Tile} (h : SameButRequest t u) : u.stall = t.stall ∧ u.now = t.now ∧ u.pc = t.pc ∧ u.mem = t.mem ∧
    u.sregs = t.sregs ∧ u.aregs = t.aregs ∧ u.vregs = t.vregs := by
  rw [h]
  exact ⟨rfl, rfl, rfl, rfl, rfl, rfl, rfl⟩

/-- Any other request takes the slot at the end of its queue; the next bundle issues a cycle later (R29, R41, R174). -/
theorem Retires.places {i : Instr} {s v : State} {x : Site} {q a : Nat} (h : Retires i s v x q a)
    (hb : recordBad (recordIn v x a) = false) (hf : retireFault (issueState v x) x (requestIn v x a) = none)
    (hid : ∀ o ∈ (issueTile v x).queue q, o.id ≠ (issueTile v x).nextReq) :
    ∃ t p u, exec i s = .next t ∧ t.tile x = u.next ∧ ((requestIn v x a).kind ≠ .loanwait → p = none) ∧
      u.queue q = (issueTile v x).queue q ++ [{ requestIn v x a with posted := p }] ∧
      (∀ j, j ≠ q → u.queue j = (issueTile v x).queue j) ∧ u.nextReq = (issueTile v x).nextReq + 1 ∧
      SameButRequest (issueTile v x) u ∧ ∀ y, y ≠ x → t.tile y = s.tile y := by
  rw [← requestAt_issue] at hf
  rw [← issueState_tile] at hid
  obtain ⟨p, hp, hq, ho, hn, hs, ht⟩ := placeRequest_places hf hid
  rw [requestAt_issue] at hp hq
  rw [issueState_tile] at hq ho hn hs
  refine ⟨_, p, _, h.good hb, ?_, hp, hq, ho, hn, hs, fun y hy => ?_⟩
  · obtain ⟨hstall, -⟩ := hs.kept
    rw [onTile_tile, closeBundle_next (hstall.trans (issueTile_stall h.issues.1))]
  · rw [onTile_tile_ne _ _ hy, ht y hy, (issueState_onlyTile v x).2 y hy, h.tiles y hy]

theorem tileMemSame_of_mem {t u : Tile} (h : u.mem = t.mem) : TileMemSame t u := fun a => by rw [Tile.byteAt, h, Tile.byteAt]

/-! ### QREQ and QREQ_RETIRE -/

theorem qreqCode_stalled (s : State) (t : Tile) (c : Nat) {w : BitVec 26} (hz : fld w 0 18 = 0) (hf : 8 ≤ (t.queue (fld w 22 4)).length) :
    qreqCode s t c w = none := by
  have hlt : ¬ (t.queue (fld w 22 4)).length < queueSlots := Nat.not_lt.mpr hf
  simp [qreqCode, firstCode, hz, hlt]

theorem qreqCode_retires (s : State) (t : Tile) (c : Nat) {w : BitVec 26} (hz : fld w 0 18 = 0) (hf : (t.queue (fld w 22 4)).length < 8) :
    qreqCode s t c w = if recordBad (recordRead s t (recordAddr t w) c) then some 0x12 else none := by
  have hlt : (t.queue (fld w 22 4)).length < queueSlots := hf
  simp [qreqCode, firstCode, hz, hlt]

/-- A full queue holds the bundle: its other slots give back what they had begun (R164). -/
theorem qreq_stalls {s : State} {x : Site} {w : BitVec 26} (h : Issues s x) (hz : fld w 0 18 = 0)
    (hf : 8 ≤ ((issueTile s x).queue (fld w 22 4)).length) :
    IssuesAs (.qreq x w) x s { (issueTile s x).unissued with
      stall := .qreq (fld w 22 4) (recordAddr (issueTile s x) w), bundle := { (issueTile s x).bundle with undo := none } } := by
  have hlt : ¬ ((issueTile s x).queue (fld w 22 4)).length < queueSlots := Nat.not_lt.mpr hf
  refine ⟨_, ?_, (setTile_tile _ _ _).trans (unissued_stalled h.bundle _), (issueState_onlyTile s x).setTile _⟩
  change execQreq x w s = _
  rw [execQreq, closeOrStall_stall (code := fun u t => qreqCode u t t.now w) h.1 (if_neg hlt)
    (qreqCode_stalled (issueState s x) (issueTile s x) (issueTile s x).now hz hf)]

/-- With a slot free, QREQ retires in its issue cycle (R174). -/
theorem qreq_retires {s : State} {x : Site} {w : BitVec 26} (h : Issues s x) (hz : fld w 0 18 = 0)
    (hf : ((issueTile s x).queue (fld w 22 4)).length < 8) :
    Retires (.qreq x w) s s x (fld w 22 4) (recordAddr (issueTile s x) w) := by
  refine ⟨h, fun _ _ => rfl, fun u t => qreqCode u t t.now w,
    fun u t => placeRequest u x (fld w 22 4) (recordAddr t w) t.now, ?_, qreqCode_retires _ _ _ hz hf, rfl⟩
  change execQreq x w s = _
  rw [execQreq, closeOrStall_close (if_pos hf)]

/-- The state in which a stalled bundle issues, with the slots that have waited (R164). -/
def retiring (s : State) (x : Site) : State := issueWaiting (s.onTile x (·.retireIn (Nat.max (s.tile x).now s.cycle))) x

/-- A stalled QREQ retires once its queue has a slot free (R164, R174). -/
theorem qreqRetire_retires {s : State} {x : Site} {q a : Nat} (hr : s.dev = .run) (hs : (s.tile x).stall = .qreq q a)
    (hf : ((s.tile x).queue q).length < 8) (h : Issues (retiring s x) x) (ht : ∀ y, y ≠ x → (retiring s x).tile y = s.tile y) :
    Retires (.qreqRetire x) s (retiring s x) x q a := by
  have hgo : (s.dev == .run && decide (((s.tile x).queue q).length < queueSlots)) = true := by simp [hr, queueSlots, hf]
  refine ⟨h, ht, fun u t => firstCode [(recordBad (recordRead u t a t.now), 0x12)], fun u t => placeRequest u x q a t.now, ?_, rfl, rfl⟩
  change execQreqRetire x s = _
  simp only [execQreqRetire, hs]
  exact congrArg _ (if_pos hgo)

/-- A bundle of which no other slot is filled issues in the cycle in which its queue instruction retires. -/
theorem retiring_now {s : State} {x : Site} (hm : (s.tile x).bundle.matrix = none) (hv : (s.tile x).bundle.vector = none) :
    (issueTile (retiring s x) x).now = Nat.max (s.tile x).now s.cycle := by
  simp [retiring, issueWaiting, Tile.retireIn, hm, hv]

/-- Settles O9: `qreq_stalls` for a full queue; where the request retires, at once or later, `Retires.bad`, `Retires.refused` and
`Retires.places`. -/
theorem qreqPlacesRequest : Obligations.QreqPlacesRequest := by
  unfold Obligations.QreqPlacesRequest
  intro placed
  have key {i : Instr} {s v : State} {x : Site} {q a : Nat} (h : Retires i s v x q a) :
      placed i s (issueState v x) x (issueTile v x) q a := by
    refine ⟨recordRead_of_noClash, h.bad, fun hb reason detail hf => h.refused hb hf, fun hb hf hid => ?_⟩
    obtain ⟨t, p, u, he, htx, hp, hq, ho, hn, hs, hy⟩ := h.places hb hf hid
    obtain ⟨hstall, hnow, hpc, hmem, hsregs, haregs, hvregs⟩ := hs.kept
    have hqs (j : Nat) : (t.tile x).queue j = u.queue j := queue_congr (by rw [htx]; rfl) j
    refine ⟨t, { requestIn v x a with posted := p }, he, (hqs q).trans hq,
      mkRequest_kind hb (issueState v x) (issueTile v x) (issueTile v x).now, rfl, rfl, rfl, rfl, rfl, rfl, rfl,
      mkRequest_deadline (t := issueTile v x) (c := (issueTile v x).now), fun hk => ?_, rfl, rfl, rfl, rfl, rfl, hp,
      fun j hj => (hqs j).trans (ho j hj), ?_, ?_, ?_, ?_, ?_, ?_, ?_, ?_, hy⟩
    · rcases hk with hk | hk | hk | hk | hk <;>
        exact mkRequest_nolapse (t := issueTile v x) (c := (issueTile v x).now) hk rfl (by decide)
    all_goals rw [htx]
    · exact hn
    · exact hstall.trans (issueTile_stall h.issues.1)
    · exact congrArg (· + 1) hnow
    · exact congrArg (fun c => (c + 16) % 2 ^ 21) hpc
    · exact tileMemSame_of_mem hmem
    · exact hsregs
    · exact haregs
    · exact hvregs
  refine ⟨fun s x w hi hz => ⟨qreq_stalls hi hz, fun hf => key (qreq_retires hi hz hf)⟩, fun s x q a hr hs hf hi ht => ?_⟩
  exact ⟨retiring_now, key (qreqRetire_retires hr hs hf hi ht)⟩

end Sys2Proof.Machine
end

section
/-! PROOFS. FENCE and GROUP_UNGATE: what is common to both: tiles that change alike, memory that is kept in part, and the job's fault. -/

namespace Sys2Proof.Machine

/-! ### Tiles that change alike -/

/-- A change that, done twice, is the same as done once: a site may then stand in the list more than once. -/
theorem foldl_onTile_idem {f : Tile → Tile} (hf : ∀ t, f (f t) = f t) (l : List Site) : ∀ s : State,
    (∀ x ∈ l, (l.foldl (fun s x => s.onTile x f) s).tile x = f (s.tile x)) ∧
      (∀ x, x ∉ l → (l.foldl (fun s x => s.onTile x f) s).tile x = s.tile x) := by
  induction l with
  | nil => exact fun s => ⟨by simp, fun _ _ => rfl⟩
  | cons y l ih =>
    intro s
    obtain ⟨hin, hout⟩ := ih (s.onTile y f)
    rw [List.foldl_cons]
    refine ⟨fun x hx => ?_, fun x hx => ?_⟩
    · by_cases hxl : x ∈ l <;> by_cases hxy : x = y
      · subst hxy; rw [hin x hxl, onTile_tile, hf]
      · rw [hin x hxl, onTile_tile_ne _ _ hxy]
      · subst hxy; rw [hout x hxl, onTile_tile]
      · exact absurd hx (by simp [hxl, hxy])
    · obtain ⟨hxy, hxl⟩ := List.ne_and_not_mem_of_not_mem_cons hx
      rw [hout x hxl, onTile_tile_ne _ _ hxy]

/-! ### Memory that is kept in part -/

theorem SMap.find_filter_key {α : Type} (f : Nat → Bool) (k : Nat) (m : SMap α) :
    SMap.find (m.filter fun p => f p.1) k = if f k then SMap.find m k else none := by
  induction m with
  | nil => simp [SMap.find]
  | cons p m ih =>
    obtain ⟨j, v⟩ := p
    by_cases hj : j = k
    · subst hj
      by_cases hf : f j = true <;> simp [hf, ih, SMap.find]
    · by_cases hf : f j = true <;> simp [hf, ih, SMap.find, hj]

/-- Whether a byte lies in one of the ranges. -/
def InRanges (rs : List (Nat × Nat)) (a : Nat) : Prop := ∃ r ∈ rs, r.1 ≤ a ∧ a < r.2

/-- Inside the ranges memory is kept, outside them it reads 0 (R227, R241). -/
theorem keepRanges_byte (m : Memory) (rs : List (Nat × Nat)) (a : Nat) :
    (InRanges rs a → (keepRanges m rs).byte a = m.byte a) ∧ (¬ InRanges rs a → (keepRanges m rs).byte a = 0) := by
  have hkeep : (rs.any fun r => decide (r.1 ≤ a) && decide (a < r.2)) = true ↔ InRanges rs a := by simp [InRanges]
  have hfind := SMap.find_filter_key (fun k => rs.any fun r => decide (r.1 ≤ k) && decide (k < r.2)) a m
  constructor
  · intro h
    rw [if_pos (hkeep.mpr h)] at hfind
    exact congrArg (Option.getD · 0) hfind
  · intro h
    rw [if_neg (mt hkeep.mp h)] at hfind
    exact congrArg (Option.getD · 0) hfind

/-! ### The job's fault -/

/-- A fault changes nothing but the device's state and the Registrar's record (R391, R393). -/
theorem raiseFault_frame (s : State) (reason detail site : Nat) : raiseFault s reason detail site =
    { s with dev := (raiseFault s reason detail site).dev, rgs := (raiseFault s reason detail site).rgs } := by
  unfold raiseFault
  split
  · split <;> rfl
  all_goals rfl

/-- A job that is in ARMED, RUN or DRAIN faults (R391). -/
theorem raiseFault_ofJob {s : State} (h : s.dev = .armed ∨ s.dev = .run ∨ s.dev = .drain) (reason detail site : Nat) :
    (raiseFault s reason detail site).dev = .faulted ∧
      ∃ f, (raiseFault s reason detail site).rgs.fault = some f ∧ f.reason = reason ∧ f.site = site := by
  rcases h with h | h | h <;> simp [raiseFault, h]

end Sys2Proof.Machine
end

section
/-! PROOFS. FENCE: what the tile held is discarded and counted (R264), the residencies in its group end (R242), and the job that uses it
learns of it (R52). -/

namespace Sys2Proof.Machine

/-! ### The tile that is fenced -/

@[simp] theorem powerDown_pwr (t : Tile) (p : Power) : (t.powerDown p).pwr = p := rfl
@[simp] theorem powerDown_queues (t : Tile) (p : Power) : (t.powerDown p).queues = [] := rfl
@[simp] theorem powerDown_arrivals (t : Tile) (p : Power) : (t.powerDown p).arrivals = [] := rfl
@[simp] theorem powerDown_transit (t : Tile) (p : Power) : (t.powerDown p).transit = [] := rfl
@[simp] theorem powerDown_byteAt (t : Tile) (p : Power) (a : Nat) : (t.powerDown p).byteAt a = 0 := ite_self 0

/-- From s to t, n flits are discarded and counted; what else they leave is in registers and in the host interface (R264, R266). -/
structure Discards (n : Nat) (s t : State) : Prop where
  frame : t = { s with regs := t.regs, host := t.host }
  count : regFld t rXNW_FDROP 0 32 = min (regFld s rXNW_FDROP 0 32 + n) (2 ^ 32 - 1)

theorem Discards.zero (s : State) : Discards 0 s s := by
  refine ⟨rfl, (Nat.min_eq_left ?_).symm⟩
  have : regFld s rXNW_FDROP 0 32 < 2 ^ 32 := Nat.mod_lt _ (by decide)
  omega

theorem Discards.trans {m n : Nat} {s t u : State} (h : Discards m s t) (g : Discards n t u) : Discards (m + n) s u := by
  refine ⟨by rw [g.frame, h.frame], ?_⟩
  rw [g.count, h.count]
  omega

theorem Discards.tile {n : Nat} {s t : State} (h : Discards n s t) (y : Site) : t.tile y = s.tile y :=
  tile_congr (by rw [h.frame]) y

/-- Recording a discarded flit and signalling it count nothing. -/
theorem Discards.record {n : Nat} {s t : State} (h : Discards n s t) (w : Word) :
    Discards n s (setIstat (setReg t rXNW_FFIRST w) (Block.xnw.page 0) 1) := by
  refine ⟨(setIstat_frame _ _ _).trans ?_, ?_⟩
  · simp only [setReg]
    rw [h.frame]
  · rw [regFld, regRaw_setIstat_ne _ _ _ (by decide), setReg_regRaw_ne _ _ (by decide)]
    exact h.count

/-- Every flit that a fenced tile discards is counted, and the first is recorded. -/
theorem fencedFlit_discards (s : State) (node : Site) (vc plane src : Nat) : Discards 1 s (fencedFlit s node vc plane src) := by
  have hcounted : Discards 1 s (satAdd s rXNW_FDROP 0 32 1) := ⟨rfl, regFld_satAdd s _ 1 (by decide)⟩
  unfold fencedFlit
  dsimp only
  split
  · exact hcounted
  · exact hcounted.record _

/-- Flits discarded one after another are counted together. -/
theorem Discards.foldl {α : Type} {f : State → α → State} (h : ∀ s a, Discards 1 s (f s a)) (l : List α) : ∀ s : State,
    Discards l.length s (l.foldl f s) := by
  induction l with
  | nil => exact Discards.zero
  | cons a l ih =>
    intro s
    rw [List.length_cons, Nat.add_comm]
    exact (h s a).trans (ih _)

/-- The flits of a tile that a fence discards at once: those of its arrival buffer, and the run-time granules on their way to it, four to a
flit (R264; log entry 9). -/
def Tile.flitsLost (t : Tile) : Nat := t.arrivals.length + (t.transit.length + 3) / 4

/-- The fence of a tile: it is powered down, and then its flits are discarded. -/
theorem isolate_discards (s : State) (x : Site) :
    Discards (s.tile x).flitsLost (s.setTile x ((s.tile x).powerDown .fenced)) (isolate s x) := by
  have hbuffer := Discards.foldl (f := fun u f => fencedDrop u x f) (fun u f => fencedFlit_discards u x f.vc f.plane f.src)
    ((s.tile x).arrivals.map fun a => a.flit) (s.setTile x ((s.tile x).powerDown .fenced))
  have htransit (u : State) := Discards.foldl (f := fun u _ => fencedFlit u x 11 1 (edgeSite x))
    (fun u _ => fencedFlit_discards u x 11 1 (edgeSite x)) (List.range (((s.tile x).transit.length + 3) / 4)) u
  simp only [List.length_map, List.length_range] at hbuffer htransit
  exact hbuffer.trans (htransit _)

theorem isolate_frame (s : State) (x : Site) : isolate s x =
    { s with tiles := (isolate s x).tiles, regs := (isolate s x).regs, host := (isolate s x).host } := by
  rw [(isolate_discards s x).frame]
  rfl

theorem isolate_tile (s : State) (x : Site) : (isolate s x).tile x = (s.tile x).powerDown .fenced := by
  rw [(isolate_discards s x).tile, setTile_tile]

theorem isolate_tile_ne (s : State) {x y : Site} (h : y ≠ x) : (isolate s x).tile y = s.tile y := by
  rw [(isolate_discards s x).tile, setTile_tile_ne _ _ h]

/-! ### Retention that ends -/

/-- A tile whose retention ends: one in RETAIN goes to OFF, any other stays as it is (R242). -/
def Tile.endRetention (t : Tile) : Tile := if t.pwr = .retain then t.powerDown .off else t

theorem endRetention_idem (t : Tile) : t.endRetention.endRetention = t.endRetention := by
  by_cases h : t.pwr = .retain <;> simp [Tile.endRetention, h]

theorem endRetention_not_retain (t : Tile) : t.endRetention.pwr ≠ .retain := by
  by_cases h : t.pwr = .retain <;> simp [Tile.endRetention, h]

theorem endRetention_cases (t : Tile) : t.endRetention = t ∨ (t.pwr = .retain ∧ t.endRetention.pwr = .off) := by
  by_cases h : t.pwr = .retain <;> simp [Tile.endRetention, h]

/-- Retention ends in one device group. -/
theorem offGroup_tile (s : State) (g : Nat) (y : Site) :
    (offGroup s g).tile y = if y ∈ groupSites s.fuse g then (s.tile y).endRetention else s.tile y := by
  obtain ⟨hin, hout⟩ := foldl_onTile_idem endRetention_idem (groupSites s.fuse g) s
  split
  next h => exact hin y h
  next h => exact hout y h

theorem offGroup_frame (s : State) (g : Nat) : offGroup s g = { s with tiles := (offGroup s g).tiles } :=
  foldl_onTile_frame _ _ s

theorem offGroups_frame (gs : List Nat) : ∀ s : State, gs.foldl offGroup s = { s with tiles := (gs.foldl offGroup s).tiles } := by
  induction gs with
  | nil => exact fun _ => rfl
  | cons g gs ih =>
    intro s
    rw [List.foldl_cons, ih, offGroup_frame]

/-- Retention ends in several device groups. -/
theorem offGroups_tile (gs : List Nat) (y : Site) : ∀ s : State,
    (gs.foldl offGroup s).tile y = if ∃ g ∈ gs, y ∈ groupSites s.fuse g then (s.tile y).endRetention else s.tile y := by
  induction gs with
  | nil => intro s; simp
  | cons g gs ih =>
    intro s
    have hfuse : (offGroup s g).fuse = s.fuse := by rw [offGroup_frame]
    rw [List.foldl_cons, ih, offGroup_tile, hfuse]
    by_cases hg : y ∈ groupSites s.fuse g <;> simp [hg, endRetention_idem]

theorem dropResidents_frame (s : State) (p : Resid → Bool) : dropResidents s p =
    { s with rgs := { s.rgs with resid := (dropResidents s p).rgs.resid }, tiles := (dropResidents s p).tiles } := by
  unfold dropResidents
  dsimp only
  rw [offGroups_frame]

/-- Retention ends at exactly the tiles of the groups in which a picked residency has data (R242). -/
theorem dropResidents_tile (s : State) (p : Resid → Bool) (y : Site) : (dropResidents s p).tile y =
    if ∃ r ∈ s.rgs.resid, p r = true ∧ ∃ q ∈ r.groups, y ∈ groupSites s.fuse q.2 then (s.tile y).endRetention else s.tile y := by
  unfold dropResidents
  dsimp only
  rw [offGroups_tile]
  refine if_congr ?_ rfl rfl
  simp only [List.mem_eraseDups, List.mem_flatMap, List.mem_filter, List.mem_map]
  constructor
  · rintro ⟨_, ⟨r, ⟨hr, hp⟩, q, hq, rfl⟩, hy⟩
    exact ⟨r, hr, hp, q, hq, hy⟩
  · rintro ⟨r, hr, hp, q, hq, hy⟩
    exact ⟨q.2, ⟨r, ⟨hr, hp⟩, q, hq, rfl⟩, hy⟩

theorem dropResidents_tile_cases (s : State) (p : Resid → Bool) (y : Site) :
    (dropResidents s p).tile y = s.tile y ∨ ((s.tile y).pwr = .retain ∧ ((dropResidents s p).tile y).pwr = .off) := by
  rw [dropResidents_tile]
  split
  · exact endRetention_cases _
  · exact .inl rfl

/-! ### The fence -/

/-- The device once the tile, which is logical tile n, is fenced and the residencies in its group have ended. -/
def tileFenced (s : State) (x n : Nat) : State := dropResidents (isolate s x) fun r => r.groups.any fun q => q.2 == groupOf n

/-- What the job learns of the fence, in the state u that it leaves: it faults, or remembers it until ungating ends (R52). -/
def fenceReported (s u : State) (x : Site) : State :=
  if inJob s x = false then u
  else if s.dev = .armed ∧ s.rgs.arm ≠ .done then { u with rgs := { u.rgs with fenceArm := some (min x (s.rgs.fenceArm.getD x)) } }
  else raiseFault u 0x15 0 x

theorem exec_fence {s : State} {x n : Nat} (hl : logicalAt s.fuse x = some n) (hp : (s.tile x).pwr ≠ .fenced) :
    exec (.fence x) s = .next (fenceReported s (tileFenced s x n) x) := by
  change execFence x s = _
  simp only [execFence, hl, if_neg hp, Bool.not_eq_true']
  rfl

/-- The report changes nothing but the device's state and the Registrar's record. -/
theorem fenceReported_frame (s u : State) (x : Site) : fenceReported s u x =
    { u with dev := (fenceReported s u x).dev, rgs := (fenceReported s u x).rgs } := by
  unfold fenceReported
  split
  · rfl
  · split
    · rfl
    · exact raiseFault_frame _ _ _ _

theorem fenceReported_tile (s u : State) (x y : Site) : (fenceReported s u x).tile y = u.tile y :=
  tile_congr (by rw [fenceReported_frame]) y

theorem tileFenced_frame (s : State) (x n : Nat) : tileFenced s x n =
    { s with tiles := (tileFenced s x n).tiles, regs := (isolate s x).regs, host := (isolate s x).host,
             rgs := { s.rgs with resid := (tileFenced s x n).rgs.resid } } := by
  unfold tileFenced
  rw [dropResidents_frame, isolate_frame]

@[simp] theorem tileFenced_dev (s : State) (x n : Nat) : (tileFenced s x n).dev = s.dev := by rw [tileFenced_frame]

theorem tileFenced_tile (s : State) (x n : Nat) : (tileFenced s x n).tile x = (s.tile x).powerDown .fenced := by
  rw [← isolate_tile]
  refine (dropResidents_tile_cases (isolate s x) _ x).resolve_right fun h => ?_
  rw [isolate_tile] at h
  exact absurd h.1 (by simp)

theorem tileFenced_tile_ne (s : State) {x y : Site} (n : Nat) (h : y ≠ x) :
    (tileFenced s x n).tile y = s.tile y ∨ ((s.tile y).pwr = .retain ∧ ((tileFenced s x n).tile y).pwr = .off) := by
  rw [← isolate_tile_ne s h]
  exact dropResidents_tile_cases _ _ y

/-- No tile of a residency with data in the fenced tile's group retains it (R242). -/
theorem tileFenced_not_retain {s : State} {x n : Nat} {r : Resid} (hr : r ∈ s.rgs.resid) (hg : ∃ q ∈ r.groups, q.2 = groupOf n)
    {q : Nat × Nat} (hq : q ∈ r.groups) {y : Site} (hy : y ∈ groupSites s.fuse q.2) : ((tileFenced s x n).tile y).pwr ≠ .retain := by
  have hrgs : (isolate s x).rgs = s.rgs := by rw [isolate_frame]
  have hfuse : (isolate s x).fuse = s.fuse := by rw [isolate_frame]
  rw [tileFenced, dropResidents_tile, hrgs, hfuse, if_pos]
  · exact endRetention_not_retain _
  · exact ⟨r, hr, by simpa using hg, q, hq, hy⟩

theorem tileFenced_fdrop (s : State) (x n : Nat) : regFld (tileFenced s x n) rXNW_FDROP 0 32 =
    min (regFld s rXNW_FDROP 0 32 + (s.tile x).flitsLost) (2 ^ 32 - 1) := by
  have h : (tileFenced s x n).regs = (isolate s x).regs := by rw [tileFenced_frame]
  rw [regFld, regRaw, h]
  exact (isolate_discards s x).count

/-- A job in RUN or DRAIN that uses the tile faults with reason FENCE. -/
theorem fenceReported_fault {s u : State} {x : Site} (hj : inJob s x = true) (hd : s.dev = .run ∨ s.dev = .drain) (hu : u.dev = s.dev) :
    (fenceReported s u x).dev = .faulted ∧
      ∃ f, (fenceReported s u x).rgs.fault = some f ∧ f.reason = 0x15 ∧ f.site = x := by
  have harmed : ¬ (s.dev = .armed ∧ s.rgs.arm ≠ .done) := by rcases hd with h | h <;> simp [h]
  rw [fenceReported, if_neg (by simp [hj]), if_neg harmed]
  exact raiseFault_ofJob (.inr (hu ▸ hd)) 0x15 0 x

end Sys2Proof.Machine
end

section
/-! PROOFS. GROUP_UNGATE: the tiles of a group become ACTIVE (R51, R227, R241), and ungating ends with the last group (R52); with FENCE this
settles O23. -/

namespace Sys2Proof.Machine

/-! ### A tile that is ungated -/

/-- A tile at its group's ungating: up already, or fenced, it stays as it is. -/
def Tile.raised (rs : List (Nat × Nat)) (t : Tile) : Tile := if t.pwr = .fenced ∨ t.pwr = .active then t else t.ungate rs

theorem raised_of_up {rs : List (Nat × Nat)} {t : Tile} (h : t.pwr = .fenced ∨ t.pwr = .active) : t.raised rs = t := if_pos h

theorem raised_of_down {rs : List (Nat × Nat)} {t : Tile} (hf : t.pwr ≠ .fenced) (ha : t.pwr ≠ .active) : t.raised rs = t.ungate rs :=
  if_neg (not_or.mpr ⟨hf, ha⟩)

theorem raised_up (rs : List (Nat × Nat)) (t : Tile) : (t.raised rs).pwr = .fenced ∨ (t.raised rs).pwr = .active := by
  by_cases h : t.pwr = .fenced ∨ t.pwr = .active
  · rwa [raised_of_up h]
  · rw [Tile.raised, if_neg h]
    exact .inr rfl

theorem raised_idem (rs : List (Nat × Nat)) (t : Tile) : (t.raised rs).raised rs = t.raised rs := raised_of_up (raised_up rs t)

/-- Outside the ranges an ungated tile holds zeros (R227). -/
theorem ungate_byteAt_outside (t : Tile) {rs : List (Nat × Nat)} {a : Nat} (ha : a < 2 ^ 21) (h : ¬ InRanges rs a) :
    (t.ungate rs).byteAt a = 0 := by
  have hmem : (t.ungate rs).mem.byte a = 0 := by
    by_cases hr : t.pwr = .retain
    · simp [Tile.ungate, hr, (keepRanges_byte t.mem rs a).2 h]
    · simp [Tile.ungate, hr, Memory.byte]
  rw [Tile.byteAt, Nat.mod_eq_of_lt ha, hmem, ite_self]

/-- Inside the ranges it holds what it retained (R241). -/
theorem ungate_byteAt_inside {t : Tile} {rs : List (Nat × Nat)} {a : Nat} (ha : a < 2 ^ 21) (h : InRanges rs a) (hr : t.pwr = .retain) :
    (t.ungate rs).byteAt a = t.byteAt a := by
  have hmem : (t.ungate rs).mem.byte a = t.mem.byte a := by simp [Tile.ungate, hr, (keepRanges_byte t.mem rs a).1 h]
  rw [Tile.byteAt, Tile.byteAt, Nat.mod_eq_of_lt ha, hmem]

/-! ### The group -/

theorem groupUp_iff (s : State) (g : Nat) :
    groupUp s g = true ↔ ∀ x ∈ groupSites s.fuse g, (s.tile x).pwr = .fenced ∨ (s.tile x).pwr = .active := by
  simp [groupUp, or_comm]

/-- The tiles of a list of sites at their group's ungating. -/
def raiseTiles (rs : List (Nat × Nat)) (l : List Site) (u : State) : State := l.foldl (fun s x => s.onTile x (Tile.raised rs)) u

theorem raiseTiles_frame (rs : List (Nat × Nat)) (l : List Site) (u : State) :
    raiseTiles rs l u = { u with tiles := (raiseTiles rs l u).tiles } := foldl_onTile_frame _ _ u

@[simp] theorem raiseTiles_dev (rs : List (Nat × Nat)) (l : List Site) (u : State) : (raiseTiles rs l u).dev = u.dev := by
  rw [raiseTiles_frame]
@[simp] theorem raiseTiles_fuse (rs : List (Nat × Nat)) (l : List Site) (u : State) : (raiseTiles rs l u).fuse = u.fuse := by
  rw [raiseTiles_frame]
@[simp] theorem raiseTiles_gddr (rs : List (Nat × Nat)) (l : List Site) (u : State) : (raiseTiles rs l u).gddr = u.gddr := by
  rw [raiseTiles_frame]
@[simp] theorem raiseTiles_time (rs : List (Nat × Nat)) (l : List Site) (u : State) : (raiseTiles rs l u).time = u.time := by
  rw [raiseTiles_frame]
@[simp] theorem raiseTiles_rgs (rs : List (Nat × Nat)) (l : List Site) (u : State) : (raiseTiles rs l u).rgs = u.rgs := by
  rw [raiseTiles_frame]

/-- What the Registrar notes of a group's ungating: when it ended (R51). -/
def noteArmAt (c : Nat) (u : State) : State := { u with rgs := { u.rgs with armAt := c } }

@[simp] theorem noteArmAt_dev (c : Nat) (u : State) : (noteArmAt c u).dev = u.dev := rfl
@[simp] theorem noteArmAt_fuse (c : Nat) (u : State) : (noteArmAt c u).fuse = u.fuse := rfl
@[simp] theorem noteArmAt_gddr (c : Nat) (u : State) : (noteArmAt c u).gddr = u.gddr := rfl
@[simp] theorem noteArmAt_time (c : Nat) (u : State) : (noteArmAt c u).time = u.time := rfl
@[simp] theorem noteArmAt_rgs (c : Nat) (u : State) : (noteArmAt c u).rgs = { u.rgs with armAt := c } := rfl
@[simp] theorem noteArmAt_tile (c : Nat) (u : State) (x : Site) : (noteArmAt c u).tile x = u.tile x := rfl

/-- The device with the group's tiles ungated by time c, before it is seen whether that was the last group. -/
def groupRaised (s : State) (g c : Nat) : State := noteArmAt c (raiseTiles (residRanges s g) (groupSites s.fuse g) (toTime s c))

@[simp] theorem groupRaised_dev (s : State) (g c : Nat) : (groupRaised s g c).dev = s.dev := by
  rw [groupRaised, noteArmAt_dev, raiseTiles_dev, toTime_dev]
@[simp] theorem groupRaised_fuse (s : State) (g c : Nat) : (groupRaised s g c).fuse = s.fuse := by
  rw [groupRaised, noteArmAt_fuse, raiseTiles_fuse, toTime_fuse]
@[simp] theorem groupRaised_gddr (s : State) (g c : Nat) : (groupRaised s g c).gddr = s.gddr := by
  rw [groupRaised, noteArmAt_gddr, raiseTiles_gddr, toTime_gddr]
@[simp] theorem groupRaised_rgs (s : State) (g c : Nat) : (groupRaised s g c).rgs = { s.rgs with armAt := c } := by
  rw [groupRaised, noteArmAt_rgs, raiseTiles_rgs, toTime_rgs]

theorem groupRaised_time (s : State) (g c : Nat) : (groupRaised s g c).time = max s.time c := by
  rw [groupRaised, noteArmAt_time, raiseTiles_time, toTime_time]

theorem groupRaised_tile (s : State) (g c : Nat) {x : Site} (h : x ∈ groupSites s.fuse g) :
    (groupRaised s g c).tile x = (s.tile x).raised (residRanges s g) := by
  rw [← tile_congr (toTime_tiles s c), groupRaised, noteArmAt_tile]
  exact (foldl_onTile_idem (raised_idem _) _ (toTime s c)).1 x h

theorem groupRaised_tile_ne (s : State) (g c : Nat) {x : Site} (h : x ∉ groupSites s.fuse g) :
    (groupRaised s g c).tile x = s.tile x := by
  rw [← tile_congr (toTime_tiles s c), groupRaised, noteArmAt_tile]
  exact (foldl_onTile_idem (raised_idem _) _ (toTime s c)).2 x h

theorem jobGroups_groupRaised (s : State) (g c : Nat) : jobGroups (groupRaised s g c) = jobGroups s := by
  rw [jobGroups, groupRaised_rgs]
  rfl

theorem groupUp_groupRaised (s : State) (g c : Nat) : groupUp (groupRaised s g c) g = true := by
  rw [groupUp_iff, groupRaised_fuse]
  intro x hx
  rw [groupRaised_tile s g c hx]
  exact raised_up _ _

/-- A group that is up stays up as another is ungated. -/
theorem groupUp_groupRaised_of_up {s : State} (g c : Nat) {k : Nat} (hu : groupUp s k = true) : groupUp (groupRaised s g c) k = true := by
  rw [groupUp_iff] at hu ⊢
  rw [groupRaised_fuse]
  intro x hx
  by_cases hg : x ∈ groupSites s.fuse g
  · rw [groupRaised_tile s g c hg]
    exact raised_up _ _
  · rw [groupRaised_tile_ne s g c hg]
    exact hu x hx

/-! ### The end of ungating -/

/-- Ungating ends where every group of the job is up. -/
def ungateEnded (u : State) : State := if (jobGroups u).all (groupUp u) then endUngating u else u

theorem exec_groupUngate {s : State} {g : Nat} (hd : s.dev = .armed) (ha : s.rgs.arm = .ungate) (hg : g ∈ jobGroups s)
    (hu : groupUp s g = false ∨ ∀ h ∈ jobGroups s, groupUp s h = true) :
    exec (.groupUngate g) s = .next (ungateEnded (groupRaised s g (s.rgs.armAt + 5 * 84000))) := by
  have hgo : (s.dev == .armed && s.rgs.arm == .ungate && (jobGroups s).contains g
      && (!groupUp s g || (jobGroups s).all (groupUp s))) = true := by simp [hd, ha, hg, hu]
  change execGroupUngate g s = _
  unfold execGroupUngate
  rw [if_pos hgo]
  rfl

theorem endUngating_frame (u : State) : endUngating u = { u with dev := (endUngating u).dev, rgs := (endUngating u).rgs } := by
  unfold endUngating
  dsimp only
  split
  · rw [raiseFault_frame]
  · rfl

/-- Its end changes nothing but the device's state and the Registrar's record. -/
theorem ungateEnded_frame (u : State) : ungateEnded u = { u with dev := (ungateEnded u).dev, rgs := (ungateEnded u).rgs } := by
  unfold ungateEnded
  split
  · exact endUngating_frame u
  · rfl

@[simp] theorem ungateEnded_time (u : State) : (ungateEnded u).time = u.time := by rw [ungateEnded_frame]
@[simp] theorem ungateEnded_gddr (u : State) : (ungateEnded u).gddr = u.gddr := by rw [ungateEnded_frame]
@[simp] theorem ungateEnded_fuse (u : State) : (ungateEnded u).fuse = u.fuse := by rw [ungateEnded_frame]
theorem ungateEnded_tile (u : State) (x : Site) : (ungateEnded u).tile x = u.tile x := tile_congr (by rw [ungateEnded_frame]) x

theorem groupUp_ungateEnded (u : State) (g : Nat) : groupUp (ungateEnded u) g = groupUp u g := by
  simp only [groupUp, ungateEnded_tile, ungateEnded_fuse]

/-- With the last group ungating ends. -/
theorem ungateEnded_last {s : State} {g : Nat} (c : Nat) (h : ∀ k ∈ jobGroups s, k ≠ g → groupUp s k = true) :
    ungateEnded (groupRaised s g c) = endUngating (groupRaised s g c) := by
  refine if_pos (List.all_eq_true.mpr fun k hk => ?_)
  rw [jobGroups_groupRaised] at hk
  by_cases hkg : k = g
  · rw [hkg]
    exact groupUp_groupRaised s g c
  · exact groupUp_groupRaised_of_up g c (h k hk hkg)

/-- Without a fence the job stands ready in ARMED (R377). -/
theorem endUngating_done {u : State} (h : u.rgs.fenceArm = none) : (endUngating u).dev = u.dev ∧ (endUngating u).rgs.arm = .done := by
  simp [endUngating, h]

/-- A fence that came meanwhile faults the job with reason FENCE (R52). -/
theorem endUngating_fault {u : State} {y : Site} (hd : u.dev = .armed) (h : u.rgs.fenceArm = some y) :
    (endUngating u).dev = .faulted ∧ ∃ f, (endUngating u).rgs.fault = some f ∧ f.reason = 0x15 ∧ f.site = y := by
  simp only [endUngating, h]
  refine raiseFault_ofJob (.inl ?_) 0x15 0 y
  exact hd

/-! ### FENCE and GROUP_UNGATE -/

/-- Settles O23: FENCE is `tileFenced` followed by `fenceReported`, which touches no tile; GROUP_UNGATE is `groupRaised` followed by
`ungateEnded`, which touches none either. -/
theorem fenceAndUngate : Obligations.FenceAndUngate := by
  unfold Obligations.FenceAndUngate
  refine ⟨fun s x n hl hp => ?_, fun s g hd ha hg hu => ?_⟩
  · have hr := fenceReported_frame s (tileFenced s x n) x
    have hf := tileFenced_frame s x n
    have hx : (fenceReported s (tileFenced s x n) x).tile x = (s.tile x).powerDown .fenced := by
      rw [fenceReported_tile, tileFenced_tile]
    have hregs : (fenceReported s (tileFenced s x n) x).regs = (tileFenced s x n).regs := by rw [hr]
    refine ⟨_, exec_fence hl hp, ?_, fun a => ?_, ?_, ?_, ?_, ?_, ?_, ?_, ?_, fun y hy => ?_, fun r hres hq q hqr y hy => ?_,
      fun hj => ?_, fun hj hd => ?_, fun hj hd ha => ?_⟩
    · rw [hx, powerDown_pwr]
    · rw [hx, powerDown_byteAt]
    · rw [hx, powerDown_queues]
    · rw [hx, powerDown_arrivals]
    · rw [hx, powerDown_transit]
    · rw [hr, hf]
    · rw [hr, hf]
    · rw [hr, hf]
    · rw [regFld, regRaw, hregs]
      exact tileFenced_fdrop s x n
    · rw [fenceReported_tile]
      exact tileFenced_tile_ne s n hy
    · rw [fenceReported_tile]
      exact tileFenced_not_retain hres hq hqr hy
    · rw [fenceReported, if_pos hj, tileFenced_dev]
    · exact fenceReported_fault hj hd (tileFenced_dev s x n)
    · rw [fenceReported, if_neg (by simp [hj]), if_pos ⟨hd, ha⟩]
      exact ⟨(tileFenced_dev s x n).trans hd, rfl⟩
  · have hexec := exec_groupUngate hd ha hg hu
    generalize s.rgs.armAt + 5 * 84000 = c at hexec ⊢
    refine ⟨_, hexec, ?_, ?_, ?_, fun x hx => ⟨fun hup => ?_, fun hnf hna => ⟨?_, fun a hlt => ⟨fun hout => ?_,
      fun hin hret => ?_⟩⟩⟩, fun x hx => ?_, fun hlast => ⟨fun hfence => ?_, fun y hfence => ?_⟩⟩
    · rw [ungateEnded_time, groupRaised_time]
    · rw [ungateEnded_gddr, groupRaised_gddr]
    · rw [groupUp_ungateEnded]
      exact groupUp_groupRaised s g c
    · rw [ungateEnded_tile, groupRaised_tile s g c hx, raised_of_up hup]
    · rw [ungateEnded_tile, groupRaised_tile s g c hx, raised_of_down hnf hna]
      rfl
    · rw [ungateEnded_tile, groupRaised_tile s g c hx, raised_of_down hnf hna]
      exact ungate_byteAt_outside _ hlt fun ⟨r, hr, hra⟩ => hout r hr hra
    · rw [ungateEnded_tile, groupRaised_tile s g c hx, raised_of_down hnf hna]
      exact ungate_byteAt_inside hlt hin hret
    · rw [ungateEnded_tile, groupRaised_tile_ne s g c hx]
    · rw [ungateEnded_last c hlast]
      obtain ⟨hdev, harm⟩ := endUngating_done (u := groupRaised s g c) (by rw [groupRaised_rgs]; exact hfence)
      exact ⟨hdev.trans ((groupRaised_dev s g c).trans hd), harm⟩
    · rw [ungateEnded_last c hlast]
      exact endUngating_fault ((groupRaised_dev s g c).trans hd) (by rw [groupRaised_rgs]; exact hfence)

end Sys2Proof.Machine
end

section
/-! PROOFS. A tile that is put back (`State.putTile`): what its reports may change, at the tile and in the state (R11, R221, R394). -/

namespace Sys2Proof.Machine

/-! ### What a report may change -/

/-- From s to t, only tiles, free values, register words, interrupts and what the Registrar says of the job have changed. -/
def ReportsOnly (s t : State) : Prop :=
  t = { s with tiles := t.tiles, free := t.free, regs := t.regs, host := t.host, dev := t.dev, rgs := t.rgs }

theorem ReportsOnly.refl (s : State) : ReportsOnly s s := rfl

theorem ReportsOnly.trans {s t u : State} (h : ReportsOnly s t) (g : ReportsOnly t u) : ReportsOnly s u := by
  unfold ReportsOnly at *
  rw [g, h]

theorem reportsOnly_setTile (s : State) (x : Site) (t : Tile) : ReportsOnly s (s.setTile x t) := rfl

theorem reportsOnly_setReg (s : State) (off : Nat) (w : Word) : ReportsOnly s (setReg s off w) := rfl

theorem reportsOnly_raiseFault (s : State) (reason detail site : Nat) : ReportsOnly s (raiseFault s reason detail site) :=
  (raiseFault_frame s reason detail site).trans (by rw [raiseFault_frame])

theorem reportsOnly_mayFault (s : State) : ReportsOnly s (mayFault s) := by
  unfold mayFault
  dsimp only
  split
  · rfl
  · exact ReportsOnly.trans (t := drew s 1) rfl (reportsOnly_raiseFault _ _ _ _)

theorem reportsOnly_setIstat (s : State) (page mask : Nat) : ReportsOnly s (setIstat s page mask) :=
  (setIstat_frame s page mask).trans (by rw [setIstat_frame])

theorem reportsOnly_hazardCounted (s : State) : ReportsOnly s (hazardCounted s) := reportsOnly_setReg s _ _

theorem reportsOnly_hazardNoted (s : State) (kind site addr : Nat) : ReportsOnly s (hazardNoted s kind site addr) :=
  ((((reportsOnly_hazardCounted s).trans (reportsOnly_setReg _ _ _)).trans (reportsOnly_setReg _ _ _)).trans
    (reportsOnly_setReg _ _ _)).trans (reportsOnly_setIstat _ _ _)

theorem reportsOnly_hazard (s : State) (kind site addr : Nat) : ReportsOnly s (hazard s kind site addr) := by
  rcases hazard_cases s kind site addr with h | h | h | h <;> rw [h]
  · exact ReportsOnly.refl s
  · exact reportsOnly_hazardCounted s
  · exact reportsOnly_hazardNoted s kind site addr
  · exact (reportsOnly_hazardNoted s kind site addr).trans (reportsOnly_raiseFault _ _ _ _)

theorem reportsOnly_reportUpset (s : State) (x : Site) : ReportsOnly s (reportUpset s x) :=
  (reportsOnly_setTile s x _).trans (reportsOnly_mayFault _)

theorem reportsOnly_reportHazards (s : State) (x : Site) : ReportsOnly s (reportHazards s x) :=
  foldl_keeps (ReportsOnly s) _ (fun _ p hu => hu.trans (reportsOnly_hazard _ p.1 x p.2)) _ _ (reportsOnly_setTile s x _)

/-! ### The tile that is put back -/

theorem reportUpset_tile (s : State) (x : Site) : (reportUpset s x).tile x = { s.tile x with upset := false } := by
  rw [reportUpset, tile_congr (mayFault_tiles _), onTile_tile]

theorem reportHazards_tile (s : State) (x : Site) : (reportHazards s x).tile x = { s.tile x with found := [] } := by
  rw [reportHazards, tile_congr (foldl_tiles (α := Nat × Nat) (fun v p => hazard_tiles v p.1 x p.2) _ _), onTile_tile]

/-- A tile is put back, and the clashes of its banks are reported (R221). -/
def putUpset (s : State) (x : Site) (t : Tile) : State := if t.upset then reportUpset (s.setTile x t) x else s.setTile x t

theorem putTile_eq (s : State) (x : Site) (t : Tile) :
    s.putTile x t = if t.found.isEmpty then putUpset s x t else reportHazards (putUpset s x t) x := rfl

theorem putUpset_tile (s : State) (x : Site) (t : Tile) : (putUpset s x t).tile x = { t with upset := false } := by
  unfold putUpset
  by_cases hu : t.upset = true
  · rw [if_pos hu, reportUpset_tile, setTile_tile]
  · rw [if_neg hu, setTile_tile, ← Bool.eq_false_iff.mpr hu]

/-- What a tile has met is reported once: it is put back with nothing left to report. -/
theorem putTile_tile (s : State) (x : Site) (t : Tile) : (s.putTile x t).tile x = { t with upset := false, found := [] } := by
  rw [putTile_eq]
  by_cases hf : t.found.isEmpty = true
  · rw [if_pos hf, putUpset_tile, ← List.isEmpty_iff.mp hf]
  · rw [if_neg hf, reportHazards_tile, putUpset_tile]

theorem reportsOnly_putUpset (s : State) (x : Site) (t : Tile) : ReportsOnly s (putUpset s x t) := by
  unfold putUpset
  split
  · exact (reportsOnly_setTile s x t).trans (reportsOnly_reportUpset _ x)
  · exact reportsOnly_setTile s x t

theorem reportsOnly_putTile (s : State) (x : Site) (t : Tile) : ReportsOnly s (s.putTile x t) := by
  rw [putTile_eq]
  split
  · exact reportsOnly_putUpset s x t
  · exact (reportsOnly_putUpset s x t).trans (reportsOnly_reportHazards _ x)

@[simp] theorem putTile_cycle (s : State) (x : Site) (t : Tile) : (s.putTile x t).cycle = s.cycle := by rw [reportsOnly_putTile s x t]

/-! ### The frame of a command that puts its tile back -/

/-- Outside debug mode a hazard is nothing (R394). -/
theorem hazard_noDebug {s : State} (h : debugJob s = false) (kind site addr : Nat) : hazard s kind site addr = s := by simp [hazard, h]

theorem reportHazards_noDebug {s : State} (h : debugJob s = false) (x : Site) :
    reportHazards s x = s.onTile x fun t => { t with found := [] } :=
  foldl_keeps (fun u => u = s.onTile x fun t => { t with found := [] }) _
    (fun u p hu => (hazard_noDebug (s := u) (by rw [hu]; exact h) p.1 x p.2).trans hu) _ _ rfl

/-- Outside debug mode, with no clash to report, a tile is put back and that is all. -/
theorem putTile_calm {s : State} {t : Tile} (x : Site) (hd : debugJob s = false) (hu : t.upset = false) :
    s.putTile x t = s.setTile x t ∨ s.putTile x t = (s.setTile x t).onTile x fun t => { t with found := [] } := by
  have hput : putUpset s x t = s.setTile x t := if_neg (Bool.eq_false_iff.mp hu)
  rw [putTile_eq, hput]
  split
  · exact .inl rfl
  · exact .inr (reportHazards_noDebug (s := s.setTile x t) hd x)

theorem OnlyTile.draws {x : Site} {s t : State} (h : OnlyTile x s t) : OnlyTileDraws x s t := by
  obtain ⟨hframe, hother⟩ := h
  exact ⟨hframe.trans (by rw [hframe]), hother⟩

/-- A command that carries the clock forward and puts its tile back: where no clash of banks is to be reported, only debug mode can
change more than the tile; where one is, the job may fault (R11, R221, R394). -/
theorem putTile_tileOrFault {x : Site} {s u : State} {t : Tile} {calm : Prop} (h : OnlyTile x s u) (hc : calm → t.upset = false) :
    TileOrFault x calm s (u.putTile x t) := by
  have ⟨hframe, hother⟩ := h
  have hall : u.putTile x t = { s with
      tiles := (u.putTile x t).tiles, cycle := (u.putTile x t).cycle, time := (u.putTile x t).time, phase := (u.putTile x t).phase,
      chron := (u.putTile x t).chron, free := (u.putTile x t).free, regs := (u.putTile x t).regs, host := (u.putTile x t).host,
      dev := (u.putTile x t).dev, rgs := (u.putTile x t).rgs } := by
    rw [reportsOnly_putTile u x t, hframe]
  have hothers : ∀ y, y ≠ x → (u.putTile x t).tile y = s.tile y := fun y hy => (putTile_tile_ne u t hy).trans (hother y hy)
  refine ⟨hall, hothers, fun hcalm => ⟨hall, hothers, fun hd => ?_⟩⟩
  have hdu : debugJob u = false := by rw [hframe]; exact hd
  rcases putTile_calm x hdu (hc hcalm) with he | he <;> rw [he]
  · exact (h.setTile t).draws
  · exact ((h.setTile t).onTile _).draws

end Sys2Proof.Machine
end

section
/-! PROOFS. The census: an event counts from the cycle after its own (R216, R217, R330). -/

namespace Sys2Proof.Machine

theorem get_bumpCount (m : SMap Nat) (j i : Nat) :
    SMap.get 0 (bumpCount m j) i = if j = i then (SMap.get 0 m i + 1) % censusMask else SMap.get 0 m i := by
  by_cases h : j = i
  · rw [if_pos h, bumpCount, h, SMap.get_set_self]
  · rw [if_neg h, bumpCount, SMap.get_set_ne _ _ _ (Ne.symm h)]

/-- Counters with some events more, as 40-bit counters hold them. -/
theorem get_foldl_bumpCount (i : Nat) (es : List (Nat × Nat)) : ∀ m : SMap Nat,
    SMap.get 0 (es.foldl (fun m e => bumpCount m e.2) m) i % censusMask =
      (SMap.get 0 m i + es.countP fun e => e.2 == i) % censusMask := by
  induction es with
  | nil => intro m; rfl
  | cons e es ih =>
    intro m
    rw [List.foldl_cons, ih, get_bumpCount, List.countP_cons]
    by_cases h : e.2 = i
    · rw [if_pos h, if_pos (beq_iff_eq.mpr h), Nat.mod_add_mod, Nat.add_assoc, Nat.add_comm 1]
    · rw [if_neg h, if_neg (by simpa using h), Nat.add_zero]

/-- Events that have joined the counters and those that wait count alike, from the tile's next issue on. -/
theorem countBefore_countEvents (t : Tile) (c : Nat) (idxs : List Nat) {n : Nat} (hn : t.now ≤ n) (i : Nat) :
    (t.countEvents c idxs).countBefore n i =
      (t.countBefore n i + (idxs.map fun j => (c, j)).countP fun e => decide (e.1 < n) && e.2 == i) % censusMask := by
  have hjoin (l : List (Nat × Nat)) : (l.filter fun e => decide (e.1 < t.now)).countP (fun e => e.2 == i) =
      (l.filter fun e => decide (e.1 < t.now)).countP fun e => decide (e.1 < n) && e.2 == i :=
    List.countP_congr fun e he => by
      have hlt : e.1 < n := (of_decide_eq_true (List.mem_filter.mp he).2).trans_le hn
      simp [hlt]
  have hall (l : List (Nat × Nat)) : (l.filter fun e => decide (e.1 < t.now)).countP (fun e => decide (e.1 < n) && e.2 == i) +
      (l.filter fun e => !decide (e.1 < t.now)).countP (fun e => decide (e.1 < n) && e.2 == i) =
        l.countP fun e => decide (e.1 < n) && e.2 == i :=
    (List.countP_eq_countP_filter_add l _ fun e => decide (e.1 < t.now)).symm
  simp only [Tile.countBefore, Tile.countEvents]
  rw [Nat.add_mod, get_foldl_bumpCount, hjoin, ← Nat.add_mod, Nat.add_assoc, hall, List.countP_append, Nat.mod_add_mod, Nat.add_assoc]

/-- One event more, in a cycle before c. -/
theorem countBefore_countEvent (t : Tile) {c n : Nat} (i : Nat) (hn : t.now ≤ n) (hc : c < n) :
    (t.countEvent c i).countBefore n i = (t.countBefore n i + 1) % censusMask := by
  rw [Tile.countEvent, countBefore_countEvents t c [i] hn]
  simp [hc]

end Sys2Proof.Machine
end

section
/-! PROOFS. The replay decision of a feeding instruction (R134, R135), and when the instruction leaves the tile's feeds. -/

namespace Sys2Proof.Machine

/-! ### Output tiles -/

theorem acc_setAcc_self (t : Tile) (i : Nat) (a : AccTile) : (t.setAcc i a).acc i = a := by
  by_cases h : i = 0 <;> simp [Tile.acc, Tile.setAcc, h]

/-- An output tile put back with its elements as they were leaves every element as it was. -/
theorem elems_setAcc (t : Tile) (i : Nat) {a : AccTile} (h : a.elems = (t.acc i).elems) (k : Nat) :
    ((t.setAcc i a).acc k).elems = (t.acc k).elems := by
  by_cases hi : i = 0 <;> by_cases hk : k = 0 <;> simp_all [Tile.acc, Tile.setAcc]

theorem setAcc_frame (t : Tile) (i : Nat) (a : AccTile) :
    t.setAcc i a = { t with acc0 := (t.setAcc i a).acc0, acc1 := (t.setAcc i a).acc1 } := by
  unfold Tile.setAcc
  split <;> rfl

/-! ### The feeds of a tile -/

/-- When feeds leave, only the list of feeds and the last feed cycles change. -/
theorem leaveFeeds_frame (t : Tile) : t.leaveFeeds =
    { t with feeds := t.leaveFeeds.feeds, tLast := t.leaveFeeds.tLast, tAcc0 := t.leaveFeeds.tAcc0, tAcc1 := t.leaveFeeds.tAcc1 } := by
  unfold Tile.leaveFeeds
  generalize t.feeds.filter Feed.done = fs
  exact foldl_keeps (fun u => u = { t with feeds := u.feeds, tLast := u.tLast, tAcc0 := u.tAcc0, tAcc1 := u.tAcc1 }) Tile.leaveFeed
    (fun u f hu => by rw [hu]; rfl) fs t rfl

theorem mem_foldl_leaveFeed (fs : List Feed) (g : Feed) : ∀ t : Tile,
    g ∈ (fs.foldl Tile.leaveFeed t).feeds ↔ g ∈ t.feeds ∧ ∀ f ∈ fs, g.issue ≠ f.issue := by
  induction fs with
  | nil => simp
  | cons f fs ih =>
    intro t
    have hmem : g ∈ (t.leaveFeed f).feeds ↔ g ∈ t.feeds ∧ g.issue ≠ f.issue := by simp [Tile.leaveFeed]
    rw [List.foldl_cons, ih, hmem, List.forall_mem_cons, and_assoc]

/-- A feed that stays was there, and is not done. -/
theorem mem_leaveFeeds {t : Tile} {g : Feed} (h : g ∈ t.leaveFeeds.feeds) : g ∈ t.feeds ∧ g.done = false := by
  obtain ⟨hmem, hother⟩ := (mem_foldl_leaveFeed _ g t).mp h
  refine ⟨hmem, Bool.eq_false_iff.mpr fun hd => hother g (List.mem_filter.mpr ⟨hmem, hd⟩) rfl⟩

theorem endFeed_frame (t : Tile) (f : Feed) : t.endFeed f =
    { t with feeds := (t.endFeed f).feeds, tLast := (t.endFeed f).tLast, tAcc0 := (t.endFeed f).tAcc0, tAcc1 := (t.endFeed f).tAcc1 } :=
  leaveFeeds_frame _

/-- An instruction that accumulates no more stays only while its generators have a round to read (R134). -/
theorem mem_endFeed {t : Tile} {f g : Feed} (h : g ∈ (t.endFeed f).feeds) (hi : g.issue = f.issue) :
    g.closed = true ∧ g.awaiting = false ∧ g.rnd ≤ g.rb := by
  obtain ⟨hmem, hdone⟩ := mem_leaveFeeds h
  obtain ⟨o, -, rfl⟩ := List.mem_map.mp hmem
  by_cases ho : o.issue = f.issue
  · rw [if_pos (beq_iff_eq.mpr ho)] at hdone ⊢
    exact ⟨rfl, rfl, by simpa [Feed.done] using hdone⟩
  · rw [if_neg (by simpa using ho)] at hi
    exact absurd hi ho

/-! ### The decision -/

/-- The cycle of the decision on a feed's round: t_end,k + 13 (R134). -/
def Feed.decidedAt (f : Feed) : Nat := f.roundAt f.round + f.span - 1 + 13

/-- An overflow leads to another round: there is budget left, and OSC can rise (R134, R200). -/
abbrev ReplayDue (t : Tile) (f : Feed) : Prop := f.ovr = true ∧ f.round < f.rb ∧ (t.acc f.acc).osc.toNat < 254

/-- A tile once it has asked for the next round of a feed (R134). -/
def Tile.askRound (t : Tile) (f : Feed) (c : Nat) : Tile :=
  { ((t.setAcc f.acc { t.acc f.acc with osc := (t.acc f.acc).osc + 1 }).countEvent c cREPLAY) with
    feeds := t.feeds.map fun g => if g.issue == f.issue then { g with round := f.round + 1, slice := 0, ovr := false, awaiting := false } else g }

/-- A tile once it has noted an overflow that leads to no further round (R135). -/
def Tile.noteOvf (t : Tile) (c : Nat) : Tile := { t.countEvent c cOVF with ovf := true }

/-- A tile after the decision on a feed. -/
def Tile.decideReplay (t : Tile) (f : Feed) (c : Nat) : Tile :=
  if ReplayDue t f then t.askRound f c else if f.ovr = true then (t.noteOvf c).endFeed f else t.endFeed f

theorem exec_replayDecision {s : State} {x : Site} {f : Feed} (hr : s.dev = .run) (hp : (s.tile x).pwr = .active)
    (hf : (s.tile x).feeds.find? (fun g => g.awaiting) = some f) : exec (.replayDecision x) s =
      .next ((toCycle s f.decidedAt).putTile x (((s.tile x).toWrite f.decidedAt).decideReplay f f.decidedAt)) := by
  change execReplayDecision x s = _
  simp only [execReplayDecision, hf, hr, hp, beq_self_eq_true, Bool.and_self, if_true]
  refine congrArg (fun u => Host.Outcome.next ((toCycle s f.decidedAt).putTile x u)) (if_congr ?_ rfl rfl)
  simp only [Bool.and_eq_true, decide_eq_true_eq, and_assoc]
  rfl

variable {t : Tile} {f : Feed} (c : Nat)

theorem decideReplay_again (h : ReplayDue t f) : t.decideReplay f c = t.askRound f c := if_pos h

theorem decideReplay_overflow (h : ¬ ReplayDue t f) (ho : f.ovr = true) : t.decideReplay f c = (t.noteOvf c).endFeed f :=
  (if_neg h).trans (if_pos ho)

theorem decideReplay_good (h : f.ovr = false) : t.decideReplay f c = t.endFeed f := by simp [Tile.decideReplay, h]

/-- Without another round, the instruction ends on a tile that differs at most in the overflow noted. -/
theorem decideReplay_ends (h : ¬ ReplayDue t f) : ∃ u : Tile, t.decideReplay f c = u.endFeed f ∧
    u = { t with census := u.census, events := u.events, ovf := u.ovf } := by
  cases ho : f.ovr
  · exact ⟨t, decideReplay_good c ho, rfl⟩
  · exact ⟨t.noteOvf c, decideReplay_overflow c h ho, rfl⟩

/-- The decision changes scale states, the feeds and what counts an overflow; nothing else of the tile. -/
theorem decideReplay_frame : t.decideReplay f c =
    { t with acc0 := (t.decideReplay f c).acc0, acc1 := (t.decideReplay f c).acc1, feeds := (t.decideReplay f c).feeds,
             tLast := (t.decideReplay f c).tLast, tAcc0 := (t.decideReplay f c).tAcc0, tAcc1 := (t.decideReplay f c).tAcc1,
             census := (t.decideReplay f c).census, events := (t.decideReplay f c).events, ovf := (t.decideReplay f c).ovf } := by
  by_cases h : ReplayDue t f
  · rw [decideReplay_again c h, Tile.askRound, setAcc_frame]
    rfl
  · obtain ⟨u, hend, hu⟩ := decideReplay_ends c h
    rw [hend, endFeed_frame, hu]

theorem decideReplay_acc (h : ¬ ReplayDue t f) (k : Nat) : (t.decideReplay f c).acc k = t.acc k := by
  obtain ⟨u, hend, hu⟩ := decideReplay_ends c h
  rw [hend, endFeed_frame, hu]
  rfl

theorem decideReplay_elems (k : Nat) : ((t.decideReplay f c).acc k).elems = (t.acc k).elems := by
  by_cases h : ReplayDue t f
  · rw [decideReplay_again c h]
    exact elems_setAcc t f.acc (a := { t.acc f.acc with osc := (t.acc f.acc).osc + 1 }) rfl k
  · rw [decideReplay_acc c h]

theorem mem_decideReplay_ended (h : ¬ ReplayDue t f) {g : Feed} (hg : g ∈ (t.decideReplay f c).feeds) (hi : g.issue = f.issue) :
    g.closed = true ∧ g.awaiting = false ∧ g.rnd ≤ g.rb := by
  obtain ⟨u, hend, -⟩ := decideReplay_ends c h
  exact mem_endFeed (hend ▸ hg) hi

theorem askRound_osc : ((t.askRound f c).acc f.acc).osc = (t.acc f.acc).osc + 1 :=
  congrArg AccTile.osc (acc_setAcc_self t f.acc _)

theorem askRound_ovf : (t.askRound f c).ovf = t.ovf := by rw [Tile.askRound, setAcc_frame]; rfl

theorem askRound_countBefore {n : Nat} (hn : t.now ≤ n) (hc : c < n) :
    (t.askRound f c).countBefore n cREPLAY = (t.countBefore n cREPLAY + 1) % censusMask := by
  have h := setAcc_frame t f.acc { t.acc f.acc with osc := (t.acc f.acc).osc + 1 }
  refine (countBefore_countEvent (t.setAcc f.acc _) cREPLAY (by rw [h]; exact hn) hc).trans ?_
  rw [h]
  rfl

theorem mem_askRound {g : Feed} (hg : g ∈ (t.askRound f c).feeds) (hi : g.issue = f.issue) :
    g.round = f.round + 1 ∧ g.slice = 0 ∧ g.awaiting = false := by
  obtain ⟨o, -, rfl⟩ := List.mem_map.mp hg
  by_cases ho : o.issue = f.issue
  · rw [if_pos (beq_iff_eq.mpr ho)]
    exact ⟨rfl, rfl, rfl⟩
  · rw [if_neg (by simpa using ho)] at hi
    exact absurd hi ho

end Sys2Proof.Machine
end

section
/-! PROOFS. REPLAY_DECISION (O14). -/

namespace Sys2Proof.Machine

/-- Settles O14: the command is `Tile.decideReplay` on the tile as it stands at t_end,k + 13, put back; each clause is a fact about its
three outcomes. -/
theorem replayDecides : Obligations.ReplayDecides := by
  unfold Obligations.ReplayDecides
  intro s x f hr hp hf _ c T again
  have hframe := decideReplay_frame (t := T) (f := f) c
  have htile := putTile_tile (toCycle s c) x (T.decideReplay f c)
  refine ⟨(toCycle s c).putTile x (T.decideReplay f c), exec_replayDecision hr hp hf,
    putTile_tileOrFault (OnlyTile.toCycle x s c) fun h => ?_, ?_, fun k => ?_, fun hagain => ?_, fun hno => ?_, fun hovr hno => ?_,
    fun hovr => ?_, ?_, ?_, ?_, ?_⟩
  · rw [hframe]
    exact h
  · rw [putTile_cycle]
    exact toCycle_cycle s c
  -- The rest holds of any tile put back after the decision: how T came to stand as it does plays no part.
  all_goals
    clear_value T
    rw [htile]
  · exact decideReplay_elems c k
  · rw [decideReplay_again c hagain]
    exact ⟨askRound_osc c, askRound_ovf c, fun n hn hc => askRound_countBefore c hn hc, fun g hg hi => mem_askRound c hg hi⟩
  · exact ⟨congrArg AccTile.osc (decideReplay_acc c hno f.acc), fun g hg hi => mem_decideReplay_ended c hno hg hi⟩
  · rw [decideReplay_overflow c hno hovr, endFeed_frame]
    exact ⟨rfl, fun n hn hc => countBefore_countEvent T cOVF hn hc⟩
  · rw [decideReplay_good c hovr, endFeed_frame]
    exact ⟨rfl, rfl⟩
  · refine tileMemSame_of_mem ?_
    rw [hframe]
  all_goals rw [hframe]

end Sys2Proof.Machine
end

section
/-! PROOFS. A write on its way to a register reaches it in the cycle in which it becomes readable (R163): nothing that comes due before
takes it away. -/

namespace Sys2Proof.Machine

/-! ### What comes due beside the register writes leaves them on their way -/

theorem grantSlips_regWrites (t : Tile) : t.grantSlips.regWrites = t.regWrites := by
  refine foldl_keeps (fun u : Tile => u.regWrites = t.regWrites) _ (fun u d hu => ?_) _ _
    (foldl_keeps (fun u : Tile => u.regWrites = t.regWrites) _ (fun u d hu => ?_) _ _ rfl)
  all_goals
    dsimp only
    split <;> exact hu

theorem applySlip_regWrites (t : Tile) (c m : Nat) (v : Word) : (t.applySlip c m v).regWrites = t.regWrites := by
  unfold Tile.applySlip
  dsimp only
  split
  · rw [grantSlips_regWrites]
    split
    · refine foldl_keeps (fun u : Tile => u.regWrites = t.regWrites) _ (fun u d hu => ?_) _ _ rfl
      split <;> exact hu
    · rfl
  · exact grantSlips_regWrites (t.setSlip c _)
  · exact grantSlips_regWrites (t.setSlip c _)

theorem settleEffects_regWrites (t : Tile) (c : Nat) : (t.settleEffects c).regWrites = t.regWrites := by
  unfold Tile.settleEffects
  dsimp only
  refine foldl_keeps (fun u : Tile => u.regWrites = t.regWrites) _ (fun u w hu => ?_) _ _
    (foldl_keeps (fun u : Tile => u.regWrites = t.regWrites) _ (fun u w hu => ?_) _ _
      (foldl_keeps (fun u : Tile => u.regWrites = t.regWrites) _ (fun u w hu => ?_) _ _ rfl))
  · split <;> exact hu
  · exact (applySlip_regWrites u _ _ _).trans hu
  · exact hu

theorem latchGen_regWrites (t : Tile) (c : Nat) : (t.latchGen c).regWrites = t.regWrites := by
  refine foldl_keeps (fun u : Tile => u.regWrites = t.regWrites) _ (fun u op hu => ?_) _ _ rfl
  dsimp only
  split
  · exact foldl_keeps (fun v : Tile => v.regWrites = t.regWrites) Tile.store (fun v w hv => hv) _ _ hu
  · exact hu

theorem noteWrites_frame (t : Tile) (gs : List Nat) :
    t.noteWrites gs = { t with found := (t.noteWrites gs).found, gran := (t.noteWrites gs).gran } := by
  unfold Tile.noteWrites
  split <;> rfl

theorem checkReads_regWrites (t : Tile) : t.checkReads.regWrites = t.regWrites := by
  unfold Tile.checkReads Tile.noteReads
  dsimp only
  split <;> rfl

theorem leaveFeeds_regWrites (t : Tile) : t.leaveFeeds.regWrites = t.regWrites := by rw [leaveFeeds_frame]

/-- Of the writes on their way, reading memory changes those of SLDs alone (R169). -/
theorem latchMem_regWrites (t : Tile) (c : Nat) : ∃ u : Tile, (t.latchMem c).regWrites = (u.latchWords c).regWrites ∧ u.regWrites = t.regWrites :=
  ⟨{ t with feeds := _, vops := _ }, (leaveFeeds_regWrites _).trans (checkReads_regWrites _), rfl⟩

/-! ### A write that stands in its place -/

/-- Write w stands among a tile's register writes after those due no later. -/
def Tile.Awaits (t : Tile) (w : RegWrite) : Prop := ∃ ws, t.regWrites = insertReg w ws

theorem Tile.Awaits.congr {t u : Tile} {w : RegWrite} (h : t.Awaits w) (hr : u.regWrites = t.regWrites) : u.Awaits w := by
  obtain ⟨ws, hw⟩ := h
  exact ⟨ws, hr.trans hw⟩

/-- A change of the writes on their way that leaves each its cycle, and w as it is, leaves w in its place. -/
theorem map_insertReg {f : RegWrite → RegWrite} {w : RegWrite} (hat : ∀ v, (f v).at_ = v.at_) (hw : f w = w) (ws : List RegWrite) :
    (insertReg w ws).map f = insertReg w (ws.map f) := by
  induction ws with
  | nil => simp [insertReg, hw]
  | cons v ws ih =>
    by_cases h : v.at_ ≤ w.at_
    · simp [insertReg, h, hat, ih]
    · simp [insertReg, h, hat, hw]

theorem Tile.Awaits.latchWords {t : Tile} {w : RegWrite} (h : t.Awaits w) (hl : w.load = none) (c : Nat) : (t.latchWords c).Awaits w := by
  obtain ⟨ws, hw⟩ := h
  refine ⟨_, (congrArg _ hw).trans (map_insertReg (fun v => ?_) (by rw [hl]) ws)⟩
  split
  · split <;> rfl
  · rfl

theorem Tile.Awaits.latchMem {t : Tile} {w : RegWrite} (h : t.Awaits w) (hl : w.load = none) (c : Nat) : (t.latchMem c).Awaits w := by
  obtain ⟨u, hlatch, hu⟩ := latchMem_regWrites t c
  exact ((h.congr hu).latchWords hl c).congr hlatch

theorem Tile.Awaits.settleMem {w : RegWrite} (hl : w.load = none) (c : Nat) :
    ∀ (ms : List MemWrite) {t : Tile}, t.Awaits w → (settleMem c ms t).Awaits w
  | [], _, h => h.congr rfl
  | m :: ms, t, h => by
    unfold Machine.settleMem
    split
    · refine Tile.Awaits.settleMem hl c ms ((h.latchMem hl (m.at_ - 1)).congr ?_)
      rw [noteWrites_frame]
      rfl
    · exact h.congr rfl

/-- A write on its way to an address register is what the register reads in the cycle in which it becomes readable (R163). -/
theorem settleRegs_areg {w : RegWrite} {r : Nat} (hd : w.dest = .a r) (ws : List RegWrite) :
    ∀ t : Tile, (settleRegs w.at_ (insertReg w ws) t).areg r = w.value := by
  induction ws with
  | nil =>
    intro t
    simp [insertReg, settleRegs, hd, Tile.setA, Tile.areg]
  | cons v ws ih =>
    intro t
    by_cases h : v.at_ ≤ w.at_
    · rw [insertReg, if_pos h, settleRegs, if_pos h, ih]
    · rw [insertReg, if_neg h, settleRegs, if_pos le_rfl, settleRegs, if_neg h, hd]
      simp [Tile.setA, Tile.areg]

theorem Tile.Awaits.upTo_areg {t : Tile} {w : RegWrite} (h : t.Awaits w) (hl : w.load = none) {r : Nat} (hd : w.dest = .a r) :
    (t.upTo w.at_).areg r = w.value := by
  have hu : ((t.settleEffects w.at_).latchGen (w.at_ - 1)).Awaits w :=
    h.congr ((latchGen_regWrites _ _).trans (settleEffects_regWrites t _))
  obtain ⟨ws, hws⟩ := (Tile.Awaits.settleMem hl w.at_ _ hu).latchWords hl (w.at_ - 3)
  unfold Tile.upTo
  dsimp only
  rw [hws]
  exact settleRegs_areg hd ws _

end Sys2Proof.Machine
end

section
/-! PROOFS. Frames of what may fault the job (R11), and the issue of a vector instruction (R145, R163, R167, R211). -/

namespace Sys2Proof.Machine

/-! ### The frame of a command that may fault the job -/

theorem OnlyTileDraws.onTile {x : Site} {s t : State} (h : OnlyTileDraws x s t) (f : Tile → Tile) : OnlyTileDraws x s (t.onTile x f) := by
  obtain ⟨hframe, hother⟩ := h
  refine ⟨?_, fun y hy => (onTile_tile_ne t f hy).trans (hother y hy)⟩
  rw [State.onTile, State.setTile, hframe]

/-- A command that only draws free values faults nothing. -/
theorem OnlyTileDraws.tileOrFault {x : Site} {s t : State} (h : OnlyTileDraws x s t) (calm : Prop) : TileOrFault x calm s t := by
  have ⟨hframe, hother⟩ := h
  have hall : t = { s with
      tiles := t.tiles, cycle := t.cycle, time := t.time, phase := t.phase, chron := t.chron, free := t.free, regs := t.regs,
      host := t.host, dev := t.dev, rgs := t.rgs } := by
    rw [hframe]
  exact ⟨hall, hother, fun _ => ⟨hall, hother, fun _ => h⟩⟩

theorem TileOrFault.onTile {x : Site} {s t : State} {calm : Prop} (h : TileOrFault x calm s t) (f : Tile → Tile) :
    TileOrFault x calm s (t.onTile x f) := by
  obtain ⟨hframe, hother, hcalm⟩ := h
  have hall : t.onTile x f = { s with
      tiles := (t.onTile x f).tiles, cycle := t.cycle, time := t.time, phase := t.phase, chron := t.chron, free := t.free, regs := t.regs,
      host := t.host, dev := t.dev, rgs := t.rgs } := by
    rw [State.onTile, State.setTile, hframe]
  have hothers : ∀ y, y ≠ x → (t.onTile x f).tile y = s.tile y := fun y hy => (onTile_tile_ne t f hy).trans (hother y hy)
  refine ⟨hall, hothers, fun hc => ?_⟩
  obtain ⟨-, -, hdraws⟩ := hcalm hc
  exact ⟨hall, hothers, fun hd => (hdraws hd).onTile f⟩

/-- What follows a command without changing a tile, and only where it was unpredictable, is one more thing that may fault the job. -/
theorem TileOrFault.thenMayFault {x : Site} {s t : State} {calm : Prop} (h : TileOrFault x calm s t) (b : Bool) :
    TileOrFault x (calm ∧ b = false) s (if b then mayFault t else t) := by
  obtain ⟨hframe, hother, hcalm⟩ := h
  cases b with
  | false => exact ⟨hframe, hother, fun hc => hcalm hc.1⟩
  | true =>
    rw [if_pos rfl]
    refine ⟨?_, fun y hy => (tile_congr (mayFault_tiles t) y).trans (hother y hy), fun hc => absurd hc.2 (by decide)⟩
    rw [reportsOnly_mayFault t, hframe]

theorem ite_mayFault_tile (b : Bool) (t : State) (y : Site) : (if b then mayFault t else t).tile y = t.tile y := by
  cases b
  · rfl
  · exact tile_congr (mayFault_tiles t) y

theorem ite_mayFault_cycle (b : Bool) (t : State) : (if b then mayFault t else t).cycle = t.cycle := by
  cases b
  · rfl
  · rw [if_pos rfl, reportsOnly_mayFault t]

/-! ### The command of each kind -/

theorem issueCvt_eq {form : Nat} {e : Option (BitVec 26)} (h : fld (e.getD 0) 15 2 = form) (k : VKind) (x : Site) (w : BitVec 43) (s : State) :
    issueCvt k form x w e s = issueVector k x w e s := by
  cases e with
  | none => rfl
  | some v => exact if_pos h

/-- The form that a VCVT's VEXT spells; of the other kinds none (R206 to R208). -/
def VKind.HasForm (k : VKind) (form : Nat) : Prop :=
  k = .cvtPlain ∧ form = 0 ∨ k = .cvtSlice ∧ form = 1 ∨ k = .rec7 ∧ form = 2 ∨ k = .rec6 ∧ form = 3

theorem exec_vectorInstr {k : VKind} {e : Option (BitVec 26)} (h : ∀ form, k.HasForm form → fld (e.getD 0) 15 2 = form)
    (x : Site) (w : BitVec 43) (s : State) : exec (vectorInstr k x w e) s = .next (issueVector k x w e s) := by
  have hcvt (form : Nat) (hk : k.HasForm form) : issueCvt k form x w e s = issueVector k x w e s := issueCvt_eq (h form hk) k x w s
  cases k with
  | cvtPlain => exact congrArg Host.Outcome.next (hcvt 0 (by simp [VKind.HasForm]))
  | cvtSlice => exact congrArg Host.Outcome.next (hcvt 1 (by simp [VKind.HasForm]))
  | rec7 => exact congrArg Host.Outcome.next (hcvt 2 (by simp [VKind.HasForm]))
  | rec6 => exact congrArg Host.Outcome.next (hcvt 3 (by simp [VKind.HasForm]))
  | _ => rfl

/-- A vector instruction without an issue fault has the VEXT slot that its kind needs, and no other has one (R167, R185). -/
theorem needsExt_of_vectorCode {k : VKind} {t : Tile} {w : BitVec 43} {e : Option (BitVec 26)} (h : vectorCode k t w e = none) :
    needsExt k = e.isSome := by
  by_contra hne
  have hok : (needsExt k == e.isSome) = false := by simpa using hne
  simp only [vectorCode, firstCode, hok] at h
  split at h <;> simp at h

/-! ### Its start -/

/-- INC of a VLD or VST: the write that advances its address register (R211). -/
def incWrite (t : Tile) (w : BitVec 43) : RegWrite :=
  { at_ := t.now + 1, dest := .a (fld w 14 4), value := t.areg (fld w 14 4) + BitVec.ofNat 32 (32 * ceilDiv (vWords w) 8),
    inc := true, load := none }

theorem startVector_frame (t : Tile) (op : VOp) (w : BitVec 43) :
    t.startVector op w = { t with vops := t.vops ++ [op], regWrites := (t.startVector op w).regWrites } := by
  unfold Tile.startVector
  dsimp only
  split <;> rfl

theorem startVector_bundle (t : Tile) (op : VOp) (w : BitVec 43) (b : Bundle) :
    ({ t with bundle := b } : Tile).startVector op w = { t.startVector op w with bundle := b } := by
  unfold Tile.startVector
  dsimp only
  split <;> rfl

theorem startVector_regWrites_inc {t : Tile} {op : VOp} {w : BitVec 43} (hb : bit w 11 = true) (hk : op.kind = .ld ∨ op.kind = .st) :
    (t.startVector op w).regWrites = insertReg (incWrite t w) t.regWrites := by
  have hc : ((op.kind == .ld || op.kind == .st) && bit w 11) = true := by simpa [hb] using hk
  rw [Tile.startVector, if_pos hc]
  rfl

theorem startVector_regWrites_same {t : Tile} {op : VOp} {w : BitVec 43} (h : ¬ (bit w 11 = true ∧ (op.kind = .ld ∨ op.kind = .st))) :
    (t.startVector op w).regWrites = t.regWrites := by
  have hc : ¬ ((op.kind == .ld || op.kind == .st) && bit w 11) = true := by
    simpa [and_comm, imp_not_comm, not_or] using h
  rw [Tile.startVector, if_neg hc]

/-- The state in which a vector instruction has started, before what is unpredictable about it. -/
def vectorStarted (k : VKind) (x : Site) (w : BitVec 43) (e : BitVec 26) (s : State) (t : Tile) : State :=
  drew (s.setTile x (t.startVector (mkVOp s.fuse.b0 k t s.free w e) w)) vectorDraws

theorem startOp_eq (k : VKind) (x : Site) (w : BitVec 43) (e : BitVec 26) (s : State) (t : Tile) : startOp k x w e s t =
    if (mkVOp s.fuse.b0 k t s.free w e).outOfRange then mayFault (vectorStarted k x w e s t) else vectorStarted k x w e s t := rfl

section Start
variable {k : VKind} {x : Site} {w : BitVec 43} {e : BitVec 26} {s u : State} {t : Tile} {o : VOp}
  (ho : mkVOp u.fuse.b0 k t u.free w e = o)
include ho

theorem startOp_tile : (startOp k x w e u t).tile x = t.startVector o w := by
  rw [startOp_eq, ite_mayFault_tile, ← ho]
  exact setTile_tile u x _

theorem vectorStarted_draws (h : OnlyTile x s u) : OnlyTileDraws x s (vectorStarted k x w e u t) := by
  obtain ⟨hframe, hother⟩ := h.setTile (t.startVector o w)
  rw [vectorStarted, ho]
  refine ⟨?_, hother⟩
  rw [hframe]
  rfl

theorem startOp_tileOrFault (h : OnlyTile x s u) : TileOrFault x (o.outOfRange = false) s (startOp k x w e u t) := by
  rw [startOp_eq, ho]
  simpa only [true_and] using ((vectorStarted_draws ho h).tileOrFault True).thenMayFault o.outOfRange

theorem startOp_draws (h : OnlyTile x s u) (hr : o.outOfRange = false) : OnlyTileDraws x s (startOp k x w e u t) := by
  rw [startOp_eq, ho, hr]
  exact vectorStarted_draws ho h

end Start

/-! ### Its issue -/

/-- The instruction that a vector command puts in flight. -/
def issuedOp (s : State) (x : Site) (k : VKind) (w : BitVec 43) (e : Option (BitVec 26)) : VOp :=
  mkVOp s.fuse.b0 k (issueTile s x) s.free w (e.getD 0)

@[simp] theorem issueState_fuse (s : State) (x : Site) : (issueState s x).fuse = s.fuse := by simp [issueState]
@[simp] theorem issueState_free (s : State) (x : Site) : (issueState s x).free = s.free := by simp [issueState]

/-- In the issue cycle the same instruction starts as in the state before; the command that the bundle holds plays no part. -/
theorem mkVOp_begun (s : State) (x : Site) (k : VKind) (w : BitVec 43) (t : Tile) (i : Instr) :
    mkVOp ((issueState s x).setTile x t).fuse.b0 k ((issueTile s x).holdSlot .vector i) ((issueState s x).setTile x t).free w 0 =
      issuedOp s x k w none := by
  rw [setTile_fuse, setTile_free, issueState_fuse, issueState_free]
  rfl

theorem mkVOp_closing (s : State) (x : Site) (k : VKind) (w : BitVec 43) (v : BitVec 26) :
    mkVOp (issueState s x).fuse.b0 k (issueTile s x) (issueState s x).free w v = issuedOp s x k w (some v) := by
  rw [issueState_fuse, issueState_free]
  rfl

/-- Tile x once a vector command has issued: its instruction is in flight, the slot is taken, and with VEXT the bundle has closed (R167). -/
def vectorIssued (s : State) (x : Site) (k : VKind) (w : BitVec 43) (e : Option (BitVec 26)) : Tile :=
  let T := issueTile s x
  let o := issuedOp s x k w e
  { (if e.isSome then T.next else T.holdSlot .vector (vectorInstr k x w e)) with
    vops := T.vops ++ [o], regWrites := (T.startVector o w).regWrites }

section Issue
variable {s : State} {x : Site} {k : VKind} {w : BitVec 43} (h : Issues s x) (hv : (s.tile x).slotTaken .vector = false)
include h hv

theorem issueVector_none (hc : vectorCode k (issueTile s x) w none = none) :
    issueVector k x w none s = startOp k x w 0
      ((issueState s x).setTile x ((issueTile s x).holdSlot .vector (vectorInstr k x w none)))
      ((issueTile s x).holdSlot .vector (vectorInstr k x w none)) := by
  rw [issueVector]
  exact beginSlot_begin h.1 hv h.bundle hc

theorem issueVector_some {v : BitVec 26} (hc : vectorCode k (issueTile s x) w (some v) = none) :
    issueVector k x w (some v) s = (startOp k x w v (issueState s x) (issueTile s x)).onTile x Tile.closeBundle := by
  rw [issueVector, if_neg (by simp [hv]), closeSlot_close h.1 h.bundle hc]

variable {e : Option (BitVec 26)} (hc : vectorCode k (issueTile s x) w e = none)
include hc

theorem issueVector_tile : (issueVector k x w e s).tile x = vectorIssued s x k w e := by
  cases e with
  | none =>
    rw [issueVector_none h hv hc, startOp_tile (mkVOp_begun s x k w _ _), Tile.holdSlot, startVector_bundle, startVector_frame]
    rfl
  | some v =>
    have hs : ((issueTile s x).startVector (issuedOp s x k w (some v)) w).stall = .none := by
      rw [startVector_frame]
      exact issueTile_stall h.1
    rw [issueVector_some h hv hc, onTile_tile, startOp_tile (mkVOp_closing s x k w v), closeBundle_next hs, startVector_frame]
    rfl

theorem issueVector_tileOrFault : TileOrFault x ((issuedOp s x k w e).outOfRange = false) s (issueVector k x w e s) := by
  cases e with
  | none =>
    rw [issueVector_none h hv hc]
    exact startOp_tileOrFault (mkVOp_begun s x k w _ _) ((issueState_onlyTile s x).setTile _)
  | some v =>
    rw [issueVector_some h hv hc]
    exact (startOp_tileOrFault (mkVOp_closing s x k w v) (issueState_onlyTile s x)).onTile _

theorem issueVector_draws (hr : (issuedOp s x k w e).outOfRange = false) : OnlyTileDraws x s (issueVector k x w e s) := by
  cases e with
  | none =>
    rw [issueVector_none h hv hc]
    exact startOp_draws (mkVOp_begun s x k w _ _) ((issueState_onlyTile s x).setTile _) hr
  | some v =>
    rw [issueVector_some h hv hc]
    exact (startOp_draws (mkVOp_closing s x k w v) (issueState_onlyTile s x) hr).onTile _

end Issue

end Sys2Proof.Machine
end

section
/-! PROOFS. What a beat writes: elements of vector registers (R141, R145), and bytes of tile memory (R197, R218, R221). -/

namespace Sys2Proof.Machine

/-! ### An element of a vector register -/

/-- A number with a field replaced: what lies below it, the new value, what lies above it. -/
theorem field_replaced (x v sh n : Nat) :
    x - x / 2 ^ sh % 2 ^ n * 2 ^ sh + v * 2 ^ sh = x % 2 ^ sh + 2 ^ sh * (v + 2 ^ n * (x / 2 ^ sh / 2 ^ n)) := by
  have hx := Nat.mod_add_div x (2 ^ sh)
  have hf := Nat.mod_add_div (x / 2 ^ sh) (2 ^ n)
  rw [← hf, Nat.mul_add] at hx
  rw [Nat.mul_add, Nat.mul_comm _ (2 ^ sh), Nat.mul_comm v]
  omega

/-- The field replaced is the new value. -/
theorem field_replaced_self {x v sh n : Nat} (hv : v < 2 ^ n) : (x - x / 2 ^ sh % 2 ^ n * 2 ^ sh + v * 2 ^ sh) / 2 ^ sh % 2 ^ n = v := by
  rw [field_replaced, Nat.add_mul_div_left _ _ (by positivity), Nat.div_eq_of_lt (Nat.mod_lt _ (by positivity)), Nat.zero_add,
    Nat.add_mul_mod_self_left, Nat.mod_eq_of_lt hv]

/-- Above the field nothing changes. -/
theorem field_replaced_above {x v sh n m : Nat} (hv : v < 2 ^ n) (hm : sh + n ≤ m) :
    (x - x / 2 ^ sh % 2 ^ n * 2 ^ sh + v * 2 ^ sh) / 2 ^ m = x / 2 ^ m := by
  obtain ⟨k, rfl⟩ := Nat.exists_eq_add_of_le hm
  rw [pow_add, pow_add, ← Nat.div_div_eq_div_mul, ← Nat.div_div_eq_div_mul, ← Nat.div_div_eq_div_mul, ← Nat.div_div_eq_div_mul,
    field_replaced, Nat.add_mul_div_left _ _ (by positivity), Nat.div_eq_of_lt (Nat.mod_lt _ (by positivity)), Nat.zero_add,
    Nat.add_mul_div_left _ _ (by positivity), Nat.div_eq_of_lt hv, Nat.zero_add]

/-- Two words of a register as one number. -/
def Tile.vpair (t : Tile) (r i : Nat) : Nat := (t.vword r i).toNat + (t.vword r (i + 1)).toNat * 2 ^ 32

theorem vpair_lt (t : Tile) (r i : Nat) : t.vpair r i < 2 ^ 64 := by
  have h0 := (t.vword r i).isLt
  have h1 := (t.vword r (i + 1)).isLt
  unfold Tile.vpair
  omega

theorem vput_frame (t : Tile) (r lo n v : Nat) : t.vput r lo n v = { t with vregs := (t.vput r lo n v).vregs } := by
  unfold Tile.vput
  split <;> rfl

/-- The two words that hold a written element are the old ones with its field replaced. -/
theorem vput_vpair (t : Tile) (r lo : Nat) {n v : Nat} (hn : n ≤ 32) (hv : v < 2 ^ n) : (t.vput r lo n v).vpair r (lo / 32) =
    t.vpair r (lo / 32) - t.vpair r (lo / 32) / 2 ^ (lo % 32) % 2 ^ n * 2 ^ (lo % 32) + v * 2 ^ (lo % 32) := by
  generalize hy : t.vpair r (lo / 32) - t.vpair r (lo / 32) / 2 ^ (lo % 32) % 2 ^ n * 2 ^ (lo % 32) + v * 2 ^ (lo % 32) = y
  have hput : (t.vput r lo n v).vregs =
      if 32 < lo % 32 + n then
        SMap.set 0 (SMap.set 0 t.vregs (4096 * r + lo / 32) (BitVec.ofNat 32 y)) (4096 * r + lo / 32 + 1) (BitVec.ofNat 32 (y / 2 ^ 32))
      else SMap.set 0 t.vregs (4096 * r + lo / 32) (BitVec.ofNat 32 y) := by
    rw [Tile.vput, if_neg (by omega), Nat.mod_eq_of_lt hv, ← hy]
    rfl
  have hlow : ((t.vput r lo n v).vword r (lo / 32)).toNat = y % 2 ^ 32 := by
    rw [Tile.vword, hput]
    split
    · rw [SMap.get_set_ne _ _ _ (by omega), SMap.get_set_self, BitVec.toNat_ofNat]
    · rw [SMap.get_set_self, BitVec.toNat_ofNat]
  have hhigh : ((t.vput r lo n v).vword r (lo / 32 + 1)).toNat = y / 2 ^ 32 := by
    rw [Tile.vword, ← Nat.add_assoc, hput]
    split
    · have hlt : y / 2 ^ 32 / 2 ^ 32 = 0 := by
        rw [Nat.div_div_eq_div_mul, ← pow_add, ← hy, field_replaced_above hv (by omega), Nat.div_eq_of_lt (vpair_lt t r _)]
      rw [SMap.get_set_self, BitVec.toNat_ofNat, Nat.mod_eq_of_lt (by omega)]
    · rw [SMap.get_set_ne _ _ _ (by omega), ← hy, field_replaced_above hv (by omega), Tile.vpair,
        Nat.add_mul_div_right _ _ (by decide), Nat.div_eq_of_lt (t.vword r (lo / 32)).isLt, Nat.zero_add]
      rfl
  rw [Tile.vpair, hlow, hhigh]
  omega

/-- The two words of a 64-bit element are its halves. -/
theorem vput_vpair64 (t : Tile) (r lo : Nat) {v : Nat} (hv : v < 2 ^ 64) : (t.vput r lo 64 v).vpair r (lo / 32) = v := by
  have hput : (t.vput r lo 64 v).vregs = SMap.set 0 (SMap.set 0 t.vregs (4096 * r + lo / 32) (BitVec.ofNat 32 v))
      (4096 * r + lo / 32 + 1) (BitVec.ofNat 32 (v / 2 ^ 32)) := by
    rw [Tile.vput, if_pos rfl]
  rw [Tile.vpair, Tile.vword, Tile.vword, hput, SMap.get_set_ne _ _ _ (by omega), SMap.get_set_self, ← Nat.add_assoc, SMap.get_set_self,
    BitVec.toNat_ofNat, BitVec.toNat_ofNat]
  omega

/-- A written element reads as its value (R141). -/
theorem vput_velem {n v : Nat} (hn : 0 < n ∧ n ≤ 32 ∨ n = 64) (hv : v < 2 ^ n) (t : Tile) (r ofs k : Nat) :
    (t.vput r (2048 * ofs + k * n) n v).velem n r ofs k = v := by
  rcases hn with ⟨-, hn⟩ | rfl
  · have hpair := vput_vpair t r (2048 * ofs + k * n) hn hv
    rw [Tile.velem, if_neg (by omega)]
    exact (congrArg (fun y => y / 2 ^ _ % 2 ^ n) hpair).trans (field_replaced_self hv)
  · rw [Tile.velem, if_pos rfl]
    exact vput_vpair64 t r (2048 * ofs + k * 64) hv

/-- Elements of vector registers are written, one after another. -/
def Tile.putElems (t : Tile) (ws : List VWrite) : Tile := ws.foldl (fun t w => t.vput w.reg w.bit w.width w.value) t

theorem putElems_frame (t : Tile) (ws : List VWrite) : t.putElems ws = { t with vregs := (t.putElems ws).vregs } :=
  foldl_keeps (fun u : Tile => u = { t with vregs := u.vregs }) _ (fun u w hu => by rw [vput_frame, hu]) ws t rfl

/-! ### Bytes of tile memory -/

theorem portWrite_frame (t : Tile) (c rank draw a : Nat) (bs : List Byte) : t.portWrite c rank draw a bs =
    { t with mem := (t.portWrite c rank draw a bs).mem, upset := (t.portWrite c rank draw a bs).upset,
             ports := (t.portWrite c rank draw a bs).ports } := rfl

theorem memPutIf_write {ok : Nat → Bool} (hok : ∀ k, ok k = true) (bs : List Byte) : ∀ (m : Memory) {a : Nat}, a + bs.length ≤ tileTop →
    memPutIf ok m a bs = m.write a bs := by
  induction bs with
  | nil => intros; rfl
  | cons b bs ih =>
    intro m a ha
    have hlt : a < tileTop := by simp at ha; omega
    have hmod : a % 2 ^ 21 = a := Nat.mod_eq_of_lt (hlt.trans (by decide))
    rw [memPutIf, hmod, if_pos ⟨hlt, hok a⟩, ih _ (by simp at ha; omega), Memory.write]

/-- A scheduled write that lies in memory, meets no other granule in its banks and is not overridden writes its bytes (R218, R221). -/
theorem portWrite_mem {t : Tile} {c rank a : Nat} (draw : Nat) {bs : List Byte} (ha : a + bs.length ≤ tileTop)
    (hn : NoClash (t.putsAt c) a bs.length) (ho : ∀ k, t.overridden c rank k = false) :
    (t.portWrite c rank draw a bs).mem = t.mem.write a bs := by
  have hbs : (bs.zipIdx.map fun p => if bankMeets (t.putsAt c) (granOf (a + p.2)) then Config.clashByte draw c (a + p.2) else p.1) = bs := by
    refine (List.map_congr_left fun p hp => ?_).trans (List.zipIdx_map_fst 0 bs)
    rw [hn p.2 (List.snd_lt_of_mem_zipIdx hp)]
    rfl
  exact (congrArg (memPutIf _ t.mem a) hbs).trans (memPutIf_write (fun k => by simp [ho k]) bs t.mem ha)

theorem portWrite_byteAt_inside {t : Tile} {c rank a : Nat} (draw : Nat) {bs : List Byte} (ha : a + bs.length ≤ tileTop)
    (hn : NoClash (t.putsAt c) a bs.length) (ho : ∀ k, t.overridden c rank k = false) {i : Nat} (hi : i < bs.length) :
    (t.portWrite c rank draw a bs).byteAt (a + i) = bs[i] := by
  have hlt : a + i < tileTop := by omega
  have hmod : (a + i) % 2 ^ 21 = a + i := Nat.mod_eq_of_lt (hlt.trans (by decide))
  rw [Tile.byteAt, hmod, if_pos hlt, portWrite_mem draw ha hn ho]
  exact Memory.byte_write_inside bs t.mem a i hi

theorem portWrite_byteAt_outside {t : Tile} {c rank a : Nat} (draw : Nat) {bs : List Byte} (ha : a + bs.length ≤ tileTop)
    (hn : NoClash (t.putsAt c) a bs.length) (ho : ∀ k, t.overridden c rank k = false) {k : Nat} (hk : k < 2 ^ 21)
    (hout : k < a ∨ a + bs.length ≤ k) : (t.portWrite c rank draw a bs).byteAt k = t.byteAt k := by
  rw [Tile.byteAt, Nat.mod_eq_of_lt hk, portWrite_mem draw ha hn ho, Memory.byte_write_outside bs t.mem a k hout, Tile.byteAt,
    Nat.mod_eq_of_lt hk]

/-- The bytes that a beat of an instruction stores in cycle c. -/
def Tile.putBytes (t : Tile) (op : VOp) (c : Nat) (ss : List (Nat × List Byte)) : Tile :=
  ss.foldl (fun t p => t.portWrite c (issueRank op.issue 2) op.draw p.1 p.2) t

theorem putBytes_frame (t : Tile) (op : VOp) (c : Nat) (ss : List (Nat × List Byte)) : t.putBytes op c ss =
    { t with mem := (t.putBytes op c ss).mem, upset := (t.putBytes op c ss).upset, ports := (t.putBytes op c ss).ports } :=
  foldl_keeps (fun u : Tile => u = { t with mem := u.mem, upset := u.upset, ports := u.ports }) _
    (fun u p hu => by rw [portWrite_frame, hu]) ss t rfl

end Sys2Proof.Machine
end

section
/-! PROOFS. VECTOR_BEAT_WRITE (R145, R147, R211), and O16. -/

namespace Sys2Proof.Machine

/-! ### One beat -/

/-- The granules that a beat's stores note in debug mode (R231). -/
def BeatResult.noted (r : BeatResult) : List Nat := (r.stores.flatMap fun p => rangeGrans p.1 p.2.length).eraseDups

theorem applyBeat_eq (t : Tile) (op : VOp) (c : Nat) (r : BeatResult) : t.applyBeat op c r =
    (((t.putElems r.writes).putBytes op c r.stores).noteWrites r.noted).countEvents c r.events := rfl

/-- A beat writes elements and bytes; beside them only bank ports, the checks of debug mode and census events change. -/
theorem applyBeat_frame (t : Tile) (op : VOp) (c : Nat) (r : BeatResult) : t.applyBeat op c r =
    { t with vregs := (t.putElems r.writes).vregs, mem := ((t.putElems r.writes).putBytes op c r.stores).mem,
             upset := (t.applyBeat op c r).upset, ports := (t.applyBeat op c r).ports, found := (t.applyBeat op c r).found,
             gran := (t.applyBeat op c r).gran, census := (t.applyBeat op c r).census, events := (t.applyBeat op c r).events } := by
  rw [applyBeat_eq, noteWrites_frame, putBytes_frame, putElems_frame]
  rfl

theorem velem_congr {t u : Tile} (h : u.vregs = t.vregs) (n r ofs k : Nat) : u.velem n r ofs k = t.velem n r ofs k := by
  simp only [Tile.velem, Tile.vword, h]

/-- An instruction that stays is one beat further, and has a beat left (R145). -/
theorem mem_passBeat {t : Tile} {op v : VOp} (h : v ∈ (t.passBeat op).vops) (hi : v.issue = op.issue) :
    op.next + 1 < op.beats ∧ v.next = op.next + 1 := by
  unfold Tile.passBeat at h
  dsimp only at h
  by_cases hlast : op.beats ≤ op.next + 1
  · rw [if_pos hlast] at h
    have hne := (List.mem_filter.mp h).2
    simp [hi] at hne
  · rw [if_neg hlast] at h
    obtain ⟨u, -, rfl⟩ := List.mem_map.mp h
    by_cases hu : u.issue = op.issue
    · rw [if_pos (beq_iff_eq.mpr hu)]
      exact ⟨by omega, rfl⟩
    · rw [if_neg (by simpa using hu)] at hi
      exact absurd hi hu

/-- The tile once a beat of an instruction has written, the instruction is one beat further, and what it has met is reported. -/
def Tile.afterBeat (t : Tile) (op : VOp) (c : Nat) (r : BeatResult) : Tile :=
  { (t.applyBeat op c r).passBeat op with upset := false, found := [] }

section Beat
variable (t : Tile) (op : VOp) (c : Nat) {r : BeatResult}

theorem afterBeat_frame : t.afterBeat op c r =
    { t with vregs := (t.putElems r.writes).vregs, mem := ((t.putElems r.writes).putBytes op c r.stores).mem,
             vops := ((t.applyBeat op c r).passBeat op).vops, upset := false, ports := (t.applyBeat op c r).ports, found := [],
             gran := (t.applyBeat op c r).gran, census := (t.applyBeat op c r).census, events := (t.applyBeat op c r).events } := by
  have happly := applyBeat_frame t op c r
  have hpass : t.afterBeat op c r = { t.applyBeat op c r with
      vops := ((t.applyBeat op c r).passBeat op).vops, upset := false, found := [] } := rfl
  rw [hpass]
  generalize ((t.applyBeat op c r).passBeat op).vops = vs
  rw [happly]

theorem afterBeat_vregs_same (hr : r.writes = []) : (t.afterBeat op c r).vregs = t.vregs := by
  rw [afterBeat_frame, hr]
  rfl

theorem afterBeat_memSame (hr : r.stores = []) : TileMemSame t (t.afterBeat op c r) := by
  refine tileMemSame_of_mem ?_
  rw [afterBeat_frame, hr, putElems_frame]
  rfl

/-- After a beat that writes one element, it reads as its value. -/
theorem afterBeat_velem {v : VWrite} (hr : r.writes = [v]) {ofs i : Nat} (hbit : v.bit = 2048 * ofs + i * v.width)
    (hn : 0 < v.width ∧ v.width ≤ 32 ∨ v.width = 64) (hv : v.value < 2 ^ v.width) :
    (t.afterBeat op c r).velem v.width v.reg ofs i = v.value := by
  have hput : (t.afterBeat op c r).vregs = (t.vput v.reg (2048 * ofs + i * v.width) v.width v.value).vregs := by
    rw [afterBeat_frame, hr, ← hbit]
    rfl
  exact (velem_congr hput _ _ _ _).trans (vput_velem hn hv t v.reg ofs i)

/-- After a beat with one store, memory is as that one write leaves it, whatever elements the beat writes. -/
theorem afterBeat_stores {a : Nat} {bs : List Byte} (hr : r.stores = [(a, bs)]) :
    TileMemSame (t.portWrite c (issueRank op.issue 2) op.draw a bs) (t.afterBeat op c r) := by
  refine tileMemSame_of_mem ?_
  rw [afterBeat_frame, hr, putElems_frame]
  rfl

theorem mem_afterBeat {v : VOp} (h : v ∈ (t.afterBeat op c r).vops) (hi : v.issue = op.issue) :
    op.next + 1 < op.beats ∧ v.next = op.next + 1 := mem_passBeat (t := t.applyBeat op c r) h hi

end Beat

/-! ### The command -/

/-- The state once the next beat of instruction o, with its results, has written to tile x as it stands before the beat (R145); with the
first beat of a descriptor of unpredictable results the job may fault (R11, R226). -/
def beatWritten (s : State) (x : Site) (o : VOp) (t : Tile) (r : BeatResult) : State :=
  let u := (toCycle s ((s.tile x).beatDue o)).putTile x ((t.applyBeat o ((s.tile x).beatDue o) r).passBeat o)
  if (latchDesc (s.tile x) (o.issue + 3) o).misled then mayFault u else u

theorem exec_vectorBeatWrite {s : State} {x : Site} {o p : VOp} {t : Tile} {r : BeatResult} (hr : s.dev = .run)
    (hp : (s.tile x).pwr = .active) (ho : nextBeatOp (s.tile x).vops (s.tile x).beatDue = some o)
    (ht : ((s.tile x).settleRows ((s.tile x).beatDue o, issueRank o.issue 2)).beforeBeat ((s.tile x).beatDue o) = t)
    (hfind : t.vops.find? (fun v => v.issue == o.issue) = some p) (hres : p.results[o.next]? = some r) :
    exec (.vectorBeatWrite x) s = .next (beatWritten s x o t r) := by
  have hbeat : t.oneBeat o ((s.tile x).beatDue o) = some ((t.applyBeat o ((s.tile x).beatDue o) r).passBeat o) := by
    rw [Tile.oneBeat, hfind, Option.bind_some, hres]
    rfl
  change execVectorBeatWrite x s = _
  simp only [execVectorBeatWrite, hr, hp, ho, beq_self_eq_true, Bool.and_self, if_true, ht, hbeat]
  rfl

section Written
variable (s : State) (x : Site) (o : VOp) (t : Tile) (r : BeatResult)

theorem beatWritten_tileOrFault : TileOrFault x
    (((t.applyBeat o ((s.tile x).beatDue o) r).passBeat o).upset = false ∧ (latchDesc (s.tile x) (o.issue + 3) o).misled = false) s
    (beatWritten s x o t r) :=
  (putTile_tileOrFault (OnlyTile.toCycle x s _) fun hu => hu).thenMayFault _

theorem beatWritten_cycle : (beatWritten s x o t r).cycle = Nat.max s.cycle ((s.tile x).beatDue o) := by
  rw [beatWritten, ite_mayFault_cycle, putTile_cycle]
  exact toCycle_cycle s _

theorem beatWritten_tile : (beatWritten s x o t r).tile x = t.afterBeat o ((s.tile x).beatDue o) r := by
  rw [beatWritten, ite_mayFault_tile, putTile_tile]
  rfl

end Written

/-- Settles O16: a command starts `issuedOp` (`issueVector_tile`, whatever the kind and its VEXT); a beat is `Tile.afterBeat` on the tile
as it stands before the beat, put back. -/
theorem vectorSlot : Obligations.VectorSlot := by
  unfold Obligations.VectorSlot
  constructor
  · intro s x w e k h hv T i hc hform inc
    have htile := issueVector_tile h hv hc
    have hregs : ((issueVector k x w e s).tile x).regWrites = (T.startVector (issuedOp s x k w e) w).regWrites := by
      rw [htile]
      rfl
    refine ⟨issueVector k x w e s, issuedOp s x k w e, exec_vectorInstr hform x w s, issueVector_tileOrFault h hv hc,
      issueVector_draws h hv hc, ?_, rfl, rfl, rfl, rfl, rfl, rfl, rfl, rfl, rfl, fun he => ?_, fun hinc => ?_, fun hinc => ?_⟩
    · rw [hregs]
      exact htile
    · exact if_pos ((needsExt_of_vectorCode hc).trans he)
    · exact hregs.trans (startVector_regWrites_same hinc)
    · have hw : ((issueVector k x w e s).tile x).Awaits (incWrite T w) := ⟨_, hregs.trans (startVector_regWrites_inc hinc.1 hinc.2)⟩
      exact hw.upTo_areg rfl rfl
  · intro s x o p r hr hp ho c T hfind hres
    refine ⟨beatWritten s x o T r, exec_vectorBeatWrite hr hp ho rfl hfind hres, beatWritten_tileOrFault s x o T r,
      beatWritten_cycle s x o T r, ?_⟩
    rw [beatWritten_tile]
    refine ⟨afterBeat_vregs_same T o c, afterBeat_memSame T o c, fun v ofs i hw hbit hn hv => afterBeat_velem T o c hw hbit hn hv,
      fun a bs hs ha hn hov => ⟨fun i hi => ?_, fun k hk hout => ?_⟩, ?_, ?_, ?_, ?_, fun v hv hi => mem_afterBeat T o c hv hi⟩
    · exact (afterBeat_stores T o c hs (a + i)).trans (portWrite_byteAt_inside o.draw ha hn hov hi)
    · exact (afterBeat_stores T o c hs k).trans (portWrite_byteAt_outside o.draw ha hn hov hk hout)
    all_goals rw [afterBeat_frame]

end Sys2Proof.Machine
end

section
/-! PROOFS. Issue in the matrix slot: what a command that draws free values may change, and the feeding instructions (R74, R81, R116,
R186, R187, R189). -/

namespace Sys2Proof.Machine

/-! ### Output tiles -/

theorem acc_setAcc_other (t : Tile) {i : Nat} (h : i ≤ 1) (a : AccTile) : (t.setAcc i a).acc (1 - i) = t.acc (1 - i) := by
  have hi : i = 0 ∨ i = 1 := by omega
  rcases hi with rfl | rfl <;> rfl

/-- A command that puts its tile back and draws free values. -/
theorem OnlyTile.setTile_drew {x : Site} {s u : State} (h : OnlyTile x s u) (T : Tile) (n : Nat) : OnlyTileDraws x s (drew (u.setTile x T) n) := by
  obtain ⟨hframe, hother⟩ := h.setTile T
  refine ⟨?_, hother⟩
  rw [hframe]
  rfl

/-- What a command may do where more is calm, it may do where less is. -/
theorem TileOrFault.mono {x : Site} {s t : State} {calm calm' : Prop} (h : TileOrFault x calm s t) (hc : calm' → calm) :
    TileOrFault x calm' s t := by
  obtain ⟨hframe, hother, hcalm⟩ := h
  exact ⟨hframe, hother, fun h => hcalm (hc h)⟩

/-- Tile x in the cycle in which its bundle issues, with a command in the matrix slot. -/
def matrixHeld (s : State) (x : Site) (i : Instr) : State := (issueState s x).setTile x ((issueTile s x).holdSlot .matrix i)

theorem matrixHeld_onlyTile (s : State) (x : Site) (i : Instr) : OnlyTile x s (matrixHeld s x i) := (issueState_onlyTile s x).setTile _

theorem matrixHeld_free (s : State) (x : Site) (i : Instr) : (matrixHeld s x i).free = s.free := by
  rw [matrixHeld, setTile_free, issueState_free]

/-- A command of the matrix slot has its effect where its bundle issues, the slot is free and no code is met. -/
theorem matrixSlot_begins {s : State} {x : Site} {i : Instr} {code : State → Tile → Option Nat} {effect : State → Tile → State}
    (h : Issues s x) (hm : (s.tile x).slotTaken .matrix = false) (hc : code (issueState s x) (issueTile s x) = none) :
    beginSlot s x .matrix i code effect = effect (matrixHeld s x i) ((issueTile s x).holdSlot .matrix i) :=
  beginSlot_begin h.1 hm h.bundle hc

/-! ### The feeding instruction -/

theorem exec_feedInstr (op : FeedOp) (x : Site) (w : BitVec 43) (s : State) : exec (feedInstr op x w) s = .next (issueFeed op x w s) := by
  cases op <;> rfl

/-- A tile whose feeds a new one joins: with ACC = 0 it sets the kind of its output tile (R116). -/
def Tile.startFeed (t : Tile) (f : Feed) : Tile :=
  if f.add then { t with feeds := t.feeds ++ [f] }
  else ({ t with feeds := t.feeds ++ [f] } : Tile).setAcc f.acc { t.acc f.acc with kind := f.kind }

section Start
variable (t : Tile) {f : Feed}

theorem startFeed_add (h : f.add = true) : t.startFeed f = { t with feeds := t.feeds ++ [f] } := if_pos h

theorem startFeed_set (h : f.add = false) :
    t.startFeed f = ({ t with feeds := t.feeds ++ [f] } : Tile).setAcc f.acc { t.acc f.acc with kind := f.kind } := if_neg (by simp [h])

theorem startFeed_frame : t.startFeed f =
    { t with feeds := t.feeds ++ [f], acc0 := (t.startFeed f).acc0, acc1 := (t.startFeed f).acc1 } := by
  cases h : f.add
  · rw [startFeed_set t h, setAcc_frame]
  · rw [startFeed_add t h]

theorem startFeed_acc_add (h : f.add = true) (k : Nat) : (t.startFeed f).acc k = t.acc k := by
  rw [startFeed_add t h]
  rfl

theorem startFeed_acc_set (h : f.add = false) : (t.startFeed f).acc f.acc = { t.acc f.acc with kind := f.kind } := by
  rw [startFeed_set t h, acc_setAcc_self]

theorem startFeed_acc_other (hf : f.acc ≤ 1) : (t.startFeed f).acc (1 - f.acc) = t.acc (1 - f.acc) := by
  cases h : f.add
  · rw [startFeed_set t h, acc_setAcc_other _ hf]
    rfl
  · exact startFeed_acc_add t h _

end Start

/-- The kind that ACC = 0 sets, as R116 and R188 give it by mode and format. -/
theorem feedKind_eq (mode fa : Nat) : feedKind mode fa =
    if 3 ≤ mode then (if fa = 0xB then .extremumI else .extremumF) else if fa = 0xB then .integer
    else if fa = 0xE ∨ fa = 0xF then .slice else .window := by
  simp [feedKind, isExtremum, isSlice, fINT8]
  rfl

theorem mkFeed_t0_free {op : FeedOp} {t : Tile} {draw : Nat} {w : BitVec 43} (h : t.drainOf (fld w 42 1) = none) :
    (mkFeed op t draw w).t0 = t.now + 7 := by
  simp only [mkFeed, fT, h]

theorem mkFeed_t0_drained {op : FeedOp} {t : Tile} {draw d : Nat} {w : BitVec 43} (h : t.drainOf (fld w 42 1) = some d) :
    (mkFeed op t draw w).t0 = max (t.now + 7) (d + 23) := by
  simp only [mkFeed, fT, h]

/-- The feeding instruction that a command puts in flight. -/
def issuedFeed (s : State) (x : Site) (op : FeedOp) (w : BitVec 43) : Feed := mkFeed op (issueTile s x) s.free w

theorem mkFeed_acc_le (op : FeedOp) (t : Tile) (draw : Nat) (w : BitVec 43) : (mkFeed op t draw w).acc ≤ 1 :=
  Nat.le_of_lt_succ (Nat.mod_lt _ (by decide))

/-- What the bundle holds plays no part in the instruction. -/
theorem mkFeed_holdSlot (op : FeedOp) (t : Tile) (i : Instr) (draw : Nat) (w : BitVec 43) :
    mkFeed op (t.holdSlot .matrix i) draw w = mkFeed op t draw w := rfl

theorem issueFeed_slot (op : FeedOp) (x : Site) (w : BitVec 43) (s : State) : issueFeed op x w s =
    beginSlot s x .matrix (feedInstr op x w) (fun _ t => feedCode op t w)
      fun s t => drew (s.setTile x (t.startFeed (mkFeed op t s.free w))) feedDraws := rfl

theorem issueFeed_eq {s : State} {x : Site} {op : FeedOp} {w : BitVec 43} (h : Issues s x) (hm : (s.tile x).slotTaken .matrix = false)
    (hc : feedCode op (issueTile s x) w = none) : issueFeed op x w s =
      drew ((matrixHeld s x (feedInstr op x w)).setTile x
        (((issueTile s x).holdSlot .matrix (feedInstr op x w)).startFeed (issuedFeed s x op w))) feedDraws := by
  rw [issueFeed_slot, matrixSlot_begins h hm hc, matrixHeld_free, mkFeed_holdSlot, ← issuedFeed]

section Issue
variable {s : State} {x : Site} {op : FeedOp} {w : BitVec 43} (h : Issues s x) (hm : (s.tile x).slotTaken .matrix = false)
  (hc : feedCode op (issueTile s x) w = none)
include h hm hc

theorem issueFeed_tile : (issueFeed op x w s).tile x =
    ((issueTile s x).holdSlot .matrix (feedInstr op x w)).startFeed (issuedFeed s x op w) := by
  rw [issueFeed_eq h hm hc, tile_congr (drew_tiles _ _), setTile_tile]

theorem issueFeed_draws : OnlyTileDraws x s (issueFeed op x w s) := by
  rw [issueFeed_eq h hm hc]
  exact (matrixHeld_onlyTile s x _).setTile_drew _ _

theorem issueFeed_free : (issueFeed op x w s).free = s.free + feedDraws := by
  rw [issueFeed_eq h hm hc, drew_free, setTile_free, matrixHeld_free]

end Issue

end Sys2Proof.Machine
end

section
/-! PROOFS. SLICE_ACCUMULATE (R63, R85, R126), and O13. -/

namespace Sys2Proof.Machine

/-! ### The elements of a tile made anew -/

/-- The entries that a function makes for a list of keys, those left out that read as an unlisted key does. -/
theorem get_filterMap (F : Nat → Elem) (k : Nat) (js : List Nat) :
    SMap.get Elem.zero (js.filterMap fun j => if F j = Elem.zero then none else some (j, F j)) k = if k ∈ js then F k else Elem.zero := by
  induction js with
  | nil => rfl
  | cons j js ih =>
    have hkeys : k ∈ j :: js ↔ j = k ∨ k ∈ js := by rw [List.mem_cons, eq_comm]
    by_cases hz : F j = Elem.zero
    · rw [if_congr hkeys rfl rfl]
      simp only [List.filterMap_cons, if_pos hz, ih]
      by_cases hjk : j = k
      · rw [hjk] at hz
        simp [hz]
      · simp [hjk]
    · rw [if_congr hkeys rfl rfl]
      simp only [List.filterMap_cons, if_neg hz, SMap.get, SMap.find] at ih ⊢
      by_cases hjk : j = k
      · simp [hjk]
      · simpa [hjk] using ih

/-- An element of a tile that has been made anew is made of the old one in its place. -/
theorem get_mapElems (m : SMap Elem) (g : Nat → Elem → Elem) (k : Nat) :
    SMap.get Elem.zero (mapElems m g) k = if k < 1024 then g k (SMap.get Elem.zero m k) else Elem.zero :=
  (get_filterMap (fun j => g j (SMap.get Elem.zero m j)) k _).trans (if_congr List.mem_range rfl rfl)

/-! ### What one slice makes of an output tile -/

/-- A slice changes elements alone, and makes each anew. -/
theorem accumulate_eq (f : Feed) (w : SliceWords) (bad : Bool) (a : AccTile) :
    ∃ g, (accumulate f w bad a).1 = { a with elems := mapElems a.elems g } := by
  cases bad
  · exact ⟨_, rfl⟩
  · exact ⟨_, rfl⟩

/-- The test at the end of a round marks elements of a slice's tile, and changes nothing else of it (R134). -/
theorem testRound_elem {f : Feed} {w : SliceWords} {bad : Bool} {a : AccTile} (la lb k : Nat) :
    { SMap.get Elem.zero (testRound f.kind la lb (accumulate f w bad a).1).1.elems k with ovr := false } =
      { SMap.get Elem.zero (accumulate f w bad a).1.elems k with ovr := false } := by
  obtain ⟨g, hg⟩ := accumulate_eq f w bad a
  by_cases hk : k < 1024
  · simp only [testRound, get_mapElems, if_pos hk]
  · simp only [testRound, hg, get_mapElems, if_neg hk]

/-- An output tile once a slice has accumulated, with the test where it ends a round of a scaled tile (R134). -/
def Feed.sliceInto (g : Feed) (w : SliceWords) (a : AccTile) : AccTile :=
  let b := (accumulate g w g.bad a).1
  if g.slice + 1 < g.slices then b else if b.scaled then (testRound g.kind w.a.length w.b.length b).1 else b

theorem sliceInto_elem (g : Feed) (w : SliceWords) (a : AccTile) (k : Nat) :
    { SMap.get Elem.zero (g.sliceInto w a).elems k with ovr := false } =
      { SMap.get Elem.zero (accumulate g w g.bad a).1.elems k with ovr := false } := by
  unfold Feed.sliceInto
  dsimp only
  split
  · rfl
  · split
    · exact testRound_elem _ _ k
    · rfl

theorem sliceInto_untested {g : Feed} {a : AccTile} (w : SliceWords) (h : g.slice + 1 < g.slices ∨ a.scaled = false) :
    g.sliceInto w a = (accumulate g w g.bad a).1 := by
  obtain ⟨e, he⟩ := accumulate_eq g w g.bad a
  unfold Feed.sliceInto
  dsimp only
  split
  · rfl
  · next hlast => rw [if_neg (by simpa [he] using h.resolve_left hlast)]

/-- Two tiles that may differ only in the feeds, in what the feeds leave known, and in what counts a LONGSUM event. -/
def SameButFeeds (t u : Tile) : Prop :=
  u = { t with feeds := u.feeds, tLast := u.tLast, tAcc0 := u.tAcc0, tAcc1 := u.tAcc1, census := u.census, events := u.events,
               longsum := u.longsum }

theorem SameButFeeds.trans {t u v : Tile} (h : SameButFeeds t u) (g : SameButFeeds u v) : SameButFeeds t v := by
  unfold SameButFeeds at *
  rw [g, h]

theorem SameButFeeds.setAcc {t u : Tile} (h : SameButFeeds t u) (i : Nat) (a : AccTile) : SameButFeeds (t.setAcc i a) (u.setAcc i a) := by
  unfold SameButFeeds at *
  rw [h]
  unfold Tile.setAcc
  split <;> rfl

theorem sameButFeeds_endFeed (t : Tile) (f : Feed) : SameButFeeds t (t.endFeed f) := (endFeed_frame t f).trans (by rw [endFeed_frame])

/-- A slice changes its output tile, the feeds, and what counts a LONGSUM event; nothing else of the tile. -/
theorem takeSlice_frame (t : Tile) (bypass : Nat) (g : Feed) (w : SliceWords) :
    SameButFeeds (t.setAcc g.acc (g.sliceInto w (t.acc g.acc))) (t.takeSlice bypass g w) := by
  have hslices : ({ g with words := g.words.drop 1, slice := g.slice + 1 } : Feed).slices = g.slices := rfl
  have hcount (cells : List Nat) : SameButFeeds t (cells.foldl (fun t k => t.countEvent (w.at_ + cellDelay bypass k) cLONGSUM) t) := by
    refine foldl_keeps (SameButFeeds t) _ ?_ cells t rfl
    exact fun u k hu => hu.trans rfl
  unfold Tile.takeSlice Feed.sliceInto
  dsimp only
  rw [hslices]
  generalize accumulate g w g.bad (t.acc g.acc) = r
  have hr := hcount r.2
  generalize List.foldl _ t r.2 = u at hr ⊢
  have hu : SameButFeeds t { u with longsum := u.longsum || !r.2.isEmpty } := hr.trans rfl
  generalize ({ u with longsum := u.longsum || !r.2.isEmpty } : Tile) = v at hu ⊢
  split
  · exact (hu.setAcc _ _).trans rfl
  · split
    · exact (hu.setAcc _ _).trans rfl
    · exact (hu.setAcc _ _).trans (sameButFeeds_endFeed _ _)

section Slice
variable (t : Tile) (bypass : Nat) {g : Feed} (w : SliceWords)

theorem takeSlice_acc : (t.takeSlice bypass g w).acc g.acc = g.sliceInto w (t.acc g.acc) := by
  rw [takeSlice_frame t bypass g w]
  exact acc_setAcc_self t g.acc _

theorem takeSlice_acc_other (h : g.acc ≤ 1) : (t.takeSlice bypass g w).acc (1 - g.acc) = t.acc (1 - g.acc) := by
  rw [takeSlice_frame t bypass g w]
  exact acc_setAcc_other t h _

theorem takeSlice_kept : (t.takeSlice bypass g w).upset = t.upset ∧ (t.takeSlice bypass g w).mem = t.mem ∧
    (t.takeSlice bypass g w).sregs = t.sregs ∧ (t.takeSlice bypass g w).aregs = t.aregs ∧
    (t.takeSlice bypass g w).vregs = t.vregs := by
  rw [takeSlice_frame t bypass g w, setAcc_frame]
  exact ⟨rfl, rfl, rfl, rfl, rfl⟩

end Slice

/-- Exact addition of a list of terms (R126). -/
theorem integer_v (e : Elem) (w : Nat) (terms : List Int) : (e.integer w terms).v = e.v + terms.sum := by
  change terms.foldl (· + ·) e.v = e.v + terms.sum
  generalize e.v = v
  induction terms generalizing v with
  | nil => simp
  | cons a terms ih => rw [List.foldl_cons, ih, List.sum_cons, add_assoc]

/-! ### The command -/

/-- The state once tile x, as it stands at the slice, has taken it; with the first slice of a feed of unpredictable results the job may
fault (R11, R68, R69). -/
def sliceTaken (s : State) (x : Site) (t : Tile) (g : Feed) (w : SliceWords) : State :=
  let u := (toCycle s w.shown).putTile x (t.takeSlice (SMap.get 32 s.fuse.bypass x) g w)
  if g.bad && g.round == 0 && g.slice == 0 then mayFault u else u

theorem exec_sliceAccumulate {s : State} {x : Site} {t : Tile} {f g : Feed} {w : SliceWords} (hr : s.dev = .run)
    (hp : (s.tile x).pwr = .active) (hn : nextSlice (s.tile x) = some (t, f, w))
    (hg : t.feeds.find? (fun h => h.issue == f.issue) = some g) :
    exec (.sliceAccumulate x) s = .next (sliceTaken s x t g w) := by
  change execSliceAccumulate x s = _
  simp only [execSliceAccumulate, hr, hp, beq_self_eq_true, Bool.and_self, if_true, hn, hg]
  rfl

section Taken
variable (s : State) (x : Site) (t : Tile) (g : Feed) (w : SliceWords)

theorem sliceTaken_tile : (sliceTaken s x t g w).tile x =
    { t.takeSlice (SMap.get 32 s.fuse.bypass x) g w with upset := false, found := [] } := by
  rw [sliceTaken, ite_mayFault_tile, putTile_tile]

theorem sliceTaken_cycle : (sliceTaken s x t g w).cycle = Nat.max s.cycle w.shown := by
  rw [sliceTaken, ite_mayFault_cycle, putTile_cycle, toCycle_cycle]

theorem sliceTaken_tileOrFault :
    TileOrFault x (t.upset = false ∧ (g.bad = true → g.round ≠ 0 ∨ g.slice ≠ 0)) s (sliceTaken s x t g w) := by
  obtain ⟨hupset, -⟩ := takeSlice_kept t (SMap.get 32 s.fuse.bypass x) (g := g) w
  have hput := (putTile_tileOrFault (calm := t.upset = false) (OnlyTile.toCycle x s w.shown) fun hu => hupset.trans hu).thenMayFault
    (g.bad && g.round == 0 && g.slice == 0)
  refine hput.mono fun ⟨hu, hbad⟩ => ⟨hu, ?_⟩
  cases hb : g.bad
  · rfl
  · have := hbad hb
    simp only [Bool.true_and, Bool.and_eq_false_iff, beq_eq_false_iff_ne]
    exact this

end Taken

/-- Settles O13: a feeding instruction is `Tile.startFeed` on the tile of its issue cycle; a slice is `Tile.takeSlice` on the tile as it
stands at the slice, put back, and makes `Feed.sliceInto` of the output tile. -/
theorem feedsAccumulate : Obligations.FeedsAccumulate := by
  unfold Obligations.FeedsAccumulate
  refine ⟨?_, ?_, integer_v⟩
  · intro s x w op h hm T i hc
    have hi : i = feedInstr op x w := by cases op <;> rfl
    have htile : (issueFeed op x w s).tile x = (T.holdSlot .matrix i).startFeed (mkFeed op T s.free w) :=
      (issueFeed_tile h hm hc).trans (by rw [hi]; rfl)
    have hexec : exec i s = .next (issueFeed op x w s) := by rw [hi, exec_feedInstr]
    have hfree : s.free < (issueFeed op x w s).free := by
      rw [issueFeed_free h hm hc]
      exact Nat.lt_add_of_pos_right (by decide)
    refine ⟨issueFeed op x w s, mkFeed op T s.free w, hexec, issueFeed_draws h hm hc, hfree, ?_⟩
    clear_value T i
    rw [htile]
    refine ⟨startFeed_frame _, rfl, rfl, rfl, rfl, rfl, rfl, rfl, rfl, rfl, rfl, rfl, rfl, rfl, mkFeed_t0_free,
      fun d => mkFeed_t0_drained, feedKind_eq _ _, fun ha => startFeed_acc_set _ ha, fun ha => startFeed_acc_add _ ha _,
      startFeed_acc_other _ (mkFeed_acc_le _ _ _ _)⟩
  · intro s x T f g w hr hp hn hg hacc
    have htile := sliceTaken_tile s x T g w
    obtain ⟨-, hmem, hsregs, haregs, hvregs⟩ := takeSlice_kept T (SMap.get 32 s.fuse.bypass x) (g := g) w
    have hself := takeSlice_acc T (SMap.get 32 s.fuse.bypass x) (g := g) w
    have hother := takeSlice_acc_other T (SMap.get 32 s.fuse.bypass x) w hacc
    have hcycle : w.shown ≤ (sliceTaken s x T g w).cycle := (le_max_right _ _).trans_eq (sliceTaken_cycle s x T g w).symm
    refine ⟨sliceTaken s x T g w, exec_sliceAccumulate hr hp hn hg, (le_max_left _ _).trans hcycle,
      (le_max_right w.at_ (w.rdy + 1)).trans hcycle, sliceTaken_tileOrFault s x T g w, ?_⟩
    rw [htile]
    refine ⟨fun k => ?_, fun h => ?_, hother, tileMemSame_of_mem hmem, hsregs, haregs, hvregs⟩
    · exact (congrArg (fun a : AccTile => { SMap.get Elem.zero a.elems k with ovr := false }) hself).trans
        (sliceInto_elem g w (T.acc g.acc) k)
    · exact congrArg AccTile.elems (hself.trans (sliceInto_untested w h))

end Sys2Proof.Machine
end

section
/-! PROOFS. MDRAIN and MSCALE at issue (R75, R84, R131, R192 to R199). -/

namespace Sys2Proof.Machine

/-! ### The last feed cycle, whatever the bundle holds -/

theorem latchParts_bundle (t : Tile) (b : Bundle) (others : Nat → List Nat) (draw c addr : Nat) : ∀ (n issue parts : Nat) (bs : List Byte),
    latchParts { t with bundle := b } others draw c addr n issue parts bs = latchParts t others draw c addr n issue parts bs
  | 0, _, _, _ => rfl
  | n + 1, issue, parts, bs => by
    unfold latchParts
    rw [latchParts_bundle t b others draw c addr n]
    rfl

theorem latchPeriods_bundle (t : Tile) (b : Bundle) (c : Nat) : ∀ (n : Nat) (f : Feed),
    latchPeriods { t with bundle := b } c n f = latchPeriods t c n f
  | 0, _ => rfl
  | n + 1, f => by
    unfold latchPeriods
    simp only [latchPeriods_bundle t b c n]
    rfl

theorem latchFeed_bundle (t : Tile) (b : Bundle) (c : Nat) (f : Feed) : latchFeed { t with bundle := b } c f = latchFeed t c f := by
  unfold latchFeed
  simp only [latchParts_bundle, latchPeriods_bundle]
  rfl

theorem accTL_holdSlot (t : Tile) (i : Instr) (k : Nat) : (t.holdSlot .matrix i).accTL k = t.accTL k := by
  have hfeed (b : Bundle) (f : Feed) : Tile.feedTL { t with bundle := b } f = t.feedTL f := by
    simp only [Tile.feedTL, latchFeed_bundle]
  unfold Tile.accTL Tile.holdSlot
  simp only [hfeed]

/-! ### MDRAIN -/

/-- What the bundle holds plays no part in the drain. -/
theorem mkDrain_holdSlot (t : Tile) (i : Instr) (draw : Nat) (w : BitVec 43) :
    mkDrain (t.holdSlot .matrix i) draw w = mkDrain t draw w := by
  unfold mkDrain
  rw [accTL_holdSlot]
  rfl

/-- A drain is early where R75 calls it unpredictable. -/
theorem mkDrain_early (t : Tile) (draw : Nat) (w : BitVec 43) :
    (mkDrain t draw w).early = true ↔ ∃ tl, t.accTL (fld w 42 1) = some tl ∧ t.now < tl + 7 := by
  simp only [mkDrain, fT]
  cases t.accTL (fld w 42 1) with
  | none => simp
  | some tl => simp

/-- A tile with one more drain, that of its output tile k. -/
def Tile.startDrain (t : Tile) (k : Nat) (d : Drain) : Tile :=
  { t with drains := t.drains ++ [d], drainAt := some t.now, drain0At := if k = 0 then some t.now else t.drain0At,
           drain1At := if k = 0 then t.drain1At else some t.now }

theorem issueDrain_slot (x : Site) (w : BitVec 43) (s : State) : issueDrain x w s =
    beginSlot s x .matrix (.mdrain x w) (fun _ t => drainCode t w) fun s t =>
      if (mkDrain t s.free w).early then mayFault (drew (s.setTile x (t.startDrain (fld w 42 1) (mkDrain t s.free w))) drainDraws)
      else drew (s.setTile x (t.startDrain (fld w 42 1) (mkDrain t s.free w))) drainDraws := rfl

/-! ### MSCALE -/

/-- What an MSCALE sets, from the cycle after its issue on (R131, R199). -/
def scaleWrite (t : Tile) (w : BitVec 43) : ScaleWrite :=
  { at_ := t.now + 1, acc := fld w 42 1, osc := BitVec.ofNat 8 (mscaleOSC t w), ofmt := BitVec.ofNat 4 (fld w 37 4), scaled := bit w 41 }

theorem scaleWrite_holdSlot (t : Tile) (i : Instr) (w : BitVec 43) : scaleWrite (t.holdSlot .matrix i) w = scaleWrite t w := rfl

/-- A tile with one more scale write on its way. -/
def Tile.startScale (t : Tile) (c : ScaleWrite) : Tile := { t with scaleWrites := t.scaleWrites ++ [c] }

theorem issueScale_slot (x : Site) (w : BitVec 43) (s : State) : issueScale x w s =
    beginSlot s x .matrix (.mscale x w) (fun _ t => mscaleCode t w) fun s t => s.setTile x (t.startScale (scaleWrite t w)) := rfl

/-! ### Their issue -/

section Begun
variable {s : State} {x : Site} {w : BitVec 43} (h : Issues s x) (hm : (s.tile x).slotTaken .matrix = false)
include h hm

section Issue
variable (hc : drainCode (issueTile s x) w = none) {d : Drain} (hd : mkDrain (issueTile s x) s.free w = d)
include hc hd

theorem issueDrain_eq : issueDrain x w s =
    if d.early then mayFault (drew ((matrixHeld s x (.mdrain x w)).setTile x
      (((issueTile s x).holdSlot .matrix (.mdrain x w)).startDrain (fld w 42 1) d)) drainDraws)
    else drew ((matrixHeld s x (.mdrain x w)).setTile x
      (((issueTile s x).holdSlot .matrix (.mdrain x w)).startDrain (fld w 42 1) d)) drainDraws := by
  rw [issueDrain_slot, matrixSlot_begins h hm hc, matrixHeld_free, mkDrain_holdSlot, hd]

theorem issueDrain_tile : (issueDrain x w s).tile x =
    ((issueTile s x).holdSlot .matrix (.mdrain x w)).startDrain (fld w 42 1) d := by
  rw [issueDrain_eq h hm hc hd, ite_mayFault_tile, tile_congr (drew_tiles _ _), setTile_tile]

theorem issueDrain_tileOrFault : TileOrFault x (d.early = false) s (issueDrain x w s) := by
  rw [issueDrain_eq h hm hc hd]
  exact ((((matrixHeld_onlyTile s x _).setTile_drew _ _).tileOrFault True).thenMayFault d.early).mono fun he => ⟨trivial, he⟩

theorem issueDrain_draws (he : d.early = false) : OnlyTileDraws x s (issueDrain x w s) := by
  rw [issueDrain_eq h hm hc hd, he]
  exact (matrixHeld_onlyTile s x _).setTile_drew _ _

end Issue

theorem issueScale_eq (hc : mscaleCode (issueTile s x) w = none) : issueScale x w s =
    (matrixHeld s x (.mscale x w)).setTile x
      (((issueTile s x).holdSlot .matrix (.mscale x w)).startScale (scaleWrite (issueTile s x) w)) := by
  rw [issueScale_slot, matrixSlot_begins h hm hc, scaleWrite_holdSlot]

theorem issuesAs_mscale (hc : mscaleCode (issueTile s x) w = none) : IssuesAs (.mscale x w) x s
    (((issueTile s x).holdSlot .matrix (.mscale x w)).startScale (scaleWrite (issueTile s x) w)) := by
  refine ⟨issueScale x w s, rfl, ?_, ?_⟩
  · rw [issueScale_eq h hm hc, setTile_tile]
  · rw [issueScale_eq h hm hc]
    exact (matrixHeld_onlyTile s x _).setTile _

end Begun

end Sys2Proof.Machine
end

section
/-! PROOFS. The drain rows and vector beats that come before a drain's next row leave that row to be written (R84, R147, R218). -/

namespace Sys2Proof.Machine

theorem latchVec_due (t : Tile) (c : Nat) : SameButDue t (t.latchVec c) := (latchGen_due t c).trans (by exact rfl)

theorem toWrite_due (t : Tile) (c : Nat) : SameButDue t (t.toWrite c) := (upTo_due t c).trans (latchMem_due _ _)

theorem toWrite_drains (t : Tile) (c : Nat) : (t.toWrite c).drains = t.drains := by rw [toWrite_due t c]

theorem latchVec_drains (t : Tile) (c : Nat) : (t.latchVec c).drains = t.drains := by rw [latchVec_due t c]

theorem beforeBeat_drains (t : Tile) (c : Nat) : (t.beforeBeat c).drains = t.drains :=
  (latchVec_drains (t.toWrite c) c).trans (toWrite_drains t c)

theorem oneBeat_drains {t u : Tile} {op : VOp} {c : Nat} (h : t.oneBeat op c = some u) : u.drains = t.drains := by
  obtain ⟨r, -, rfl⟩ := Option.map_eq_some_iff.mp h
  change (t.applyBeat op c r).drains = t.drains
  rw [applyBeat_frame]

/-- The order of two writes (R147, R218). -/
theorem keyBefore_iff (a b : Nat × Nat) : keyBefore a b = true ↔ a.1 < b.1 ∨ a.1 = b.1 ∧ a.2 < b.2 := by simp [keyBefore]

/-- Where a drain's next row stands in that order. -/
def Drain.rowKey (d : Drain) : Nat × Nat := (d.rowAt, issueRank d.issue 0)

theorem settleRows_stop {t : Tile} {d : Drain} {rest : List Drain} {key : Nat × Nat} (hd : t.drains = d :: rest)
    (hk : ¬ keyBefore d.rowKey key = true) : t.settleRows key = t := by
  unfold Tile.settleRows
  cases 32 * t.drains.length with
  | zero => rfl
  | succ n =>
    rw [settleRowsFrom, hd]
    exact if_neg hk

theorem settleWritersFrom_drains {d : Drain} {rest : List Drain} (n : Nat) : ∀ {t : Tile}, t.drains = d :: rest →
    (settleWritersFrom d.rowKey n t).drains = d :: rest := by
  induction n with
  | zero => exact fun h => h
  | succ n ih =>
    intro t h
    unfold settleWritersFrom
    split
    · exact h
    · next op _ =>
      dsimp only
      split
      · next hk =>
        have hrow : ¬ keyBefore d.rowKey (t.beatDue op, issueRank op.issue 2) = true := by
          rw [keyBefore_iff] at hk ⊢
          omega
        rw [settleRows_stop h hrow]
        split
        · next u hu => exact ih ((oneBeat_drains hu).trans ((beforeBeat_drains t _).trans h))
        · exact h
      · exact h

/-- What comes before a drain's next row leaves that row the next, and the tile's other drains as they were. -/
theorem settleWriters_drains {t : Tile} {d : Drain} {rest : List Drain} (h : t.drains = d :: rest) :
    (t.settleWriters d.rowKey).drains = d :: rest := by
  have hfrom := settleWritersFrom_drains (d := d) (rest := rest) (t.vops.foldl (fun n o => n + o.beats) 0) h
  unfold Tile.settleWriters
  rw [settleRows_stop hfrom (by rw [keyBefore_iff]; omega), hfrom]

end Sys2Proof.Machine
end

section
/-! PROOFS. Elements of a vector register, and bytes of tile memory, beside those that a write changes (R141, R193, R197, R221). -/

namespace Sys2Proof.Machine

/-! ### Elements -/

/-- A write of an element leaves the words that it does not reach. -/
theorem vput_vword_ne {n lo j : Nat} (t : Tile) (r v : Nat) (h : j ≠ lo / 32) (h1 : j ≠ lo / 32 + 1 ∨ n ≠ 64 ∧ lo % 32 + n ≤ 32) :
    (t.vput r lo n v).vword r j = t.vword r j := by
  unfold Tile.vput Tile.vword
  split
  · rw [SMap.get_set_ne _ _ _ (by omega), SMap.get_set_ne _ _ _ (by omega)]
  · dsimp only
    split
    · rw [SMap.get_set_ne _ _ _ (by omega), SMap.get_set_ne _ _ _ (by omega)]
    · rw [SMap.get_set_ne _ _ _ (by omega)]

/-- Beside the field replaced, a half of a word keeps its value. -/
theorem half_replaced {x v sh sh' : Nat} (hv : v < 2 ^ 16) (h : sh = 0 ∧ sh' = 16 ∨ sh = 16 ∧ sh' = 0) :
    (x - x / 2 ^ sh % 2 ^ 16 * 2 ^ sh + v * 2 ^ sh) / 2 ^ sh' % 2 ^ 16 = x / 2 ^ sh' % 2 ^ 16 := by
  rcases h with ⟨rfl, rfl⟩ | ⟨rfl, rfl⟩ <;> omega

/-- Of a value, a write takes the bits that the element has. -/
theorem vput_mod (t : Tile) (r lo n v : Nat) : t.vput r lo n (v % 2 ^ n) = t.vput r lo n v := by
  unfold Tile.vput
  by_cases h : n = 64
  · have hlow : BitVec.ofNat 32 (v % 2 ^ n) = BitVec.ofNat 32 v := BitVec.eq_of_toNat_eq (by rw [h]; simp)
    have hhigh : BitVec.ofNat 32 (v % 2 ^ n / 2 ^ 32) = BitVec.ofNat 32 (v / 2 ^ 32) := BitVec.eq_of_toNat_eq (by rw [h]; simp; omega)
    rw [if_pos h, if_pos h, hlow, hhigh]
  · rw [if_neg h, if_neg h, Nat.mod_mod]

/-- An element within one word. -/
theorem velem_in_word {n ofs k : Nat} (t : Tile) (r : Nat) (hn : n ≠ 64) (h : (2048 * ofs + k * n) % 32 + n ≤ 32) :
    t.velem n r ofs k = (t.vword r ((2048 * ofs + k * n) / 32)).toNat / 2 ^ ((2048 * ofs + k * n) % 32) % 2 ^ n := by
  rw [Tile.velem, if_neg hn]
  dsimp only
  generalize (2048 * ofs + k * n) % 32 = sh at h ⊢
  have hpow : 2 ^ 32 = 2 ^ (32 - sh - n) * 2 ^ n * 2 ^ sh := by rw [← pow_add, ← pow_add]; congr 1; omega
  rw [hpow, ← Nat.mul_assoc, ← Nat.mul_assoc, Nat.add_mul_div_right _ _ (by positivity), Nat.add_mul_mod_self_right]

/-- An element within two words. -/
theorem velem_in_pair {n : Nat} (t : Tile) (r ofs k : Nat) (hn : n ≠ 64) :
    t.velem n r ofs k = t.vpair r ((2048 * ofs + k * n) / 32) / 2 ^ ((2048 * ofs + k * n) % 32) % 2 ^ n := by
  rw [Tile.velem, if_neg hn]
  rfl

/-- A write of an element of 16, 32 or 64 bits leaves the register's other elements. -/
theorem vput_velem_ne {n : Nat} (hn : n = 16 ∨ n = 32 ∨ n = 64) (t : Tile) (r ofs v : Nat) {i k : Nat} (h : k ≠ i) :
    (t.vput r (2048 * ofs + i * n) n v).velem n r ofs k = t.velem n r ofs k := by
  rcases hn with rfl | rfl | rfl
  · by_cases hw : (2048 * ofs + k * 16) / 32 = (2048 * ofs + i * 16) / 32
    · have hpair := vput_vpair t r (2048 * ofs + i * 16) (by decide) (Nat.mod_lt v (Nat.two_pow_pos 16))
      rw [vput_mod, ← hw] at hpair
      rw [velem_in_pair _ r ofs k (by decide), hpair, half_replaced (Nat.mod_lt v (Nat.two_pow_pos 16)) (by omega),
        velem_in_pair t r ofs k (by decide)]
    · rw [velem_in_word _ r (by decide) (by omega), velem_in_word _ r (by decide) (by omega), vput_vword_ne t r v hw (by omega)]
  · rw [velem_in_word _ r (by decide) (by omega), velem_in_word _ r (by decide) (by omega), vput_vword_ne t r v (by omega) (by omega)]
  · rw [Tile.velem, if_pos rfl, vput_vword_ne t r v (by omega) (by omega), vput_vword_ne t r v (by omega) (by omega), Tile.velem, if_pos rfl]

/-- The writes of elements in a row, from element i of an operand on. -/
def elemWrites (n r ofs i : Nat) (vs : List Nat) : List VWrite :=
  (vs.zipIdx i).map fun p => { reg := r, bit := 2048 * ofs + p.2 * n, width := n, value := p.1 }

theorem putElems_elemWrites {n : Nat} (hn : n = 16 ∨ n = 32 ∨ n = 64) (r ofs : Nat) (vs : List Nat) : ∀ (i : Nat) (t : Tile),
    (∀ k < i, (t.putElems (elemWrites n r ofs i vs)).velem n r ofs k = t.velem n r ofs k) ∧
      ∀ (j v : Nat), vs[j]? = some v → (t.putElems (elemWrites n r ofs i vs)).velem n r ofs (i + j) = v % 2 ^ n := by
  induction vs with
  | nil => exact fun i t => ⟨fun k _ => rfl, fun j v h => by simp at h⟩
  | cons a vs ih =>
    intro i t
    have hcons : t.putElems (elemWrites n r ofs i (a :: vs)) =
        (t.vput r (2048 * ofs + i * n) n a).putElems (elemWrites n r ofs (i + 1) vs) := rfl
    obtain ⟨hbelow, hfrom⟩ := ih (i + 1) (t.vput r (2048 * ofs + i * n) n a)
    rw [hcons]
    refine ⟨fun k hk => ?_, fun j v hj => ?_⟩
    · rw [hbelow k (by omega), vput_velem_ne hn t r ofs a (by omega)]
    · cases j with
      | zero =>
        obtain rfl : a = v := by simpa using hj
        change Tile.velem _ n r ofs i = a % 2 ^ n
        rw [hbelow i (by omega), ← vput_mod]
        exact vput_velem (by omega) (Nat.mod_lt a (Nat.two_pow_pos n)) t r ofs i
      | succ j =>
        rw [← Nat.add_assoc, Nat.add_right_comm]
        exact hfrom j v (by simpa using hj)

/-! ### Bytes -/

/-- Bytes outside those written keep their values, whatever the test admits (R197). -/
theorem memPutIf_outside (ok : Nat → Bool) {k : Nat} (bs : List Byte) : ∀ (m : Memory) {a : Nat}, a + bs.length ≤ 2 ^ 21 →
    (k < a ∨ a + bs.length ≤ k) → (memPutIf ok m a bs).byte k = m.byte k := by
  induction bs with
  | nil => intros; rfl
  | cons b bs ih =>
    intro m a ha hout
    rw [List.length_cons] at ha hout
    rw [memPutIf, ih _ (by omega) (by omega)]
    split
    · exact Memory.byte_setByte_ne m b (by rw [Nat.mod_eq_of_lt (by omega)]; omega)
    · rfl

/-- A scheduled write changes no byte outside its own, whatever meets it (R193, R221). -/
theorem portWrite_byteAt_ne {t : Tile} {a k : Nat} (c rank draw : Nat) {bs : List Byte} (ha : a + bs.length ≤ 2 ^ 21) (hk : k < 2 ^ 21)
    (hout : k < a ∨ a + bs.length ≤ k) : (t.portWrite c rank draw a bs).byteAt k = t.byteAt k := by
  have hmem : (t.portWrite c rank draw a bs).mem.byte k = t.mem.byte k :=
    memPutIf_outside _ _ t.mem (by simpa using ha) (by simpa using hout)
  rw [Tile.byteAt, Nat.mod_eq_of_lt hk, hmem, Tile.byteAt, Nat.mod_eq_of_lt hk]

/-! ### What a write meets -/

/-- Of fewer granules, fewer meet. -/
theorem NoClash.mono {gs hs : List Nat} {a n : Nat} (h : NoClash hs a n) (hsub : gs ⊆ hs) : NoClash gs a n := fun i hi =>
  List.any_eq_false.mpr fun g hg => List.any_eq_false.mp (h i hi) g (hsub hg)

/-- The writes of a cycle that a tile knows of, one more among them. -/
theorem mem_ports_portWrite {t : Tile} {c rank draw a : Nat} {bs : List Byte} {u : PortUse} (h : u ∈ (t.portWrite c rank draw a bs).ports) :
    u ∈ t.ports ∨ u = { cycle := c, write := true, rank := rank, addr := a % 2 ^ 21, len := bs.length } := by
  rcases List.mem_append.mp h with h | h
  · exact .inl (List.mem_filter.mp h).1
  · exact .inr (List.mem_singleton.mp h)

/-- The granules written in a cycle, by their four writers (R221). -/
theorem mem_putsAt {t : Tile} {c g : Nat} : g ∈ t.putsAt c ↔
    ((∃ u ∈ t.ports, u.write = true ∧ u.cycle = c ∧ g ∈ u.grans) ∨
      (∃ w ∈ t.memWrites, w.at_ = c ∧ g ∈ rangeGrans w.addr w.data.length) ∨
      (∃ d ∈ t.drains, g ∈ d.putsAt c) ∨ ∃ o ∈ t.vops, g ∈ o.putsAt c) ∧ 32 * g < tileTop := by
  simp only [Tile.putsAt, List.mem_filter, List.mem_append, List.mem_flatMap, Bool.and_eq_true, beq_iff_eq, decide_eq_true_eq, and_assoc,
    or_assoc]

/-- A write adds its own granules to those that its cycle writes. -/
theorem mem_putsAt_portWrite {t : Tile} {c rank draw a g : Nat} {bs : List Byte} (h : g ∈ (t.portWrite c rank draw a bs).putsAt c) :
    g ∈ t.putsAt c ∨ g ∈ rangeGrans (a % 2 ^ 21) bs.length ∧ 32 * g < tileTop := by
  obtain ⟨⟨u, hu, hw, hc, hg⟩ | hrest, htop⟩ := mem_putsAt.mp h
  · rcases mem_ports_portWrite hu with hu | rfl
    · exact .inl (mem_putsAt.mpr ⟨.inl ⟨u, hu, hw, hc, hg⟩, htop⟩)
    · exact .inr ⟨hg, htop⟩
  · exact .inl (mem_putsAt.mpr ⟨.inr hrest, htop⟩)

/-- A write that ranks no higher overrides no byte (R218). -/
theorem portWrite_overridden {t : Tile} {c rank k : Nat} (draw a : Nat) (bs : List Byte) (h : t.overridden c rank k = false) :
    (t.portWrite c rank draw a bs).overridden c rank k = false := by
  refine List.any_eq_false.mpr fun u hu => ?_
  rcases mem_ports_portWrite hu with hu | rfl
  · exact List.any_eq_false.mp h u hu
  · simp

end Sys2Proof.Machine
end

section
/-! PROOFS. DRAIN_ROW_WRITE (R84, R147, R193, R194), and O15. -/

namespace Sys2Proof.Machine

/-! ### The bytes of a row -/

/-- The bytes of a drain's next row (R193). -/
def Drain.rowBytes (d : Drain) : List Byte := packElems (fmtBits d.ofmt) ((drainRow d d.row).map Prod.fst)

/-- The address of its scale byte (R193). -/
def Drain.scaleAddr (d : Drain) : Nat := (d.sbase + d.row) % 2 ^ 21

/-- The tile with the row stored. -/
def Tile.storeElems (t : Tile) (d : Drain) : Tile :=
  t.portWrite d.rowAt (issueRank d.issue 0) d.draw (drainAddr d d.row) d.rowBytes

/-- The tile with the row and, in an MX format, its scale byte stored. -/
def Tile.storeRow (t : Tile) (d : Drain) : Tile :=
  if isMX d.ofmt then
    (t.storeElems d).portWrite d.rowAt (issueRank d.issue 0) d.draw d.scaleAddr [BitVec.ofNat 8 (drainScale d d.row)]
  else t.storeElems d

theorem drainAddr_lt (d : Drain) (i : Nat) : drainAddr d i < 2 ^ 21 := Nat.mod_lt _ (by decide)

theorem scaleAddr_lt (d : Drain) : d.scaleAddr < 2 ^ 21 := Nat.mod_lt _ (by decide)

theorem natLe_length (n : Nat) : ∀ x, (natLe n x).length = n := by
  induction n with
  | zero => exact fun _ => rfl
  | succ n ih => exact fun x => congrArg (· + 1) (ih (x / 256))

/-- A row of 32 elements fills whole bytes. -/
theorem rowBytes_length (d : Drain) : d.rowBytes.length = 4 * fmtBits d.ofmt := by
  rw [Drain.rowBytes, packElems, natLe_length, List.length_map, drainRow, List.length_map, List.length_range]
  omega

/-- The granules of a row in memory are among those that its drain writes in the row's cycle. -/
theorem rowGrans_subset {d : Drain} (hm : d.toReg = false) (hr : d.row < 32) :
    rangeGrans (drainAddr d d.row) d.rowBytes.length ⊆ d.putsAt d.rowAt := by
  have hi : d.rowAt - (d.issue + 5) = d.row := by unfold Drain.rowAt; omega
  have hc : ¬ (d.toReg = true ∨ d.rowAt < d.issue + 5 ∨ 32 ≤ d.row) := by
    unfold Drain.rowAt
    simp [hm, hr]
  rw [rowBytes_length, Drain.putsAt, hi, if_neg hc]
  exact List.subset_append_left _ _

section Store
variable (t : Tile) (d : Drain)

theorem storeRow_frame : t.storeRow d =
    { t with mem := (t.storeRow d).mem, upset := (t.storeRow d).upset, ports := (t.storeRow d).ports } := by
  unfold Tile.storeRow
  split <;> rfl

theorem storeRow_drains : (t.storeRow d).drains = t.drains := by rw [storeRow_frame]
theorem storeRow_vregs : (t.storeRow d).vregs = t.vregs := by rw [storeRow_frame]

/-- Beside its scale byte, a row reads as it was stored, whatever the scale byte meets (R193; log entry 105). -/
theorem storeRow_byteAt {k : Nat} (hk : k < 2 ^ 21) (hb : isMX d.ofmt = true → k ≠ d.scaleAddr) :
    (t.storeRow d).byteAt k = (t.storeElems d).byteAt k := by
  unfold Tile.storeRow
  split
  · next hmx =>
    have := hb hmx
    have := scaleAddr_lt d
    exact portWrite_byteAt_ne _ _ _ (by simp; omega) hk (by simp; omega)
  · rfl

/-- Outside the row and its scale byte nothing changes (R193). -/
theorem storeRow_outside {k : Nat} (ha : drainAddr d d.row + d.rowBytes.length ≤ 2 ^ 21) (hk : k < 2 ^ 21)
    (hout : k < drainAddr d d.row ∨ drainAddr d d.row + d.rowBytes.length ≤ k) (hb : isMX d.ofmt = true → k ≠ d.scaleAddr) :
    (t.storeRow d).byteAt k = t.byteAt k :=
  (storeRow_byteAt t d hk hb).trans (portWrite_byteAt_ne _ _ _ ha hk hout)

/-- What the row writes, its scale byte has met already: the drain's own granules are among those that its cycle writes. -/
theorem putsAt_storeElems_subset (hd : d ∈ t.drains) (hm : d.toReg = false) (hr : d.row < 32) :
    (t.storeElems d).putsAt d.rowAt ⊆ t.putsAt d.rowAt := by
  intro g hg
  rcases mem_putsAt_portWrite hg with hg | ⟨hg, htop⟩
  · exact hg
  · refine mem_putsAt.mpr ⟨.inr (.inr (.inl ⟨d, hd, ?_⟩)), htop⟩
    rw [Nat.mod_eq_of_lt (drainAddr_lt d d.row)] at hg
    exact rowGrans_subset hm hr hg

variable (ho : ∀ k, t.overridden d.rowAt (issueRank d.issue 0) k = false)
include ho

theorem storeRow_row (ha : drainAddr d d.row + d.rowBytes.length ≤ tileTop)
    (hn : NoClash (t.putsAt d.rowAt) (drainAddr d d.row) d.rowBytes.length) {i : Nat} (hi : i < d.rowBytes.length)
    (hb : isMX d.ofmt = true → drainAddr d d.row + i ≠ d.scaleAddr) :
    (t.storeRow d).byteAt (drainAddr d d.row + i) = d.rowBytes[i] := by
  have htop : tileTop < 2 ^ 21 := by decide
  exact (storeRow_byteAt t d (by omega) hb).trans (portWrite_byteAt_inside d.draw ha hn ho hi)

theorem storeRow_scale (hd : d ∈ t.drains) (hm : d.toReg = false) (hr : d.row < 32) (hmx : isMX d.ofmt = true)
    (hb : d.scaleAddr < tileTop) (hn : NoClash (t.putsAt d.rowAt) d.scaleAddr 1) :
    (t.storeRow d).byteAt d.scaleAddr = BitVec.ofNat 8 (drainScale d d.row) := by
  rw [Tile.storeRow, if_pos hmx]
  exact portWrite_byteAt_inside (t := t.storeElems d) d.draw (i := 0) (bs := [_]) hb (hn.mono (putsAt_storeElems_subset t d hd hm hr))
    (fun k => portWrite_overridden _ _ _ (ho k)) Nat.one_pos

end Store

/-! ### The row -/

/-- The elements that a drain's next row writes to its vector register (R192, R194). -/
def Drain.rowWrites (d : Drain) : List VWrite :=
  (drainRow d d.row).zipIdx.map fun p =>
    { reg := d.vr, bit := 2048 * d.ofs + (32 * d.row + p.2) * fmtBits d.ofmt, width := fmtBits d.ofmt, value := p.1.1 }

theorem rowWrites_eq (d : Drain) :
    d.rowWrites = elemWrites (fmtBits d.ofmt) d.vr d.ofs (32 * d.row) ((drainRow d d.row).map Prod.fst) := by
  rw [elemWrites, List.zipIdx_map, List.zipIdx_eq_map_add (i := 32 * d.row), List.map_map, List.map_map]
  rfl

/-- The census events of a drain's next row (R196, R330). -/
def Drain.rowEvents (d : Drain) : List Nat := (drainRow d d.row).flatMap fun e => classEvents d.ofmt e.2

/-- The tile with its drain one row further, the row's values counted; after the last row the drain leaves (R84). -/
def Tile.passRow (t : Tile) (d : Drain) : Tile :=
  { t.countEvents d.rowAt d.rowEvents with
    drains := if d.row = 31 then t.drains.drop 1 else { d with row := d.row + 1 } :: t.drains.drop 1 }

theorem putElems_drains (t : Tile) (ws : List VWrite) : (t.putElems ws).drains = t.drains := by rw [putElems_frame]
theorem noteWrites_drains (t : Tile) (gs : List Nat) : (t.noteWrites gs).drains = t.drains := by rw [noteWrites_frame]
theorem passRow_vregs (t : Tile) (d : Drain) : (t.passRow d).vregs = t.vregs := rfl
theorem passRow_mem (t : Tile) (d : Drain) : (t.passRow d).mem = t.mem := rfl

theorem latchGen_frame (t : Tile) (c : Nat) :
    t.latchGen c = { t with vops := (t.latchGen c).vops, memWrites := (t.latchGen c).memWrites } := by
  refine foldl_keeps (fun u : Tile => u = { t with vops := u.vops, memWrites := u.memWrites }) _ (fun u op hu => ?_) _ _ rfl
  dsimp only
  split
  · refine foldl_keeps (fun v : Tile => v = { t with vops := v.vops, memWrites := v.memWrites }) Tile.store (fun v w hv => ?_) _ _ ?_
    · rw [hv]
      rfl
    · rw [hu]
  · exact hu

/-- Two tiles that may differ only in what a row's write changes and reports. -/
def SameButRow (t u : Tile) : Prop :=
  u = { t with mem := u.mem, vregs := u.vregs, drains := u.drains, upset := u.upset, ports := u.ports, found := u.found, gran := u.gran,
               census := u.census, events := u.events, vops := u.vops, memWrites := u.memWrites }

theorem SameButRow.trans {t u v : Tile} (h : SameButRow t u) (g : SameButRow u v) : SameButRow t v := by
  unfold SameButRow at *
  rw [g, h]

theorem sameButRow_latchVec (t : Tile) (c : Nat) : SameButRow t (t.latchVec c) := by
  have hgen : SameButRow t (t.latchGen c) := (latchGen_frame t c).trans (by rw [latchGen_frame])
  exact hgen.trans (by exact rfl)

theorem sameButRow_putElems (t : Tile) (ws : List VWrite) : SameButRow t (t.putElems ws) :=
  (putElems_frame t ws).trans (by rw [putElems_frame])

theorem sameButRow_storeRow (t : Tile) (d : Drain) : SameButRow t (t.storeRow d) :=
  (storeRow_frame t d).trans (by rw [storeRow_frame])

theorem sameButRow_noteWrites (t : Tile) (gs : List Nat) : SameButRow t (t.noteWrites gs) :=
  (noteWrites_frame t gs).trans (by rw [noteWrites_frame])

theorem sameButRow_passRow (t : Tile) (d : Drain) : SameButRow t (t.passRow d) := rfl

section Row
variable (t : Tile) {d : Drain}

theorem writeRow_eq : t.writeRow d = Tile.passRow
    (if d.toReg then t.writeVec d.rowAt d.rowWrites else ((t.toWrite d.rowAt).storeRow d).noteWrites (d.putsAt d.rowAt)) d := rfl

theorem writeRow_toReg (h : d.toReg = true) :
    t.writeRow d = (((t.toWrite d.rowAt).latchVec d.rowAt).putElems d.rowWrites).passRow d := by
  rw [writeRow_eq, if_pos h]
  rfl

theorem writeRow_toMem (h : d.toReg = false) :
    t.writeRow d = (((t.toWrite d.rowAt).storeRow d).noteWrites (d.putsAt d.rowAt)).passRow d := by
  rw [writeRow_eq, if_neg (by simp [h])]

theorem writeRow_vregs (h : d.toReg = true) :
    (t.writeRow d).vregs = (((t.toWrite d.rowAt).latchVec d.rowAt).putElems d.rowWrites).vregs := by
  rw [writeRow_toReg t h, passRow_vregs]

/-- A row to memory leaves the vector registers, and memory as its bytes are stored. -/
theorem writeRow_mem (h : d.toReg = false) : (t.writeRow d).vregs = (t.toWrite d.rowAt).vregs ∧
    (t.writeRow d).mem = ((t.toWrite d.rowAt).storeRow d).mem := by
  rw [writeRow_toMem t h, passRow_vregs, passRow_mem, noteWrites_frame]
  exact ⟨storeRow_vregs _ d, rfl⟩

/-- A row changes memory, vector registers, drains, ports, what is on its way, and what it counts and reports; nothing else of the tile. -/
theorem writeRow_frame : SameButRow (t.toWrite d.rowAt) (t.writeRow d) := by
  by_cases hr : d.toReg = true
  · rw [writeRow_toReg t hr]
    exact ((sameButRow_latchVec _ _).trans (sameButRow_putElems _ _)).trans (sameButRow_passRow _ _)
  · rw [writeRow_toMem t (Bool.eq_false_iff.mpr hr)]
    exact ((sameButRow_storeRow _ _).trans (sameButRow_noteWrites _ _)).trans (sameButRow_passRow _ _)

theorem writeRow_drains {rest : List Drain} (h : t.drains = d :: rest) :
    (t.writeRow d).drains = (if d.row = 31 then [] else [{ d with row := d.row + 1 }]) ++ rest := by
  have hpass {u : Tile} (hu : u.drains = t.drains) :
      (u.passRow d).drains = (if d.row = 31 then [] else [{ d with row := d.row + 1 }]) ++ rest := by
    rw [Tile.passRow, hu, h]
    split <;> rfl
  by_cases hr : d.toReg = true
  · rw [writeRow_toReg t hr]
    exact hpass (by rw [putElems_drains, latchVec_drains, toWrite_drains])
  · rw [writeRow_toMem t (Bool.eq_false_iff.mpr hr)]
    exact hpass (by rw [noteWrites_drains, storeRow_drains, toWrite_drains])

/-- A row leaves both output tiles, and the scalar and address registers (R84). -/
theorem writeRow_kept : (t.writeRow d).acc0 = (t.toWrite d.rowAt).acc0 ∧ (t.writeRow d).acc1 = (t.toWrite d.rowAt).acc1 ∧
    (t.writeRow d).sregs = (t.toWrite d.rowAt).sregs ∧ (t.writeRow d).aregs = (t.toWrite d.rowAt).aregs := by
  rw [writeRow_frame]
  exact ⟨rfl, rfl, rfl, rfl⟩

/-- After a row to a register, its elements read as the drain made them (R192, R194). -/
theorem writeRow_velem (h : d.toReg = true) (hn : fmtBits d.ofmt = 16 ∨ fmtBits d.ofmt = 32 ∨ fmtBits d.ofmt = 64) {j : Nat}
    {e : Nat × Machine.Class} (he : (drainRow d d.row)[j]? = some e) :
    (t.writeRow d).velem (fmtBits d.ofmt) d.vr d.ofs (32 * d.row + j) = e.1 % 2 ^ fmtBits d.ofmt := by
  obtain ⟨-, hfrom⟩ := putElems_elemWrites hn d.vr d.ofs ((drainRow d d.row).map Prod.fst) (32 * d.row)
    ((t.toWrite d.rowAt).latchVec d.rowAt)
  rw [← rowWrites_eq] at hfrom
  exact (velem_congr (writeRow_vregs t h) _ _ _ _).trans (hfrom j e.1 (by simp [he]))

end Row

/-! ### The command -/

theorem exec_drainRowWrite {s : State} {x : Site} {d : Drain} {rest : List Drain} (hr : s.dev = .run)
    (hp : (s.tile x).pwr = .active) (hd : (s.tile x).drains = d :: rest) : exec (.drainRowWrite x) s =
      .next ((toCycle s d.rowAt).putTile x (((s.tile x).settleWriters d.rowKey).writeRow d)) := by
  change execDrainRowWrite x s = _
  simp only [execDrainRowWrite, hr, hp, hd, beq_self_eq_true, Bool.and_self, if_true]
  rfl

/-- Settles O15: an MDRAIN is `Tile.startDrain` on the tile of its issue cycle; a row is `Tile.writeRow` on the tile as it stands before
the row, put back, whose bytes are those of `Tile.storeRow`; an MSCALE leaves `scaleWrite` on its way. -/
theorem drainsAndScales : Obligations.DrainsAndScales := by
  unfold Obligations.DrainsAndScales
  refine ⟨?_, ?_, ?_⟩
  · intro s x w h hm T hc
    have htile : (issueDrain x w s).tile x = (T.holdSlot .matrix (.mdrain x w)).startDrain (fld w 42 1) (mkDrain T s.free w) :=
      issueDrain_tile h hm hc rfl
    refine ⟨issueDrain x w s, mkDrain T s.free w, rfl, issueDrain_tileOrFault h hm hc rfl, issueDrain_draws h hm hc rfl,
      mkDrain_early T s.free w, htile, ?_⟩
    clear_value T
    exact ⟨rfl, rfl, rfl, rfl, rfl, rfl, rfl, rfl, rfl, rfl, rfl, rfl, rfl, rfl⟩
  · intro s x d rest hr hp hd hlt c n T U a b row
    have hdrains : T.drains = d :: rest := settleWriters_drains hd
    have hmem : d ∈ U.drains := by
      rw [toWrite_drains, hdrains]
      exact List.mem_cons_self
    have htile := putTile_tile (toCycle s c) x (T.writeRow d)
    obtain ⟨hacc0, hacc1, hsregs, haregs⟩ := writeRow_kept T (d := d)
    refine ⟨(toCycle s c).putTile x (T.writeRow d), exec_drainRowWrite hr hp hd,
      putTile_tileOrFault (OnlyTile.toCycle x s c) fun h => h, ?_, ?_⟩
    · rw [putTile_cycle]
      exact toCycle_cycle s c
    rw [htile]
    refine ⟨writeRow_drains T hdrains, hacc0, hacc1, hsregs, haregs, fun hto => ?_, fun hto hn j e he => writeRow_velem T hto hn he⟩
    obtain ⟨hvregs, hbytes⟩ := writeRow_mem T hto
    have hsame : TileMemSame (U.storeRow d) { T.writeRow d with upset := false, found := [] } := tileMemSame_of_mem hbytes
    refine ⟨hvregs, fun ha hno hov i hi hb => ?_, fun hmx hb hno hov => ?_, fun ha k hk hout hb => ?_⟩
    · exact (hsame (a + i)).trans (storeRow_row U d hov ha hno hi hb)
    · exact (hsame b).trans (storeRow_scale U d hov hmem hto hlt hmx hb hno)
    · exact (hsame k).trans (storeRow_outside U d ha hk hout hb)
  · intro s x w h hm T hc osc c
    exact issuesAs_mscale h hm hc

end Sys2Proof.Machine
end

section
/-! PROOFS. What comes due at a tile by itself, in two halves: window changes, call-slip changes, MSCALEs and the checks of arrivals (R182,
R199, R234); and the tile's own reads and writes of memory and registers (R163, R169). -/

namespace Sys2Proof.Machine

/-! ### Windows, call slips and scale states -/

/-- A flit of the arrival buffer without what its check and the record of its violations have added. -/
def Arrival.bare (a : Arrival) : Arrival := { a with targets := none, noted := false }

/-- From t to u only windows, call slips, scale states, what is on its way to them, and the checks of arrivals have changed: no granule in
flight and no flit has come or gone. -/
structure EffectsOnly (t u : Tile) : Prop where
  frame : u = { t with arrivals := u.arrivals, windows := u.windows, slips := u.slips, acc0 := u.acc0, acc1 := u.acc1,
                       winWrites := u.winWrites, slipWrites := u.slipWrites, scaleWrites := u.scaleWrites }
  flight : ∀ k, (u.slip k).flight = (t.slip k).flight
  flits : u.arrivals.map Arrival.bare = t.arrivals.map Arrival.bare

theorem EffectsOnly.refl (t : Tile) : EffectsOnly t t := ⟨rfl, fun _ => rfl, rfl⟩

theorem EffectsOnly.trans {t u v : Tile} (h : EffectsOnly t u) (g : EffectsOnly u v) : EffectsOnly t v :=
  ⟨by rw [g.frame, h.frame], fun k => (g.flight k).trans (h.flight k), g.flits.trans h.flits⟩

/-- A call slip is put back with the granules in flight that it had. -/
theorem effectsOnly_setSlip {t : Tile} {k : Nat} {p : Slip} (h : p.flight = (t.slip k).flight) : EffectsOnly t (t.setSlip k p) := by
  refine ⟨rfl, fun j => ?_, rfl⟩
  by_cases hj : j = k
  · rw [hj, ← h, Tile.setSlip, Tile.slip, SMap.get_set_self]
  · rw [Tile.setSlip, Tile.slip, SMap.get_set_ne _ _ _ hj]
    rfl

/-- Granting allotments moves no granule (R238). -/
theorem effectsOnly_grantSlips (t : Tile) : EffectsOnly t t.grantSlips := by
  refine foldl_keeps (EffectsOnly t) _ (fun u k hu => ?_) _ _ (foldl_keeps (EffectsOnly t) _ (fun u k hu => ?_) _ _ (.refl t))
  · dsimp only
    split
    · exact hu
    · exact hu.trans (effectsOnly_setSlip rfl)
  · dsimp only
    split
    · exact hu.trans (effectsOnly_setSlip rfl)
    · exact hu

theorem effectsOnly_applySlip (t : Tile) (k mode : Nat) (w : Word) : EffectsOnly t (t.applySlip k mode w) := by
  have hone {u : Tile} (hu : EffectsOnly t u) {p : Slip} (hp : p.flight = (t.slip k).flight) : EffectsOnly t (u.setSlip k p).grantSlips :=
    (hu.trans (effectsOnly_setSlip (hp.trans (hu.flight k).symm))).trans (effectsOnly_grantSlips _)
  unfold Tile.applySlip
  dsimp only
  split
  · refine hone ?_ rfl
    split
    · refine foldl_keeps (EffectsOnly t) _ (fun u j hu => ?_) _ _ (.refl t)
      split
      · exact hu.trans (effectsOnly_setSlip rfl)
      · exact hu
    · exact .refl t
  · exact hone (.refl t) rfl
  · exact hone (.refl t) rfl

/-- A check of arrivals changes what it says of them alone (R234). -/
theorem effectsOnly_checkArrivals (t : Tile) (c : Nat) : EffectsOnly t (t.checkArrivals c) := by
  refine ⟨rfl, fun _ => rfl, ?_⟩
  rw [Tile.checkArrivals, List.map_map]
  refine List.map_congr_left fun a _ => ?_
  rw [Function.comp_apply]
  split <;> rfl

theorem effectsOnly_settleEffects (t : Tile) (c : Nat) : EffectsOnly t (t.settleEffects c) := by
  unfold Tile.settleEffects
  dsimp only
  refine EffectsOnly.trans (u := List.foldl _ _ _) ?_ ⟨rfl, fun _ => rfl, rfl⟩
  refine foldl_keeps (EffectsOnly t) _ (fun u w hu => ?_) _ _ (foldl_keeps (EffectsOnly t) _ (fun u w hu => ?_) _ _
    (foldl_keeps (EffectsOnly t) _ (fun u w hu => ?_) _ _ (.refl t)))
  · refine hu.trans ?_
    split <;> exact ⟨rfl, fun _ => rfl, rfl⟩
  · exact hu.trans (effectsOnly_applySlip u _ _ _)
  · exact (hu.trans (effectsOnly_checkArrivals u _)).trans ⟨rfl, fun _ => rfl, rfl⟩

/-! ### Memory and registers -/

/-- Two tiles that may differ only in memory and registers, the writes on their way to them, and what reads of memory touch. -/
def SameButWork (t u : Tile) : Prop :=
  u = { t with sregs := u.sregs, aregs := u.aregs, regWrites := u.regWrites, memWrites := u.memWrites, mem := u.mem, feeds := u.feeds,
               vops := u.vops, xsends := u.xsends, ports := u.ports, found := u.found, gran := u.gran, upset := u.upset,
               tLast := u.tLast, tAcc0 := u.tAcc0, tAcc1 := u.tAcc1 }

theorem SameButWork.trans {t u v : Tile} (h : SameButWork t u) (g : SameButWork u v) : SameButWork t v := by
  unfold SameButWork at *
  rw [g, h]

theorem SameButReads.work {t u : Tile} (h : SameButReads t u) : SameButWork t u := by
  unfold SameButReads at h
  rw [h]
  rfl

theorem settleMem_work (c : Nat) : ∀ (ws : List MemWrite) (t : Tile), SameButWork t (settleMem c ws t)
  | [], _ => rfl
  | w :: ws, t => by
    unfold settleMem
    split
    · have hwrite : SameButWork (t.latchMem (w.at_ - 1)) ((t.latchMem (w.at_ - 1)).portWrite w.at_ w.rank w.draw w.addr w.data) := rfl
      have hnote (u : Tile) (gs : List Nat) : SameButWork u (u.noteWrites gs) := (noteWrites_frame u gs).trans (by rw [noteWrites_frame])
      exact (((latchMem_sameButReads t _).work.trans hwrite).trans (hnote _ _)).trans (settleMem_work c ws _)
    · rfl

theorem settleRegs_work (c : Nat) : ∀ (ws : List RegWrite) (t : Tile), SameButWork t (settleRegs c ws t)
  | [], _ => rfl
  | w :: ws, t => by
    unfold settleRegs
    split
    · refine SameButWork.trans ?_ (settleRegs_work c ws _)
      cases w.dest with
      | s r =>
        simp only [Tile.setS]
        split <;> rfl
      | a r => rfl
    · rfl

/-- Past its windows, call slips and scale states, bringing a tile up to a cycle is work of its own. -/
theorem upTo_work (t : Tile) (c : Nat) : SameButWork (t.settleEffects c) (t.upTo c) := by
  have hgen (u : Tile) (n : Nat) : SameButWork u (u.latchGen n) := (latchGen_frame u n).trans (by rw [latchGen_frame])
  have hwords (u : Tile) (n : Nat) : SameButWork u (u.latchWords n) := rfl
  exact (((hgen _ _).trans (settleMem_work c _ _)).trans (hwords _ _)).trans (settleRegs_work c _ _)

theorem toWrite_work (t : Tile) (c : Nat) : SameButWork (t.settleEffects c) (t.toWrite c) :=
  (upTo_work t c).trans (latchMem_sameButReads _ _).work

/-- From t to u only what comes due by itself has changed: no granule in flight and no flit has come or gone. -/
structure Settled (t u : Tile) : Prop where
  due : SameButDue t u
  flight : ∀ k, (u.slip k).flight = (t.slip k).flight
  flits : u.arrivals.map Arrival.bare = t.arrivals.map Arrival.bare

theorem Settled.after {t u v : Tile} (h : EffectsOnly t u) (g : Settled u v) : Settled t v := by
  have hdue : SameButDue t u := by
    rw [h.frame]
    rfl
  exact ⟨hdue.trans g.due, fun k => (g.flight k).trans (h.flight k), g.flits.trans h.flits⟩

theorem SameButWork.settled {t u v : Tile} (h : EffectsOnly t u) (g : SameButWork u v) : Settled t v := by
  have hslip (k : Nat) : v.slip k = u.slip k := by rw [g]; rfl
  refine ⟨?_, fun k => by rw [hslip, h.flight], by rw [g]; exact h.flits⟩
  rw [g, h.frame]
  rfl

theorem settled_upTo (t : Tile) (c : Nat) : Settled t (t.upTo c) := (upTo_work t c).settled (effectsOnly_settleEffects t c)
theorem settled_toWrite (t : Tile) (c : Nat) : Settled t (t.toWrite c) := (toWrite_work t c).settled (effectsOnly_settleEffects t c)

end Sys2Proof.Machine
end

section
/-! PROOFS. What is shared by the traffic of a tile: writes that wait for their port (R45, R254), first free cycles (R222, R254), the
requests of a queue, and violations of windows (R234). -/

namespace Sys2Proof.Machine

/-! ### A write that has waited for its port -/

theorem memPut_write (bs : List Byte) : ∀ (m : Memory) {a : Nat}, a + bs.length ≤ tileTop → memPut m a bs = m.write a bs := by
  induction bs with
  | nil => intros; rfl
  | cons b bs ih =>
    intro m a ha
    rw [List.length_cons] at ha
    have hlt : a < tileTop := by omega
    have hmod : a % 2 ^ 21 = a := Nat.mod_eq_of_lt (hlt.trans (by decide))
    rw [memPut, hmod, if_pos hlt, ih _ (by omega), Memory.write]

theorem writeMem_frame (t : Tile) (c a : Nat) (bs : List Byte) :
    t.writeMem c a bs = { t.toWrite c with mem := memPut (t.toWrite c).mem a bs, ports := (t.writeMem c a bs).ports } := rfl

section Write
variable (t : Tile) (c : Nat) {a : Nat} {bs : List Byte}

theorem writeMem_byteAt_inside (ha : a + bs.length ≤ tileTop) {i : Nat} (hi : i < bs.length) : (t.writeMem c a bs).byteAt (a + i) = bs[i] := by
  have hlt : a + i < tileTop := by omega
  have hmod : (a + i) % 2 ^ 21 = a + i := Nat.mod_eq_of_lt (hlt.trans (by decide))
  rw [Tile.byteAt, hmod, if_pos hlt, writeMem_frame]
  dsimp only
  rw [memPut_write bs _ ha]
  exact Memory.byte_write_inside bs _ a i hi

theorem writeMem_byteAt_outside (ha : a + bs.length ≤ tileTop) {k : Nat} (hk : k < 2 ^ 21) (hout : k < a ∨ a + bs.length ≤ k) :
    (t.writeMem c a bs).byteAt k = (t.toWrite c).byteAt k := by
  rw [Tile.byteAt, Tile.byteAt, Nat.mod_eq_of_lt hk, writeMem_frame]
  dsimp only
  rw [memPut_write bs _ ha, Memory.byte_write_outside bs _ a k hout]

theorem settled_writeMem (a : Nat) (bs : List Byte) : Settled t (t.writeMem c a bs) := by
  obtain ⟨hdue, hflight, hflits⟩ := settled_toWrite t c
  refine ⟨?_, hflight, hflits⟩
  rw [writeMem_frame, hdue]
  rfl

end Write

/-! ### First free cycles -/

theorem le_firstCycle (ok : Nat → Bool) (c : Nat) : c ≤ firstCycle ok c := Nat.le_add_right c _

/-- The first of the next 256 cycles that a test admits. -/
theorem firstCycle_eq {ok : Nat → Bool} {c i : Nat} (hi : i < 256) (h : ok (c + i) = true) (hj : ∀ j < i, ok (c + j) = false) :
    firstCycle ok c = c + i := by
  have hfind : (List.range 256).find? (fun i => ok (c + i)) = some i :=
    List.find?_range_eq_some.mpr ⟨h, List.mem_range.mpr hi, fun j hlt => by rw [hj j hlt]; rfl⟩
  rw [firstCycle, hfind, Option.getD_some]

theorem firstCycle_now {ok : Nat → Bool} {c : Nat} (h : ok c = true) : firstCycle ok c = c :=
  firstCycle_eq (i := 0) (by decide) h (fun _ hj => absurd hj (Nat.not_lt_zero _))

/-! ### Requests -/

theorem request_id {t : Tile} {q id : Nat} {r : Request} (h : t.request q id = some r) : r.id = id := by
  simpa using List.find?_some h

theorem request_congr {t u : Tile} (h : u.queues = t.queues) (q id : Nat) : u.request q id = t.request q id := by
  rw [Tile.request, queue_congr h, Tile.request]

/-- A changed request is found by its number, and every other as it was. -/
theorem request_setRequest (t : Tile) (q p id : Nat) (r : Request) :
    (t.setRequest q r).request p id = if p = q ∧ id = r.id then (t.request p id).map (fun _ => r) else t.request p id := by
  by_cases hp : p = q
  · subst hp
    have hfind : (t.setRequest p r).request p id = (t.request p id).map fun o => if o.id == r.id then r else o := by
      rw [Tile.setRequest, Tile.request, setQueue_queue, List.find?_map]
      congr 2
      funext o
      by_cases ho : o.id = r.id <;> simp [ho]
    rw [hfind]
    cases h : t.request p id with
    | none => simp
    | some o => by_cases hid : id = r.id <;> simp [request_id h, hid]
  · rw [if_neg fun h => hp h.1, Tile.request, Tile.setRequest, setQueue_queue_ne _ _ hp]
    rfl

theorem request_setRequest_self {t : Tile} {q id : Nat} {r v : Request} (h : t.request q id = some r) (hv : v.id = id) :
    (t.setRequest q v).request q id = some v := by
  rw [request_setRequest, if_pos ⟨rfl, hv.symm⟩, h]
  rfl

/-! ### Violations of windows -/

/-- The device has a job that can fault, or one that has. -/
def FaultsJob (s : State) : Prop := s.dev = .run ∨ s.dev = .drain ∨ s.dev = .faulted

theorem raiseFault_faults {s : State} (h : FaultsJob s) (reason detail site : Nat) : (raiseFault s reason detail site).dev = .faulted := by
  rcases h with h | h | h
  · exact (raiseFault_ofJob (.inr (.inl h)) _ _ _).1
  · exact (raiseFault_ofJob (.inr (.inr h)) _ _ _).1
  · cases hf : s.rgs.fault with
    | none => simp [raiseFault, h, hf]
    | some g =>
      simp only [raiseFault, h, hf]
      split
      · rfl
      · exact h

theorem raiseFault_job (s : State) (reason detail site : Nat) : (raiseFault s reason detail site).rgs.job = s.rgs.job := by
  unfold raiseFault
  split
  · split <;> rfl
  all_goals rfl

/-- A tile on which a violation has been counted and, where it is the first, recorded (R234, R243). -/
def Tile.noteViolation (t : Tile) (addr win src : Nat) : Tile :=
  { t with wdrop := BitVec.ofNat 32 (Nat.min (t.wdrop.toNat + 1) 0xFFFFFFFF),
           wfault := if bit t.wfault 31 then t.wfault else wfaultWord addr win src }

theorem windowViolation_eq (s : State) (x : Site) (addr win src : Nat) :
    windowViolation s x addr win src = raiseFault (s.setTile x ((s.tile x).noteViolation addr win src)) 3 0 x := rfl

theorem windowViolation_tile (s : State) (x : Site) (addr win src : Nat) :
    (windowViolation s x addr win src).tile x = (s.tile x).noteViolation addr win src := by
  rw [windowViolation_eq, raiseFault_tile, setTile_tile]

theorem windowViolation_tile_ne (s : State) {x y : Site} (addr win src : Nat) (h : y ≠ x) :
    (windowViolation s x addr win src).tile y = s.tile y := by
  rw [windowViolation_eq, raiseFault_tile, setTile_tile_ne _ _ h]

/-- From s to t only tile x, the device's state and the Registrar's record of the job's fault have changed. -/
structure TileAndFault (x : Site) (s t : State) : Prop where
  frame : t = { s with tiles := t.tiles, dev := t.dev, rgs := t.rgs }
  others : ∀ y, y ≠ x → t.tile y = s.tile y
  job : t.rgs.job = s.rgs.job

theorem TileAndFault.refl (x : Site) (s : State) : TileAndFault x s s := ⟨rfl, fun _ _ => rfl, rfl⟩

theorem TileAndFault.trans {x : Site} {s t u : State} (h : TileAndFault x s t) (g : TileAndFault x t u) : TileAndFault x s u :=
  ⟨by rw [g.frame, h.frame], fun y hy => (g.others y hy).trans (h.others y hy), g.job.trans h.job⟩

theorem tileAndFault_setTile (s : State) (x : Site) (t : Tile) : TileAndFault x s (s.setTile x t) :=
  ⟨rfl, fun _ hy => setTile_tile_ne s t hy, rfl⟩

theorem tileAndFault_windowViolation (s : State) (x : Site) (addr win src : Nat) : TileAndFault x s (windowViolation s x addr win src) := by
  refine ⟨?_, fun y hy => windowViolation_tile_ne s addr win src hy, raiseFault_job _ 3 0 x⟩
  rw [windowViolation_eq, raiseFault_frame]
  rfl

theorem windowViolation_faults {s : State} (h : FaultsJob s) (x : Site) (addr win src : Nat) :
    (windowViolation s x addr win src).dev = .faulted := raiseFault_faults (s := s.setTile x _) h 3 0 x

end Sys2Proof.Machine
end

section
/-! PROOFS. SENDING_READ (R222): the granule that is read, and what leaves the send buffer with it for a controller (R270), a room (R278),
the host (R295) or another device (R327). -/

namespace Sys2Proof.Machine

/-! ### The granule read -/

/-- The granule of request r that is read next, as tile memory holds it in the cycle of its read (R222). -/
def sourceGran (s : State) (x : Site) (q : Nat) (r : Request) : SendGran :=
  { q := q, id := r.id, idx := r.sent,
    data := (((s.tile x).upTo (sendCycle s x r)).asRead (sendCycle s x r)).readMem (r.laddr + 32 * r.sent) 32 }

/-- Request r with one granule more read. -/
def Request.oneSent (r : Request) : Request := { r with sent := r.sent + 1 }

/-- A tile once a granule of request r, read in cycle c, is in its send buffer. -/
def Tile.takeSource (t : Tile) (q : Nat) (r : Request) (c : Nat) (g : SendGran) : Tile :=
  let t1 := (t.setRequest q r.oneSent).usePort { cycle := c, write := false, rank := 0, addr := r.laddr + 32 * r.sent, len := 32 }
  { t1 with sendBuf := t1.sendBuf ++ [g] }

/-- The tile once the next granule of request r is in its send buffer. -/
def sourceTile (s : State) (x : Site) (q : Nat) (r : Request) : Tile :=
  ((s.tile x).upTo (sendCycle s x r)).takeSource q r (sendCycle s x r) (sourceGran s x q r)

/-- The state once the next granule of request r is in the send buffer of tile x. -/
def sourceRead (s : State) (x : Site) (q : Nat) (r : Request) : State := (toCycle s (sendCycle s x r)).setTile x (sourceTile s x q r)

theorem exec_sendingRead {s : State} {x : Site} {q : Nat} {r : Request} (hr : s.dev = .run) (hn : nextSend s x = some (q, r))
    (hb : (s.tile x).sendBuf.length < 128) :
    exec (.sendingRead x) s = .next (flushSend (sourceRead s x q r) x q r.oneSent) := by
  change execSendingRead x s = _
  simp only [execSendingRead, hr, hn, hb, beq_self_eq_true, decide_true, Bool.and_self, if_true]
  rfl

theorem takeSource_frame (t : Tile) (q : Nat) (r : Request) (c : Nat) (g : SendGran) : t.takeSource q r c g =
    { t with queues := (t.setRequest q r.oneSent).queues, ports := (t.takeSource q r c g).ports, sendBuf := t.sendBuf ++ [g] } := rfl

theorem takeSource_request {t : Tile} {q id : Nat} {r : Request} (h : t.request q id = some r) (c : Nat) (g : SendGran) :
    (t.takeSource q r c g).request q id = some r.oneSent := by
  have hid : r.id = id := request_id h
  exact request_setRequest_self (v := r.oneSent) h hid

/-- The granules of the request in the send buffer, the new one last. -/
theorem takeSource_sendOf (t : Tile) (q : Nat) (r : Request) (c : Nat) {g : SendGran} (hq : g.q = q) (hi : g.id = r.id) :
    (t.takeSource q r c g).sendOf q r.id = t.sendOf q r.id ++ [g] := by
  rw [Tile.sendOf, takeSource_frame]
  simp [Tile.sendOf, List.filter_append, hq, hi]

section Source
variable (s : State) (x : Site) (q : Nat) (r : Request)

theorem le_sendCycle : s.cycle ≤ sendCycle s x r := by
  unfold sendCycle Tile.sendFree
  exact Nat.le_trans (Nat.le_max_left _ _) (le_firstCycle _ _)

theorem sourceRead_tile : (sourceRead s x q r).tile x = sourceTile s x q r := by rw [sourceRead, setTile_tile]

theorem sourceRead_onlyTile : OnlyTile x s (sourceRead s x q r) := (OnlyTile.toCycle x s _).setTile _

theorem sourceRead_cycle : (sourceRead s x q r).cycle = sendCycle s x r := by
  rw [sourceRead, setTile_cycle, toCycle_cycle]
  exact Nat.max_eq_right (le_sendCycle s x r)

theorem sourceTile_sendBuf : (sourceTile s x q r).sendBuf = (s.tile x).sendBuf ++ [sourceGran s x q r] := by
  rw [sourceTile, takeSource_frame, (settled_upTo (s.tile x) (sendCycle s x r)).due]

theorem sourceTile_sendOf : (sourceTile s x q r).sendOf q r.id = (s.tile x).sendOf q r.id ++ [sourceGran s x q r] := by
  rw [sourceTile, takeSource_sendOf _ q r _ (g := sourceGran s x q r) rfl rfl, Tile.sendOf, (settled_upTo (s.tile x) (sendCycle s x r)).due]
  rfl

theorem sourceTile_request {id : Nat} {r : Request} (h : (s.tile x).request q id = some r) :
    (sourceTile s x q r).request q id = some r.oneSent :=
  takeSource_request ((request_congr (upTo_queues _ _) q id).trans h) _ _

theorem sourceTile_mem : TileMemSame ((s.tile x).upTo (sendCycle s x r)) (sourceTile s x q r) := by
  rw [sourceTile]
  exact tileMemSame_of_mem (by rw [takeSource_frame])

end Source

/-! ### What leaves the tile -/

/-- From s to t only what waits at the controllers, the rooms, the host interface and the links has changed. -/
def HandedOn (s t : State) : Prop := t = { s with ctls := t.ctls, rooms := t.rooms, host := t.host, linkOut := t.linkOut }

theorem HandedOn.refl (s : State) : HandedOn s s := rfl

theorem HandedOn.trans {s t u : State} (h : HandedOn s t) (g : HandedOn t u) : HandedOn s u := by
  unfold HandedOn at *
  rw [g, h]

theorem HandedOn.foldl {α : Type} {f : State → α → State} (h : ∀ s a, HandedOn s (f s a)) (l : List α) (s : State) :
    HandedOn s (l.foldl f s) := foldl_keeps (HandedOn s) f (fun _ a hu => hu.trans (h _ a)) l s (.refl s)

theorem handedOn_postUnit (s : State) (u : UnitMsg) : HandedOn s (postUnit s u) := rfl
theorem handedOn_linkSend (s : State) (m : LinkMsg) : HandedOn s (linkSend s m) := rfl

theorem handedOn_postRoom (s : State) (n : Nat) (a : RoomAcc) : HandedOn s (postRoom s n a) := by
  unfold postRoom
  split <;> rfl

theorem handedOn_addLines (s : State) (o : HostOwner) (first count : Nat) : HandedOn s (addLines s o first count) := by
  unfold addLines
  split
  · rfl
  · split <;> rfl

/-! ### A unit for a controller -/

theorem insertServed_last {α : Type} {before : α → α → Bool} {e : α} (h : ∀ p, before e p = false) (l : List α) :
    insertServed before e l = l ++ [e] := by
  induction l with
  | nil => rfl
  | cons p l ih => simp [insertServed, h p, ih]

theorem mem_insertServed {α : Type} (before : α → α → Bool) (l : List α) (e : α) : e ∈ insertServed before e l := by
  induction l with
  | nil => simp [insertServed]
  | cons p l ih =>
    rw [insertServed]
    split <;> simp [ih]

/-- A unit that is no loan's comes last at its controller. -/
theorem postUnit_arrivals (s : State) {u : UnitMsg} (h : u.owner.loanKey = none) :
    ((postUnit s u).ctl (mcOf u.unit)).arrivals = (s.ctl (mcOf u.unit)).arrivals ++ [u] := by
  have hctl : (postUnit s u).ctl (mcOf u.unit) = { s.ctl (mcOf u.unit) with
      arrivals := insertServed (fun a b => loanBefore s a.owner.loanKey b.owner.loanKey) u (s.ctl (mcOf u.unit)).arrivals } :=
    SMap.get_set_self _ _ _ _
  rw [hctl]
  exact insertServed_last (fun p => by rw [h]; rfl) _

/-! ### A granule for a room -/

/-- A write reaches its bank, and stays there with those that had. -/
theorem mem_post {k : Bank} {s : State} {a : RoomAcc} (h : a.write = true) (m : RoomAcc) :
    (m ∈ (k.post s a).accs ∨ m ∈ (k.post s a).held) ↔ m = a ∨ m ∈ k.accs ∨ m ∈ k.held := by
  by_cases hg : k.isGating = true
  · by_cases hi : k.firstIdle s.cycle = true
    · simp [Bank.post, h, hg, hi]
      tauto
    · simp [Bank.post, h, hg, hi]
      tauto
  · simp [Bank.post, h, hg]
    tauto

/-- An access to room n has reached its bank, or is offered where the room accepts no work (R278, R396). -/
def AtRoom (s : State) (n : Nat) (m : RoomAcc) : Prop :=
  if accepts s (Block.rdr.page n) then m ∈ ((s.room n).bank (bankOf m.gran)).accs ∨ m ∈ ((s.room n).bank (bankOf m.gran)).held
  else m ∈ (s.room n).offered

theorem room_setRoom (s : State) (n : Nat) (r : Room) : (s.setRoom n r).room n = r := SMap.get_set_self _ _ _ _

theorem accepts_congr {s t : State} (h : t.regs = s.regs) (page : Nat) : accepts t page = accepts s page := by
  simp [accepts, regFld, regRaw, h]

theorem atRoom_postRoom {s : State} {n : Nat} {a : RoomAcc} (h : a.write = true) (m : RoomAcc) :
    AtRoom (postRoom s n a) n m ↔ m = a ∨ AtRoom s n m := by
  have hacc : accepts (postRoom s n a) (Block.rdr.page n) = accepts s (Block.rdr.page n) :=
    accepts_congr (by rw [handedOn_postRoom s n a]) _
  unfold AtRoom
  rw [hacc]
  by_cases ha : accepts s (Block.rdr.page n) = true
  · rw [if_pos ha, if_pos ha, postRoom, if_pos ha, queueRoom, room_setRoom]
    by_cases hb : bankOf m.gran = bankOf a.gran
    · rw [hb, Room.bank, Room.setBank, SMap.get_set_self]
      exact mem_post h m
    · have hne : m ≠ a := fun he => hb (by rw [he])
      rw [Room.bank, Room.setBank, SMap.get_set_ne _ _ _ hb]
      simp only [hne, false_or]
      rfl
  · rw [if_neg ha, if_neg ha, postRoom, if_neg ha, room_setRoom]
    simp [or_comm]

/-- Writes posted to a room one after another have all reached it. -/
theorem atRoom_postRooms {α : Type} {n : Nat} {f : α → RoomAcc} (hw : ∀ g, (f g).write = true) (gs : List α) : ∀ s : State,
    ∀ m, AtRoom (gs.foldl (fun s g => postRoom s n (f g)) s) n m ↔ m ∈ gs.map f ∨ AtRoom s n m := by
  induction gs with
  | nil => simp
  | cons g gs ih =>
    intro s m
    rw [List.foldl_cons, ih, atRoom_postRoom (hw g), List.map_cons, List.mem_cons]
    tauto

/-! ### A line for the host, and messages for another device -/

/-- A line is asked of the host, or offered where the host interface accepts no work (R295, R396). -/
theorem addLines_one (s : State) (o : HostOwner) (line : Nat) :
    if accepts s (Block.hif.page 0) then (o, line, 1) ∈ (addLines s o line 1).host.lines
    else (addLines s o line 1).host.offered = s.host.offered ++ [(o, line, 1)] := by
  unfold addLines
  by_cases ha : accepts s (Block.hif.page 0) = true
  · simp only [ha, if_true, one_ne_zero, if_false]
    exact List.mem_append_right _ (mem_insertServed _ _ _)
  · simp [ha]

theorem addLines_wlines (s : State) (o : HostOwner) (line : Nat) : (addLines s o line 1).host.wlines = s.host.wlines := by
  unfold addLines
  split
  · rfl
  · split <;> rfl

theorem linkSends_linkOut {α : Type} {f : State → α → LinkMsg} {g : α → LinkMsg} (l : List α) : ∀ s : State,
    (∀ u a, HandedOn s u → f u a = g a) → (l.foldl (fun s a => linkSend s (f s a)) s).linkOut = s.linkOut ++ l.map g := by
  induction l with
  | nil => simp
  | cons a l ih =>
    intro s hf
    rw [List.foldl_cons, ih _ fun u b hu => hf u b ((handedOn_linkSend s _).trans hu), hf s a (.refl s)]
    simp [linkSend]

end Sys2Proof.Machine
end

section
/-! PROOFS. Granules on their way to a tile that its call slips enterOne into the landing buffer (R234, R236, R244). -/

namespace Sys2Proof.Machine

/-! ### One granule -/

/-- A tile with one granule more in its landing buffer, in flight on its call slip. -/
def Tile.takeLanding (t : Tile) (l : Landing) : Tile :=
  { t with landing := t.landing ++ [l] }.setSlip l.slip { t.slip l.slip with flight := (t.slip l.slip).flight + 1 }

/-- A granule enters the landing buffer, is discarded as no more wanted, or violates a window. -/
theorem enterLanding_cases (t : Tile) (l : Landing) : (∃ a, t.enterLanding l = (t.takeLanding { l with addr := a }, none)) ∨
    t.enterLanding l = (t, none) ∨ ∃ v, t.enterLanding l = (t, some v) := by
  unfold Tile.enterLanding
  split
  · split
    · exact .inl ⟨l.addr, rfl⟩
    · exact .inr (.inl rfl)
  · split
    · exact .inl ⟨_, rfl⟩
    · exact .inr (.inr ⟨_, rfl⟩)
  · split
    · exact .inl ⟨l.addr, rfl⟩
    · exact .inr (.inr ⟨_, rfl⟩)

/-- A stream's granule enters where it was sent to, or no window covers it (R234). -/
theorem enterLanding_stream (t : Tile) {l : Landing} {n q id : Nat} (h : l.owner = .stream n q id) :
    t.enterLanding l = (t.takeLanding l, none) ∨ (∃ v, t.enterLanding l = (t, some v)) ∧ t.anyWindow l.addr = false := by
  unfold Tile.enterLanding
  simp only [h]
  by_cases hw : (!t.wants q id || t.anyWindow l.addr) = true
  · exact .inl (if_pos hw)
  · refine .inr ⟨⟨_, if_neg hw⟩, ?_⟩
    simp only [Bool.or_eq_true, not_or, Bool.not_eq_true] at hw
    exact hw.2

/-- Granule l is admitted at tile x under call slip c; a window that it violates faults the job. -/
def enterOne (x : Site) (s : State) (l : Landing) (c : Nat) : State :=
  let p := { s.tile x with transit := (s.tile x).transit.erase l }.enterLanding { l with slip := c }
  match p.2 with
  | some (a, w, src) => windowViolation (s.setTile x p.1) x a w src
  | none => s.setTile x p.1

/-- Granule l is admitted where its call slip allows it and no older granule of that slip waits. -/
def pumpOne (x : Site) (s : State) (l : Landing) : State :=
  match (s.tile x).slipOf l with
  | none => s
  | some c =>
    if ((s.tile x).slip c).flight < ((s.tile x).slip c).allot
        && !((s.tile x).transit.takeWhile (· != l)).any (fun m => (s.tile x).slipOf m == some c) then enterOne x s l c
    else s

theorem pumpOne_cases (x : Site) (s : State) (l : Landing) : pumpOne x s l = s ∨ ∃ c, pumpOne x s l = enterOne x s l c := by
  unfold pumpOne
  split
  · exact .inl rfl
  · split
    · exact .inr ⟨_, rfl⟩
    · exact .inl rfl

theorem pumpFrom_cons (x : Site) (n : Nat) (l : Landing) (ls : List Landing) (s : State) :
    pumpFrom x (n + 1) (l :: ls) s = pumpFrom x n ls (pumpOne x s l) := by
  cases hc : (s.tile x).slipOf l with
  | none => simp only [pumpFrom, pumpOne, hc]
  | some c =>
    simp only [pumpFrom, pumpOne, hc]
    split
    · rfl
    · rfl

theorem pumpFrom_eq (x : Site) (ls : List Landing) : ∀ s : State, pumpFrom x ls.length ls s = ls.foldl (pumpOne x) s := by
  induction ls with
  | nil => exact fun _ => rfl
  | cons l ls ih => exact fun s => (pumpFrom_cons x ls.length l ls s).trans (ih _)

/-! ### What the granules leave as it was -/

/-- Two tiles that may differ only in granules on their way and landing, in what comes due of windows, call slips and scale states, and in
the record of violations. -/
def SameButTraffic (t u : Tile) : Prop :=
  u = { t with transit := u.transit, landing := u.landing, slips := u.slips, wdrop := u.wdrop, wfault := u.wfault, arrivals := u.arrivals,
               windows := u.windows, acc0 := u.acc0, acc1 := u.acc1, winWrites := u.winWrites, slipWrites := u.slipWrites,
               scaleWrites := u.scaleWrites }

theorem SameButTraffic.trans {t u v : Tile} (h : SameButTraffic t u) (g : SameButTraffic u v) : SameButTraffic t v := by
  unfold SameButTraffic at *
  rw [g, h]

theorem EffectsOnly.traffic {t u : Tile} (h : EffectsOnly t u) : SameButTraffic t u := by
  rw [h.frame]
  rfl

/-- From s to t granules on their way to tile x have moved, and the job may have faulted. -/
structure Moves (x : Site) (s t : State) : Prop where
  outside : TileAndFault x s t
  tile : SameButTraffic (s.tile x) (t.tile x)

theorem Moves.refl (x : Site) (s : State) : Moves x s s := ⟨.refl x s, rfl⟩

theorem Moves.trans {x : Site} {s t u : State} (h : Moves x s t) (g : Moves x t u) : Moves x s u :=
  ⟨h.outside.trans g.outside, h.tile.trans g.tile⟩

theorem moves_setTile {s : State} {x : Site} {t : Tile} (h : SameButTraffic (s.tile x) t) : Moves x s (s.setTile x t) :=
  ⟨tileAndFault_setTile s x t, by rw [setTile_tile]; exact h⟩

theorem moves_windowViolation (s : State) (x : Site) (addr win src : Nat) : Moves x s (windowViolation s x addr win src) :=
  ⟨tileAndFault_windowViolation s x addr win src, by rw [windowViolation_tile]; rfl⟩

theorem moves_enterOne (x : Site) (s : State) (l : Landing) (c : Nat) : Moves x s (enterOne x s l c) := by
  unfold enterOne
  rcases enterLanding_cases { s.tile x with transit := (s.tile x).transit.erase l } { l with slip := c } with ⟨a, h⟩ | h | ⟨v, h⟩ <;> rw [h]
  · exact moves_setTile (by exact rfl)
  · exact moves_setTile (by exact rfl)
  · exact (moves_setTile (by exact rfl)).trans (moves_windowViolation _ x _ _ _)

theorem moves_pumpOne (x : Site) (s : State) (l : Landing) : Moves x s (pumpOne x s l) := by
  rcases pumpOne_cases x s l with h | ⟨c, h⟩ <;> rw [h]
  · exact .refl x s
  · exact moves_enterOne x s l c

/-- Tile x with what comes due of its windows and call slips in effect, as granules enter it. -/
def settledAt (s : State) (x : Site) : State := s.onTile x fun t => t.settleEffects s.cycle

theorem pump_empty {s : State} {x : Site} (h : (s.tile x).transit = []) : pump s x = s := by rw [pump, h]; rfl

theorem pump_eq {s : State} {x : Site} (h : (s.tile x).transit ≠ []) : pump s x = (s.tile x).transit.foldl (pumpOne x) (settledAt s x) := by
  rw [pump, if_neg (by simpa using h), pumpFrom_eq]
  rfl

theorem moves_pump (s : State) (x : Site) : Moves x s (pump s x) := by
  by_cases h : (s.tile x).transit = []
  · rw [pump_empty h]
    exact .refl x s
  · rw [pump_eq h]
    exact foldl_keeps (Moves x s) _ (fun _ l hu => hu.trans (moves_pumpOne x _ l)) _ _
      (moves_setTile (effectsOnly_settleEffects _ _).traffic)

/-! ### A stream's granule on its way -/

/-- A granule with these bytes is on its way to address a of tile x or waits there to be written, or no window covers it and the job has
faulted (R234). -/
def Reaches (x : Site) (a : Nat) (data : List Byte) (o : Owner) (s : State) : Prop :=
  ∃ l : Landing, l.addr = a ∧ l.data = data ∧ l.owner = o ∧
    (l ∈ (s.tile x).transit ∨ l ∈ (s.tile x).landing ∨ ((s.tile x).anyWindow l.addr = false ∧ s.dev = .faulted))

theorem anyWindow_congr {t u : Tile} (h : u.windows = t.windows) (a : Nat) : u.anyWindow a = t.anyWindow a := by
  simp only [Tile.anyWindow, Tile.window, h]

/-- What an admission leaves: the windows, the other granules on their way, the granules that wait, and a fault. -/
theorem enterOne_keeps (x : Site) {s : State} (hf : FaultsJob s) (l : Landing) (c : Nat) :
    ((enterOne x s l c).tile x).windows = (s.tile x).windows ∧ ((enterOne x s l c).tile x).transit = (s.tile x).transit.erase l ∧
      (∀ m ∈ (s.tile x).landing, m ∈ ((enterOne x s l c).tile x).landing) ∧ FaultsJob (enterOne x s l c) ∧
      (s.dev = .faulted → (enterOne x s l c).dev = .faulted) := by
  unfold enterOne
  rcases enterLanding_cases { s.tile x with transit := (s.tile x).transit.erase l } { l with slip := c } with ⟨a, h⟩ | h | ⟨v, h⟩ <;> rw [h]
  · dsimp only
    rw [setTile_tile]
    exact ⟨rfl, rfl, fun m hm => List.mem_append_left _ hm, hf, fun h => h⟩
  · dsimp only
    rw [setTile_tile]
    exact ⟨rfl, rfl, fun m hm => hm, hf, fun h => h⟩
  · dsimp only
    have hdev := windowViolation_faults (s := s.setTile x { s.tile x with transit := (s.tile x).transit.erase l }) hf x v.1 v.2.1 v.2.2
    rw [windowViolation_tile, setTile_tile]
    exact ⟨rfl, rfl, fun m hm => hm, .inr (.inr hdev), fun _ => hdev⟩

/-- A stream's granule that is admitted waits in the landing buffer, or no window covers it. -/
theorem enterOne_stream (x : Site) {s : State} (hf : FaultsJob s) {l : Landing} (c : Nat) {n q id : Nat} (ho : l.owner = .stream n q id) :
    Reaches x l.addr l.data l.owner (enterOne x s l c) := by
  have hwin := (enterOne_keeps x hf l c).1
  rcases enterLanding_stream { s.tile x with transit := (s.tile x).transit.erase l } (l := { l with slip := c }) ho with h | ⟨⟨v, h⟩, hw⟩
  · refine ⟨{ l with slip := c }, rfl, rfl, rfl, .inr (.inl ?_)⟩
    simp only [enterOne, h]
    rw [setTile_tile]
    exact List.mem_append_right _ (List.mem_singleton.mpr rfl)
  · refine ⟨l, rfl, rfl, rfl, .inr (.inr ⟨(anyWindow_congr hwin _).trans hw, ?_⟩)⟩
    simp only [enterOne, h]
    exact windowViolation_faults (s := s.setTile x _) hf x _ _ _

/-- Moving what the call slips allow takes no stream's granule off its way but to where it lands. -/
theorem Reaches.pumpOne {x : Site} {s : State} {a : Nat} {data : List Byte} {n q id : Nat} (h : Reaches x a data (.stream n q id) s)
    (hf : FaultsJob s) (m : Landing) : Reaches x a data (.stream n q id) (pumpOne x s m) ∧ FaultsJob (Machine.pumpOne x s m) := by
  rcases pumpOne_cases x s m with hm | ⟨c, hm⟩ <;> rw [hm]
  · exact ⟨h, hf⟩
  obtain ⟨hwin, htransit, hland, hfaults, hfaulted⟩ := enterOne_keeps x hf m c
  refine ⟨?_, hfaults⟩
  obtain ⟨l, ha, hd, ho, hl | hl | ⟨hw, hdev⟩⟩ := h
  · by_cases hlm : l = m
    · rw [← ha, ← hd, ← ho, hlm]
      exact enterOne_stream x hf c (hlm ▸ ho)
    · exact ⟨l, ha, hd, ho, .inl (htransit ▸ (List.mem_erase_of_ne hlm).mpr hl)⟩
  · exact ⟨l, ha, hd, ho, .inr (.inl (hland l hl))⟩
  · exact ⟨l, ha, hd, ho, .inr (.inr ⟨(anyWindow_congr hwin _).trans hw, hfaulted hdev⟩)⟩

theorem reaches_pump {x : Site} {s : State} (hf : FaultsJob s) {l : Landing} {n q id : Nat} (ho : l.owner = .stream n q id)
    (hl : l ∈ (s.tile x).transit) : Reaches x l.addr l.data l.owner (pump s x) := by
  have hstart : Reaches x l.addr l.data (.stream n q id) (settledAt s x) := by
    refine ⟨l, rfl, rfl, ho, .inl ?_⟩
    rw [settledAt, onTile_tile, (effectsOnly_settleEffects _ _).frame]
    exact hl
  rw [pump_eq (List.ne_nil_of_mem hl), ho]
  exact (foldl_keeps (fun u => Reaches x l.addr l.data (.stream n q id) u ∧ FaultsJob u) _
    (fun u m hu => hu.1.pumpOne hu.2 m) _ _ ⟨hstart, hf⟩).1

end Sys2Proof.Machine
end

section
/-! PROOFS. What SENDING_READ leaves: a granule that stays in the send buffer, and those that leave it for each kind of request (R222, R270,
R278, R295, R327). -/

namespace Sys2Proof.Machine

/-! ### The granule is read -/

/-- A source granule of request r has been read: the clock stands at its cycle, the request counts it, GDDR7 and tile memory are as they
were. -/
def GranSent (s : State) (x : Site) (q : Nat) (r : Request) (t : State) : Prop :=
  t.cycle = sendCycle s x r ∧ t.gddr = s.gddr ∧ (t.tile x).request q r.id = some r.oneSent ∧
    TileMemSame ((s.tile x).upTo (sendCycle s x r)) (t.tile x)

/-- What the send buffer held of the request has left, and nothing but what waits elsewhere has changed beside tile x. -/
def BufferLeft (s : State) (x : Site) (q id : Nat) (t : State) : Prop :=
  (t.tile x).sendOf q id = [] ∧ t.dev = s.dev ∧ t.regs = s.regs ∧ ∀ y, y ≠ x → t.tile y = s.tile y

/-- The state without a request's granules in the send buffer of tile x. -/
def emptied (u : State) (x : Site) (q id : Nat) : State := u.onTile x fun t => t.dropSend q id

theorem sendOf_dropSend (t : Tile) (q id : Nat) : (t.dropSend q id).sendOf q id = [] := by
  simp [Tile.dropSend, Tile.sendOf, List.filter_filter]

theorem dropSend_frame (t : Tile) (q id : Nat) : t.dropSend q id = { t with sendBuf := (t.dropSend q id).sendBuf } := rfl

theorem emptied_frame (u : State) (x : Site) (q id : Nat) : emptied u x q id = { u with tiles := (emptied u x q id).tiles } := rfl

theorem emptied_tile (u : State) (x : Site) (q id : Nat) : (emptied u x q id).tile x = (u.tile x).dropSend q id := by rw [emptied, onTile_tile]

theorem emptied_tile_ne (u : State) {x y : Site} (q id : Nat) (h : y ≠ x) : (emptied u x q id).tile y = u.tile y := by
  rw [emptied, onTile_tile_ne _ _ h]

theorem granSent_sourceRead {s : State} {x : Site} {q : Nat} {r : Request} (h : (s.tile x).request q r.id = some r) :
    GranSent s x q r (sourceRead s x q r) := by
  obtain ⟨hframe, -⟩ := sourceRead_onlyTile s x q r
  refine ⟨sourceRead_cycle s x q r, by rw [hframe], ?_, ?_⟩ <;> rw [sourceRead_tile]
  · exact sourceTile_request s x q h
  · exact sourceTile_mem s x q r

/-- What leaves the clock, GDDR7, and the queues and memory of tile x as they were leaves the granule read. -/
theorem GranSent.congr {s t u : State} {x : Site} {q : Nat} {r : Request} (g : GranSent s x q r t) (hc : u.cycle = t.cycle)
    (hg : u.gddr = t.gddr) (hq : (u.tile x).queues = (t.tile x).queues) (hm : (u.tile x).mem = (t.tile x).mem) : GranSent s x q r u := by
  obtain ⟨hcycle, hgddr, hreq, hmem⟩ := g
  exact ⟨hc.trans hcycle, hg.trans hgddr, (request_congr hq q r.id).trans hreq, fun a => (tileMemSame_of_mem hm a).trans (hmem a)⟩

theorem granSent_emptied {s : State} {x : Site} {q : Nat} {r : Request} (h : (s.tile x).request q r.id = some r) :
    GranSent s x q r (emptied (sourceRead s x q r) x q r.id) := by
  refine (granSent_sourceRead h).congr ?_ ?_ ?_ ?_
  · rw [emptied_frame]
  · rw [emptied_frame]
  · rw [emptied_tile, dropSend_frame]
  · rw [emptied_tile, dropSend_frame]

section Left
variable {s t : State} {x : Site} {q : Nat} {r : Request} (g : HandedOn (emptied (sourceRead s x q r) x q r.id) t)
include g

theorem HandedOn.granSent (h : (s.tile x).request q r.id = some r) : GranSent s x q r t := by
  have htile : t.tile x = (emptied (sourceRead s x q r) x q r.id).tile x := tile_congr (by rw [g]) x
  exact (granSent_emptied h).congr (by rw [g]) (by rw [g]) (by rw [htile]) (by rw [htile])

theorem HandedOn.bufferLeft : BufferLeft s x q r.id t := by
  have htile (y : Site) : t.tile y = (emptied (sourceRead s x q r) x q r.id).tile y := tile_congr (by rw [g]) y
  obtain ⟨hframe, hother⟩ := sourceRead_onlyTile s x q r
  refine ⟨?_, ?_, ?_, fun y hy => ?_⟩
  · rw [htile, emptied_tile, sendOf_dropSend]
  · rw [g, emptied_frame, hframe]
  · rw [g, emptied_frame, hframe]
  · rw [htile, emptied_tile_ne _ _ _ hy, hother y hy]

end Left

/-- The first free cycle is the granule's (R222, R254). -/
theorem sendCycle_first {s : State} {x : Site} {r : Request} {i : Nat} (hi : i < 256) :
    let R := (s.tile x).ranked
    let b := max s.cycle r.ready
    let free (n : Nat) : Bool := bankFree (R.readsAt n ++ planAt (R.arrivalPlan b).reads n) (granOf (r.laddr + 32 * r.sent))
    free (b + i) = true → (∀ j < i, free (b + j) = false) → sendCycle s x r = b + i := by
  intro R b free h hj
  exact firstCycle_eq (ok := free) hi h hj

/-! ### What leaves with it -/

/-- The granules of request r in the send buffer once the next one is there. -/
def bufferOf (s : State) (x : Site) (q : Nat) (r : Request) : List SendGran := (s.tile x).sendOf q r.id ++ [sourceGran s x q r]

theorem sourceRead_sendOf (s : State) (x : Site) (q : Nat) (r : Request) : ((sourceRead s x q r).tile x).sendOf q r.id = bufferOf s x q r := by
  rw [sourceRead_tile, sourceTile_sendOf, bufferOf]

/-- The number of the first of a list of granules. -/
def firstIdx (q id : Nat) (gs : List SendGran) : Nat := (gs.headD { q := q, id := id, idx := 0, data := [] }).idx

theorem firstIdx_head {q id : Nat} {gs : List SendGran} {h : SendGran} (hh : h ∈ gs.head?) : firstIdx q id gs = h.idx := by
  cases gs with
  | nil => simp at hh
  | cons g gs =>
    rw [List.head?_cons, Option.mem_some_iff] at hh
    rw [← hh]
    rfl

/-- The unit that granules of a request make (R270). -/
def unitOf (u : State) (x : Site) (q : Nat) (r : Request) (gs : List SendGran) : UnitMsg :=
  let a := r.target + 32 * firstIdx q r.id gs
  { owner := .tile x q r.id, kind := r.kind, secure := jobSecure u, rg := r.rg, unit := a / 256, first := a / 32 % 8, count := gs.length,
    idx := firstIdx q r.id gs, data := gs.map (·.data) }

theorem unitOf_addr (u : State) (x : Site) (q : Nat) (r : Request) (gs : List SendGran) :
    256 * (unitOf u x q r gs).unit + 32 * (unitOf u x q r gs).first = (r.target + 32 * firstIdx q r.id gs) / 32 * 32 := by
  simp only [unitOf]
  omega

/-- A granule of an RWRITE on its way to its room (R278). -/
def granAccess (x : Site) (q : Nat) (r : Request) (g : SendGran) : RoomAcc :=
  { owner := .tile x q r.id, write := true, gran := (r.target % 2 ^ 23 / 32 + g.idx) % 2 ^ 18, idx := g.idx, data := g.data, poison := false }

/-- The place of an SSEND among those of its stream. -/
def sendPlace (u : State) (x : Site) (q : Nat) (r : Request) : Nat :=
  (u.stream (streamKey u r)).sends.findIdx fun e => e.site == x && e.q == q && e.id == r.id

/-- A granule of an SSEND on its way to another device (R327). -/
def streamMsg (u : State) (x : Site) (q : Nat) (r : Request) (g : SendGran) : LinkMsg :=
  { dest := r.worker, src := ownWid u, vc := 8, what := "streamData",
    words := [r.stream, x, sendPlace u x q r, g.idx, if jobSecure u then 1 else 0] ++ g.data.map (·.toNat) }

/-- A granule of an SSEND on its way to its SRECV on this device (R327). -/
def streamLanding (r : Request) (e : StreamEnd) (laddr : Nat) (g : SendGran) : Landing :=
  { addr := addr21 (Int.ofNat (laddr + 32 * g.idx)), data := g.data, owner := .stream r.stream e.q e.id, slip := 0, win := 0, off := 0 }

/-- Whether a granule is its request's last, or ends a block of n bytes. -/
def Request.ends (r : Request) (n : Nat) : Prop := r.sent = r.grans ∨ (r.target + 32 * r.sent) % n = 0

section Flush
variable {u : State} {x : Site} {q : Nat} {r : Request}

theorem flushSend_unit (hk : r.kind = .gwrite ∨ r.kind = .accum) :
    (r.ends 256 → flushSend u x q r = postUnit (emptied u x q r.id) (unitOf u x q r ((u.tile x).sendOf q r.id))) ∧
      (¬ r.ends 256 → flushSend u x q r = u) := by
  unfold Request.ends
  rcases hk with hk | hk <;> refine ⟨fun he => ?_, fun he => ?_⟩ <;> simp only [flushSend, hk, decide_eq_true_eq, he, if_true, if_false] <;>
    simp only [unitOf, firstIdx, emptied, hk]

theorem flushSend_rwrite (hk : r.kind = .rwrite) : flushSend u x q r = ((u.tile x).sendOf q r.id).foldl
    (fun s g => postRoom s (r.target / 2 ^ 23 % 64) (granAccess x q r g)) (emptied u x q r.id) := by
  simp only [flushSend, hk]
  rfl

/-- A line of an HWRITE whose bytes stand with the interface (R295). -/
def withLine (s : State) (o : HostOwner) (line : Nat) (data : List Byte) : State :=
  { s with host := { s.host with wlines := s.host.wlines ++ [(o, line, data)] } }

theorem flushSend_hwrite (hk : r.kind = .hwrite) :
    let gs := (u.tile x).sendOf q r.id
    let line := (r.target + 32 * firstIdx q r.id gs) / 64
    (r.ends 64 → flushSend u x q r =
      withLine (addLines (emptied u x q r.id) (.tile x q r.id) line 1) (.tile x q r.id) line (gs.flatMap (·.data))) ∧
      (¬ r.ends 64 → flushSend u x q r = u) := by
  unfold Request.ends
  refine ⟨fun he => ?_, fun he => ?_⟩ <;> simp only [flushSend, hk, decide_eq_true_eq, he, if_true, if_false]
  rfl

theorem flushSend_remote (hk : r.kind = .ssend) (hw : r.worker ≠ ownWid u) : flushSend u x q r = ((u.tile x).sendOf q r.id).foldl
    (fun s g => linkSend s (streamMsg s x q r g)) (emptied u x q r.id) := by
  simp only [flushSend, hk, hw, if_false]
  rfl

theorem flushSend_local (hk : r.kind = .ssend) (hw : r.worker = ownWid u) {e : StreamEnd} {v : Request}
    (he : (u.stream (streamKey u r)).recvs[sendPlace u x q r]? = some e) (hv : (u.tile e.site).request e.q e.id = some v) :
    flushSend u x q r = sendTo (emptied u x q r.id) e.site (((u.tile x).sendOf q r.id).map (streamLanding r e v.laddr)) := by
  unfold sendPlace at he
  simp only [flushSend, hk, hw, if_true, he, hv]
  rfl

end Flush

end Sys2Proof.Machine
end

section
/-! PROOFS. SENDING_READ, kind by kind (R222, R254, R270, R278, R295, R327). -/

namespace Sys2Proof.Machine

section Sending
variable (s : State) (x : Site) (q : Nat) (r : Request)

/-- The state that SENDING_READ leaves where request r has the next granule. -/
def granSentState : State := flushSend (sourceRead s x q r) x q r.oneSent

theorem emptied_onlyTile : OnlyTile x s (emptied (sourceRead s x q r) x q r.id) := (sourceRead_onlyTile s x q r).onTile _

theorem kept_sourceRead :
    ((sourceRead s x q r).tile x).sendBuf = (s.tile x).sendBuf ++ [sourceGran s x q r] ∧ OnlyTile x s (sourceRead s x q r) := by
  rw [sourceRead_tile]
  exact ⟨sourceTile_sendBuf s x q r, sourceRead_onlyTile s x q r⟩

end Sending

section Kinds
variable {s : State} {x : Site} {q : Nat} {r : Request} (h : (s.tile x).request q r.id = some r)
include h

/-- A granule of a GWRITE or ACCUM stays in the send buffer, or takes with it all that the buffer holds of the request, as one unit that
comes last at its controller (R270). -/
theorem sends_unit (hk : r.kind = .gwrite ∨ r.kind = .accum) : GranSent s x q r (granSentState s x q r) ∧
    (¬ r.oneSent.ends 256 → granSentState s x q r = sourceRead s x q r) ∧
    (r.oneSent.ends 256 → BufferLeft s x q r.id (granSentState s x q r) ∧
      ∃ u, u = unitOf (sourceRead s x q r) x q r (bufferOf s x q r) ∧
        ((granSentState s x q r).ctl (mcOf u.unit)).arrivals = (s.ctl (mcOf u.unit)).arrivals ++ [u]) := by
  obtain ⟨hend, hstay⟩ := flushSend_unit (u := sourceRead s x q r) (x := x) (q := q) (r := r.oneSent) hk
  have hgo (he : r.oneSent.ends 256) : granSentState s x q r =
      postUnit (emptied (sourceRead s x q r) x q r.id) (unitOf (sourceRead s x q r) x q r (bufferOf s x q r)) := by
    rw [← sourceRead_sendOf]
    exact hend he
  refine ⟨?_, hstay, fun he => ?_⟩
  · by_cases he : r.oneSent.ends 256
    · rw [hgo he]
      exact (handedOn_postUnit _ _).granSent h
    · rw [granSentState, hstay he]
      exact granSent_sourceRead h
  · rw [hgo he]
    refine ⟨(handedOn_postUnit _ _).bufferLeft, _, rfl, ?_⟩
    rw [postUnit_arrivals _ rfl, State.ctl, (emptied_onlyTile s x q r).1, State.ctl]

/-- Every granule of an RWRITE that the buffer holds goes to its bank (R278). -/
theorem sends_room (hk : r.kind = .rwrite) : GranSent s x q r (granSentState s x q r) ∧ BufferLeft s x q r.id (granSentState s x q r) ∧
    ∀ g ∈ bufferOf s x q r, AtRoom (granSentState s x q r) (r.target / 2 ^ 23 % 64) (granAccess x q r g) := by
  have hgo : granSentState s x q r = (bufferOf s x q r).foldl
      (fun s g => postRoom s (r.target / 2 ^ 23 % 64) (granAccess x q r g)) (emptied (sourceRead s x q r) x q r.id) := by
    rw [← sourceRead_sendOf]
    exact flushSend_rwrite (u := sourceRead s x q r) (r := r.oneSent) hk
  have hon : HandedOn (emptied (sourceRead s x q r) x q r.id) (granSentState s x q r) := by
    rw [hgo]
    exact HandedOn.foldl (fun u g => handedOn_postRoom u _ _) _ _
  refine ⟨hon.granSent h, hon.bufferLeft, fun g hg => ?_⟩
  rw [hgo]
  exact (atRoom_postRooms (f := granAccess x q r) (fun _ => rfl) _ _ _).mpr (.inl (List.mem_map_of_mem hg))

/-- A granule of an HWRITE stays in the send buffer, or takes with it the line that the buffer holds (R295). -/
theorem sends_host (hk : r.kind = .hwrite) :
    let line := (r.target + 32 * firstIdx q r.id (bufferOf s x q r)) / 64
    let t := granSentState s x q r
    GranSent s x q r t ∧ (¬ r.oneSent.ends 64 → t = sourceRead s x q r) ∧
    (r.oneSent.ends 64 → BufferLeft s x q r.id t ∧
      t.host.wlines = s.host.wlines ++ [(.tile x q r.id, line, (bufferOf s x q r).flatMap (·.data))] ∧
      (if accepts s (Block.hif.page 0) then (HostOwner.tile x q r.id, line, 1) ∈ t.host.lines
       else t.host.offered = s.host.offered ++ [(.tile x q r.id, line, 1)])) := by
  intro line t
  obtain ⟨hend, hstay⟩ := flushSend_hwrite (u := sourceRead s x q r) (x := x) (q := q) (r := r.oneSent) hk
  have hgo (he : r.oneSent.ends 64) : t = withLine (addLines (emptied (sourceRead s x q r) x q r.id) (.tile x q r.id) line 1)
      (.tile x q r.id) line ((bufferOf s x q r).flatMap (·.data)) := by
    simp only [line, ← sourceRead_sendOf]
    exact hend he
  have hon (he : r.oneSent.ends 64) : HandedOn (emptied (sourceRead s x q r) x q r.id) t := by
    rw [hgo he]
    exact (handedOn_addLines _ _ _ _).trans rfl
  have hhost : (emptied (sourceRead s x q r) x q r.id).host = s.host := by rw [(emptied_onlyTile s x q r).1]
  have hacc : accepts (emptied (sourceRead s x q r) x q r.id) (Block.hif.page 0) = accepts s (Block.hif.page 0) :=
    accepts_congr (by rw [(emptied_onlyTile s x q r).1]) _
  refine ⟨?_, hstay, fun he => ⟨(hon he).bufferLeft, ?_, ?_⟩⟩
  · by_cases he : r.oneSent.ends 64
    · exact (hon he).granSent h
    · rw [show t = sourceRead s x q r from hstay he]
      exact granSent_sourceRead h
  · rw [hgo he, withLine]
    dsimp only
    rw [addLines_wlines, hhost]
  · have hline := addLines_one (emptied (sourceRead s x q r) x q r.id) (.tile x q r.id) line
    rw [hacc, hhost] at hline
    rw [hgo he]
    exact hline

/-- Every granule of an SSEND to another device that the buffer holds sets out there (R327). -/
theorem sends_remote (hk : r.kind = .ssend) (hw : r.worker ≠ ownWid s) :
    GranSent s x q r (granSentState s x q r) ∧ BufferLeft s x q r.id (granSentState s x q r) ∧
    (granSentState s x q r).linkOut = s.linkOut ++ (bufferOf s x q r).map (streamMsg s x q r) := by
  have hframe := (emptied_onlyTile s x q r).1
  have hown : ownWid (sourceRead s x q r) = ownWid s := ownWid_congr (by rw [(sourceRead_onlyTile s x q r).1])
  have hgo : granSentState s x q r = (bufferOf s x q r).foldl
      (fun s g => linkSend s (streamMsg s x q r g)) (emptied (sourceRead s x q r) x q r.id) := by
    rw [← sourceRead_sendOf]
    exact flushSend_remote (u := sourceRead s x q r) (r := r.oneSent) hk (by rw [hown]; exact hw)
  have hon : HandedOn (emptied (sourceRead s x q r) x q r.id) (granSentState s x q r) := by
    rw [hgo]
    exact HandedOn.foldl (fun u g => handedOn_linkSend u _) _ _
  refine ⟨hon.granSent h, hon.bufferLeft, ?_⟩
  rw [hgo, linkSends_linkOut (g := streamMsg s x q r) _ _ fun u g hu => ?_, hframe]
  rw [hu, hframe]
  rfl

end Kinds

/-! ### An SSEND on this device -/

theorem sendTo_eq {s : State} {y : Site} (h : (s.tile y).pwr ≠ .fenced) (ls : List Landing) :
    sendTo s y ls = pump (s.onTile y fun t => { t with transit := t.transit ++ ls }) y := if_neg h

theorem moves_sendTo {s : State} {y : Site} (h : (s.tile y).pwr ≠ .fenced) (ls : List Landing) : Moves y s (sendTo s y ls) := by
  rw [sendTo_eq h]
  exact (moves_setTile (by exact rfl)).trans (moves_pump _ y)

theorem reaches_sendTo {s : State} {y : Site} (h : (s.tile y).pwr ≠ .fenced) (hf : FaultsJob s) {ls : List Landing} {l : Landing}
    {n q id : Nat} (ho : l.owner = .stream n q id) (hl : l ∈ ls) : Reaches y l.addr l.data l.owner (sendTo s y ls) := by
  rw [sendTo_eq h]
  refine reaches_pump (s := s.onTile y _) hf ho ?_
  rw [onTile_tile]
  exact List.mem_append_right _ hl

/-- Moving granules to tile y leaves the queues, memory and send buffer of every tile. -/
theorem Moves.tileKept {y : Site} {s t : State} (m : Moves y s t) (x : Site) : (t.tile x).queues = (s.tile x).queues ∧
    (t.tile x).mem = (s.tile x).mem ∧ (t.tile x).sendBuf = (s.tile x).sendBuf := by
  by_cases hx : x = y
  · rw [hx, m.tile]
    exact ⟨rfl, rfl, rfl⟩
  · rw [m.outside.others x hx]
    exact ⟨rfl, rfl, rfl⟩

/-- A request's landing area is where it was, whatever request has had a granule read. -/
theorem sourceRead_laddr (s : State) (x : Site) {q : Nat} {r : Request} (h : (s.tile x).request q r.id = some r) {y : Site} {p id : Nat}
    {v : Request} (hv : (s.tile y).request p id = some v) :
    ∃ w, ((sourceRead s x q r).tile y).request p id = some w ∧ w.laddr = v.laddr := by
  by_cases hy : y = x
  · subst hy
    have hreq : ((sourceRead s y q r).tile y).request p id =
        if p = q ∧ id = r.oneSent.id then ((s.tile y).request p id).map (fun _ => r.oneSent) else (s.tile y).request p id := by
      rw [sourceRead_tile, ← request_congr (upTo_queues (s.tile y) (sendCycle s y r)) p id, ← request_setRequest]
      exact request_congr (by rw [sourceTile, takeSource_frame]) p id
    rw [hreq]
    by_cases hp : p = q ∧ id = r.oneSent.id
    · obtain ⟨rfl, rfl⟩ := hp
      have hvr : v = r := Option.some.inj (hv.symm.trans h)
      rw [if_pos ⟨rfl, rfl⟩, hv, hvr]
      exact ⟨_, rfl, rfl⟩
    · rw [if_neg hp]
      exact ⟨v, hv, rfl⟩
  · rw [(sourceRead_onlyTile s x q r).2 y hy]
    exact ⟨v, hv, rfl⟩

/-- The SRECV that an SSEND is matched with is known by the streams and the worker's number. -/
theorem partnerEnd_congr {s u : State} (hs : u.streams = s.streams) (hr : u.regs = s.regs) (x : Site) (q : Nat) (r : Request) :
    (u.stream (streamKey u r)).recvs[sendPlace u x q r]? = (s.stream (streamKey s r)).recvs[sendPlace s x q r]? := by
  simp only [sendPlace, State.stream, streamKey, hs, ownWid_congr hr]

/-- Every granule of an SSEND on this device that the buffer holds sets out towards its SRECV's landing area (R327). -/
theorem sends_local {s : State} {x : Site} {q : Nat} {r : Request} (hr : s.dev = .run) (h : (s.tile x).request q r.id = some r)
    (hk : r.kind = .ssend) (hw : r.worker = ownWid s) {e : StreamEnd} {v : Request}
    (he : (s.stream (streamKey s r)).recvs[sendPlace s x q r]? = some e) (hv : (s.tile e.site).request e.q e.id = some v)
    (hp : (s.tile e.site).pwr ≠ .fenced) :
    GranSent s x q r (granSentState s x q r) ∧ ((granSentState s x q r).tile x).sendOf q r.id = [] ∧
    (∀ y, y ≠ x → y ≠ e.site → (granSentState s x q r).tile y = s.tile y) ∧
    ∀ g ∈ bufferOf s x q r, Reaches e.site (addr21 (Int.ofNat (v.laddr + 32 * g.idx))) g.data (.stream r.stream e.q e.id)
      (granSentState s x q r) := by
  obtain ⟨w, hwreq, hladdr⟩ := sourceRead_laddr s x h hv
  have hframe := (sourceRead_onlyTile s x q r).1
  have hgo : granSentState s x q r = sendTo (emptied (sourceRead s x q r) x q r.id) e.site
      ((bufferOf s x q r).map (streamLanding r e v.laddr)) := by
    rw [← sourceRead_sendOf, ← hladdr]
    refine flushSend_local (u := sourceRead s x q r) (r := r.oneSent) hk ?_ ?_ hwreq
    · rw [ownWid_congr (s := s) (by rw [hframe])]
      exact hw
    · rw [← partnerEnd_congr (u := sourceRead s x q r) (by rw [hframe]) (by rw [hframe])] at he
      exact he
  obtain ⟨heframe, heother⟩ := emptied_onlyTile s x q r
  have hpwr : ((emptied (sourceRead s x q r) x q r.id).tile e.site).pwr ≠ .fenced := by
    by_cases hx : e.site = x
    · rw [hx, emptied_tile, dropSend_frame, sourceRead_tile, sourceTile, takeSource_frame, (settled_upTo _ _).due, ← hx]
      exact hp
    · rw [heother _ hx]
      exact hp
  have hmoves : Moves e.site (emptied (sourceRead s x q r) x q r.id) (granSentState s x q r) := hgo ▸ moves_sendTo hpwr _
  obtain ⟨hqueues, hmem, hbuf⟩ := hmoves.tileKept x
  refine ⟨(granSent_emptied h).congr ?_ ?_ hqueues hmem, ?_, fun y hx hy => ?_, fun g hg => ?_⟩
  · rw [hmoves.outside.frame]
  · rw [hmoves.outside.frame]
  · rw [Tile.sendOf, hbuf, emptied_tile]
    exact sendOf_dropSend _ q r.id
  · rw [hmoves.outside.others y hy, heother y hx]
  · rw [hgo]
    have hfaults : FaultsJob (emptied (sourceRead s x q r) x q r.id) := .inl (by rw [heframe]; exact hr)
    exact reaches_sendTo hpwr hfaults (l := streamLanding r e v.laddr g) rfl (List.mem_map_of_mem hg)

end Sys2Proof.Machine
end

section
/-! PROOFS. LANDING_WRITE (R45, R222, R229, R236), and O12. -/

namespace Sys2Proof.Machine

/-! ### The granule leaves the landing buffer -/

/-- A tile whose landing buffer has given up granule l at place i: its call slip takes the granule back. -/
def Tile.dropLanding (t : Tile) (i : Nat) (l : Landing) : Tile :=
  { t with landing := t.landing.eraseIdx i }.setSlip l.slip { t.slip l.slip with flight := (t.slip l.slip).flight - 1 }

/-- The tile once allotments are granted, and that granule is written in cycle c. -/
def Tile.writeLanding (t : Tile) (i : Nat) (l : Landing) (c : Nat) : Tile := (t.dropLanding i l).grantSlips.writeMem c l.addr l.data

section Landed
variable (t : Tile) (i : Nat) (l : Landing) (c : Nat)

theorem dropLanding_frame : t.dropLanding i l = { t with landing := t.landing.eraseIdx i, slips := (t.dropLanding i l).slips } := rfl

theorem writeLanding_settled : Settled (t.dropLanding i l) (t.writeLanding i l c) :=
  (settled_writeMem _ c l.addr l.data).after (effectsOnly_grantSlips _)

theorem writeLanding_landing : (t.writeLanding i l c).landing = t.landing.eraseIdx i := by rw [(writeLanding_settled t i l c).due, dropLanding_frame]
theorem writeLanding_transit : (t.writeLanding i l c).transit = t.transit := by rw [(writeLanding_settled t i l c).due, dropLanding_frame]
theorem writeLanding_queues : (t.writeLanding i l c).queues = t.queues := by rw [(writeLanding_settled t i l c).due, dropLanding_frame]

theorem writeLanding_flight : ((t.writeLanding i l c).slip l.slip).flight = (t.slip l.slip).flight - 1 := by
  rw [(writeLanding_settled t i l c).flight, Tile.dropLanding, Tile.setSlip, Tile.slip, SMap.get_set_self]

end Landed

/-! ### The request counts it -/

theorem postOutcome_done {s : State} {x : Site} {q id : Nat} {r : Request} (h : (s.tile x).request q id = some r) (hp : r.posted = none)
    (c : Nat) : postOutcome s x q id .done c = s.onTile x fun t => t.setRequest q { r with posted := some (.done, c) } := by
  have hmay : r.mayPost .done c = true := by simp [Request.mayPost, hp]
  simp [postOutcome, h, hmay, State.onTile, Tile.post]

/-- A request with one granule more landed in cycle c; the last one posts DONE (R176, R229). -/
def Request.oneLanded (r : Request) (c : Nat) : Request :=
  { r with landed := r.landed + 1, posted := if r.landed + 1 = r.grans then some (.done, c) else none }

/-- From s to t only the queues of tile x have changed. -/
structure OnlyQueues (x : Site) (s t : State) : Prop where
  frame : t = { s with tiles := t.tiles }
  tile : t.tile x = { s.tile x with queues := (t.tile x).queues }
  others : ∀ y, y ≠ x → t.tile y = s.tile y

theorem OnlyQueues.trans {x : Site} {s t u : State} (h : OnlyQueues x s t) (g : OnlyQueues x t u) : OnlyQueues x s u :=
  ⟨by rw [g.frame, h.frame], by rw [g.tile, h.tile], fun y hy => (g.others y hy).trans (h.others y hy)⟩

theorem OnlyQueues.tileKept {x : Site} {s t : State} (h : OnlyQueues x s t) : (t.tile x).transit = (s.tile x).transit ∧
    (t.tile x).landing = (s.tile x).landing ∧ (t.tile x).slips = (s.tile x).slips ∧ (t.tile x).mem = (s.tile x).mem := by
  rw [h.tile]
  exact ⟨rfl, rfl, rfl, rfl⟩

theorem onlyQueues_setRequest (s : State) (x : Site) (q : Nat) (r : Request) : OnlyQueues x s (s.onTile x fun t => t.setRequest q r) :=
  ⟨rfl, by rw [onTile_tile]; rfl, fun _ hy => onTile_tile_ne s _ hy⟩

/-- A granule of a request that waits, and is no LOAN's, changes that request alone. -/
theorem countLanded_counts {s : State} {x : Site} {q id : Nat} {r : Request} (h : (s.tile x).request q id = some r) (hp : r.posted = none)
    (hk : r.kind ≠ .loan) (c : Nat) : OnlyQueues x s (countLanded s x q id c) ∧
      ((countLanded s x q id c).tile x).request q id = some (r.oneLanded c) := by
  have hid : r.id = id := request_id h
  let s1 := s.onTile x fun t => t.setRequest q { r with landed := r.landed + 1 }
  have h1 : (s1.tile x).request q id = some { r with landed := r.landed + 1 } := by
    simp only [s1]
    rw [onTile_tile]
    exact request_setRequest_self h hid
  have hone : OnlyQueues x s s1 := onlyQueues_setRequest s x q _
  by_cases hlast : r.landed + 1 = r.grans
  · have hcount : countLanded s x q id c = postOutcome s1 x q id .done c := by
      simp only [countLanded, h, if_neg hk]
      exact if_pos hlast
    rw [hcount, postOutcome_done h1 hp]
    refine ⟨hone.trans (onlyQueues_setRequest s1 x q _), ?_⟩
    rw [onTile_tile, Request.oneLanded, if_pos hlast]
    exact request_setRequest_self h1 hid
  · have hcount : countLanded s x q id c = s1 := by
      simp only [countLanded, h, if_neg hk]
      exact if_neg hlast
    rw [hcount, h1, Request.oneLanded, if_neg hlast, ← hp]
    exact ⟨hone, rfl⟩

/-! ### The command -/

section Command
variable {s : State} {x : Site} {i c : Nat} {l : Landing} {q id : Nat} {r : Request}

/-- The state once granule l, at place i of the landing buffer, is written in cycle c. -/
def granLanded (s : State) (x : Site) (i : Nat) (l : Landing) (c : Nat) : State := (toCycle s c).setTile x ((s.tile x).writeLanding i l c)

theorem granLanded_tile : (granLanded s x i l c).tile x = (s.tile x).writeLanding i l c := by rw [granLanded, setTile_tile]

theorem granLanded_request (h : (s.tile x).request q id = some r) : ((granLanded s x i l c).tile x).request q id = some r := by
  rw [granLanded_tile]
  exact (request_congr (writeLanding_queues _ _ _ _) q id).trans h

theorem exec_landingWrite (hj : jobRuns s = true) (ht : (s.tile x).transit = []) (hn : nextLanding s x = some (i, l, c))
    (ho : l.owner = .req q id) (h : (s.tile x).request q id = some r) (hp : r.posted = none) :
    exec (.landingWrite x) s = .next (pump (countLanded (granLanded s x i l c) x q id c) x) := by
  have hf : faultedNow s = false := by
    simp only [jobRuns, Bool.or_eq_true, beq_iff_eq] at hj
    rcases hj with hj | hj <;> simp [faultedNow, hj]
  have hw : landingWanted (toCycle s c) x l c = true := by simp [landingWanted, ho, Tile.wantsAt, h, hp]
  change execLandingWrite x s = _
  simp only [execLandingWrite, hj, hf, pump_empty ht, hn, hw, ho, Bool.true_or, Bool.false_and, if_true, Bool.false_eq_true, if_false]
  rfl

end Command

/-- Settles O12: what SENDING_READ leaves is `granSentState`, kind by kind (`sends_unit`, `sends_room`, `sends_host`, `sends_remote`,
`sends_local`); LANDING_WRITE writes `Tile.writeLanding` and counts the granule (`countLanded_counts`). -/
theorem queueTraffic : Obligations.QueueTraffic := by
  unfold Obligations.QueueTraffic
  constructor
  · intro s x q r hr hn h hb c T a g gs ends whole R b busy sent kept left
    have hexec : exec (.sendingRead x) s = .next (granSentState s x q r) := exec_sendingRead hr hn hb
    have hkept : kept (sourceRead s x q r) := kept_sourceRead s x q r
    refine ⟨fun i hi => sendCycle_first hi, fun hk => ?_, fun hk => ?_, fun hk => ?_, fun hk => ⟨fun hw => ?_, fun e v hw he hv hpwr => ?_⟩⟩
    · obtain ⟨hsent, hstay, hleave⟩ := sends_unit h hk
      refine ⟨_, ⟨hexec, hsent⟩, fun he => by rw [hstay he]; exact hkept, fun he => ?_⟩
      obtain ⟨hleft, u, hu, harr⟩ := hleave he
      refine ⟨hleft, u, harr, ?_⟩
      rw [hu]
      refine ⟨rfl, rfl, rfl, rfl, rfl, fun m hm => ?_⟩
      have hidx : firstIdx q r.id (bufferOf s x q r) = m.idx := firstIdx_head hm
      rw [unitOf_addr, hidx]
      exact ⟨hidx, rfl⟩
    · obtain ⟨hsent, hleft, hroom⟩ := sends_room h hk
      refine ⟨_, ⟨hexec, hsent⟩, hleft, fun m hm => ⟨granAccess x q r m, rfl, rfl, rfl, rfl, rfl, ?_⟩⟩
      have hat := hroom m hm
      rw [AtRoom, accepts_congr hleft.2.2.1] at hat
      exact hat
    · obtain ⟨hsent, hstay, hleave⟩ := sends_host h hk
      refine ⟨_, ⟨hexec, hsent⟩, fun he => by rw [hstay he]; exact hkept, fun he => ?_⟩
      obtain ⟨hleft, hlines⟩ := hleave he
      refine ⟨hleft, fun m hm => ?_⟩
      have hidx : firstIdx q r.id (bufferOf s x q r) = m.idx := firstIdx_head hm
      rw [hidx] at hlines
      exact hlines
    · obtain ⟨hsent, hleft, hlink⟩ := sends_remote h hk hw
      exact ⟨_, ⟨hexec, hsent⟩, hleft, hlink⟩
    · obtain ⟨hsent, hempty, hothers, hreach⟩ := sends_local hr h hk hw he hv hpwr
      refine ⟨_, ⟨hexec, hsent⟩, hempty, hothers, fun m hm => ?_⟩
      exact hreach m hm
  · intro s x i c l q id r hj ht hn ho h hp hk hl U
    have hreq : ((granLanded s x i l c).tile x).request q id = some r := granLanded_request h
    obtain ⟨hqueues, hcount⟩ := countLanded_counts hreq hp hk c
    obtain ⟨htransit, hlanding, hslips, hmem⟩ := hqueues.tileKept
    rw [granLanded_tile] at htransit hlanding hslips hmem
    have hrest : pump (countLanded (granLanded s x i l c) x q id c) x = countLanded (granLanded s x i l c) x q id c :=
      pump_empty (by rw [htransit, writeLanding_transit, ht])
    refine ⟨_, exec_landingWrite hj ht hn ho h hp, ?_⟩
    rw [hrest]
    refine ⟨?_, ?_, fun k hk => ?_, fun k hk hout => ?_, ?_, hcount, fun y hy => ?_, ?_⟩
    · rw [hqueues.frame, granLanded, setTile_cycle, toCycle_cycle]
    · rw [hlanding, writeLanding_landing]
    · exact (tileMemSame_of_mem hmem _).trans (writeMem_byteAt_inside _ c hl hk)
    · exact (tileMemSame_of_mem hmem _).trans (writeMem_byteAt_outside _ c hl hk hout)
    · rw [Tile.slip, hslips]
      exact writeLanding_flight _ _ _ _
    · rw [hqueues.others y hy, granLanded, setTile_tile_ne _ _ hy, toCycle_tile]
    · rw [hqueues.frame, granLanded, setTile_gddr, toCycle_gddr]

end Sys2Proof.Machine
end

section
/-! PROOFS. The check of the flits that enter a tile's port, each in its entry cycle (R234, R243). -/

namespace Sys2Proof.Machine

theorem OnlyTile.refl (x : Site) (s : State) : OnlyTile x s s := ⟨rfl, fun _ _ => rfl⟩

theorem OnlyTile.trans {x : Site} {s t u : State} (h : OnlyTile x s t) (g : OnlyTile x t u) : OnlyTile x s u := by
  obtain ⟨hframe, hothers⟩ := h
  obtain ⟨gframe, gothers⟩ := g
  exact ⟨by rw [gframe, hframe], fun y hy => (gothers y hy).trans (hothers y hy)⟩

/-! ### Violations of one flit -/

/-- A count of a violation leaves the arrival buffer as it was. -/
theorem noteViolation_arrivals (t : Tile) (addr win src : Nat) : (t.noteViolation addr win src).arrivals = t.arrivals := rfl

/-- Once a violation has been counted, one is recorded (R243). -/
theorem noteViolation_recorded (t : Tile) (addr win src : Nat) : bit (t.noteViolation addr win src).wfault 31 = true := by
  rw [Tile.noteViolation]
  dsimp only
  split
  · assumption
  · simp only [bit, fld, wfaultWord, BitVec.toNat_ofNat, beq_iff_eq]
    omega

/-- What counting the violations of a flit leaves: the clock, and all but the tile and the job's fault. Either none has been counted, or the
job has faulted. -/
theorem dropViolations_cases {s : State} (h : FaultsJob s) (x : Site) (a : Arrival) :
    TileAndFault x s (dropViolations s x a) ∧ ((dropViolations s x a).tile x).arrivals = (s.tile x).arrivals ∧
      (dropViolations s x a = s ∨ (dropViolations s x a).dev = .faulted) := by
  have hjob {u : State} (hu : u = s ∨ u.dev = .faulted) : FaultsJob u := hu.elim (fun he => he ▸ h) fun hf => .inr (.inr hf)
  unfold dropViolations
  refine foldl_keeps (fun u => TileAndFault x s u ∧ (u.tile x).arrivals = (s.tile x).arrivals ∧ (u = s ∨ u.dev = .faulted)) _
    (fun u p hu => ?_) _ _ ⟨.refl x s, rfl, .inl rfl⟩
  obtain ⟨hframe, harr, hdev⟩ := hu
  split
  · exact ⟨hframe, harr, hdev⟩
  · refine ⟨hframe.trans (tileAndFault_windowViolation u x _ _ _), ?_, .inr (windowViolation_faults (hjob hdev) x _ _ _)⟩
    rw [windowViolation_tile, noteViolation_arrivals, harr]

/-! ### One flit -/

/-- A tile once flit i of its arrival buffer has been checked in its entry cycle, with what came due by then (R234). -/
def Tile.entered (t : Tile) (i e : Nat) : Tile :=
  let u := (t.settleEffects e).checkArrivals e
  { u with arrivals := u.arrivals.zipIdx.map fun (b, j) => if j = i then { b with noted := true } else b }

theorem entered_flits (t : Tile) (i e : Nat) : (t.entered i e).arrivals.map Arrival.bare = t.arrivals.map Arrival.bare := by
  have hcheck := (effectsOnly_settleEffects t e).trans (effectsOnly_checkArrivals _ e)
  rw [← hcheck.flits, Tile.entered]
  dsimp only
  generalize ((t.settleEffects e).checkArrivals e).arrivals = l
  have hone (p : Arrival × Nat) : Arrival.bare (if p.2 = i then { p.1 with noted := true } else p.1) = p.1.bare := by split <;> rfl
  calc _ = (l.zipIdx.map Prod.fst).map Arrival.bare := by
        rw [List.map_map, List.map_map]
        exact List.map_congr_left fun p _ => hone p
    _ = _ := by rw [List.zipIdx_map_fst]

/-- A flit is checked in its entry cycle, and its violations counted then. -/
theorem enterFlit_eq {x : Site} {s : State} {i : Nat} {a b : Arrival} (ha : (s.tile x).arrivals[i]? = some a) (hn : a.noted = false)
    (hr : recordsIn s (max s.cycle a.entry) = true)
    (hb : (((s.tile x).settleEffects a.entry).checkArrivals a.entry).arrivals[i]? = some b) :
    enterFlit x s i = dropViolations ((toCycle s a.entry).setTile x ((s.tile x).entered i a.entry)) x b := by
  have htile : (toCycle s a.entry).tile x = s.tile x := toCycle_tile s a.entry x
  have hskip : ¬ (a.noted || !recordsIn s (Nat.max s.cycle a.entry)) = true := by
    have hmax : Nat.max s.cycle a.entry = max s.cycle a.entry := rfl
    rw [hn, hmax, hr]
    decide
  rw [enterFlit, ha]
  dsimp only
  rw [if_neg hskip, htile, hb]
  rfl

/-- A flit whose violations have been counted, or may no longer be, changes nothing; another is checked in its entry cycle. -/
theorem enterFlit_cases (x : Site) (s : State) (i : Nat) : enterFlit x s i = s ∨ ∃ a b, (s.tile x).arrivals[i]? = some a ∧
    enterFlit x s i = dropViolations ((toCycle s a.entry).setTile x ((s.tile x).entered i a.entry)) x b := by
  cases ha : (s.tile x).arrivals[i]? with
  | none => exact .inl (by rw [enterFlit, ha])
  | some a =>
    by_cases hskip : (a.noted || !recordsIn s (Nat.max s.cycle a.entry)) = true
    · exact .inl (by rw [enterFlit, ha]; exact if_pos hskip)
    have hcheck := (effectsOnly_settleEffects (s.tile x) a.entry).trans (effectsOnly_checkArrivals _ a.entry)
    have hlen := congrArg List.length hcheck.flits
    rw [List.length_map, List.length_map] at hlen
    obtain ⟨hi, -⟩ := List.getElem?_eq_some_iff.mp ha
    simp only [Bool.or_eq_true, Bool.not_eq_true', not_or, Bool.not_eq_true, Bool.not_eq_false] at hskip
    exact .inr ⟨a, _, rfl, enterFlit_eq ha hskip.1 hskip.2 (List.getElem?_eq_getElem (hlen ▸ hi))⟩

/-- From s to u flits have been checked in cycles up to c, the tile's own work apart: but for the tile and the clock only the job's fault
has changed, and that only where it has faulted. -/
structure Entered (x : Site) (c : Nat) (s u : State) : Prop where
  frame : u = { s with tiles := u.tiles, dev := u.dev, rgs := u.rgs, cycle := u.cycle, time := u.time, phase := u.phase, chron := u.chron }
  others : ∀ y, y ≠ x → u.tile y = s.tile y
  flits : (u.tile x).arrivals.map Arrival.bare = (s.tile x).arrivals.map Arrival.bare
  le_cycle : s.cycle ≤ u.cycle
  cycle_le : u.cycle ≤ max s.cycle c
  faults : FaultsJob u
  job : u.rgs.job = s.rgs.job
  calm : u.dev ≠ .faulted → OnlyTile x s u

theorem Entered.refl {x : Site} {c : Nat} {s : State} (h : FaultsJob s) : Entered x c s s :=
  ⟨rfl, fun _ _ => rfl, rfl, le_rfl, le_max_left _ _, h, rfl, fun _ => OnlyTile.refl x s⟩

theorem Entered.trans {x : Site} {c : Nat} {s t u : State} (h : Entered x c s t) (g : Entered x c t u) : Entered x c s u := by
  refine ⟨by rw [g.frame, h.frame], fun y hy => (g.others y hy).trans (h.others y hy), g.flits.trans h.flits,
    h.le_cycle.trans g.le_cycle, ?_, g.faults, g.job.trans h.job, fun hdev => ?_⟩
  · have := g.cycle_le
    have := h.cycle_le
    omega
  · have hlast := g.calm hdev
    have hsame : u.dev = t.dev := by rw [hlast.1]
    exact (h.calm (hsame ▸ hdev)).trans hlast

theorem entered_enterFlit {x : Site} {c : Nat} {s : State} (h : FaultsJob s) {i : Nat}
    (hi : ∀ a, (s.tile x).arrivals[i]? = some a → a.entry ≤ c) : Entered x c s (enterFlit x s i) := by
  rcases enterFlit_cases x s i with he | ⟨a, b, ha, he⟩
  · rw [he]
    exact .refl h
  have hclock : Entered x c s ((toCycle s a.entry).setTile x ((s.tile x).entered i a.entry)) := by
    have hcycle : (toCycle s a.entry).cycle = max s.cycle a.entry := toCycle_cycle s a.entry
    have hle := hi a ha
    refine ⟨?_, fun y hy => ?_, ?_, ?_, ?_, ?_, ?_, fun _ => (OnlyTile.toCycle x s a.entry).setTile _⟩
    · rw [State.setTile, toCycle_frame]
    · rw [setTile_tile_ne _ _ hy, toCycle_tile]
    · rw [setTile_tile, entered_flits]
    · rw [setTile_cycle, hcycle]
      omega
    · rw [setTile_cycle, hcycle]
      omega
    · rw [FaultsJob, setTile_dev, toCycle_dev]
      exact h
    · rw [setTile_rgs, toCycle_rgs]
  obtain ⟨hframe, harr, hdrop⟩ := dropViolations_cases hclock.faults x b
  rw [← he] at hframe harr hdrop
  have hcycle : (enterFlit x s i).cycle = ((toCycle s a.entry).setTile x ((s.tile x).entered i a.entry)).cycle := by rw [hframe.frame]
  refine hclock.trans ⟨?_, hframe.others, by rw [harr], hcycle.ge, hcycle ▸ le_max_left _ _, ?_, hframe.job, fun hdev => ?_⟩
  · rw [hframe.frame]
  · rcases hdrop with hsame | hfault
    · rw [hsame]
      exact hclock.faults
    · exact .inr (.inr hfault)
  · rw [hdrop.resolve_right hdev]
    exact OnlyTile.refl x _

/-! ### The flits due -/

/-- A flit keeps its entry cycle, whatever its check has added. -/
theorem entry_of_bare {l m : List Arrival} (h : m.map Arrival.bare = l.map Arrival.bare) {i : Nat} {a : Arrival} (ha : m[i]? = some a) :
    ∃ b, l[i]? = some b ∧ a.entry = b.entry := by
  have hat : (l[i]?).map Arrival.bare = some a.bare := by rw [← List.getElem?_map, ← h, List.getElem?_map, ha, Option.map_some]
  obtain ⟨b, hb, hbare⟩ := Option.map_eq_some_iff.mp hat
  exact ⟨b, hb, (congrArg Arrival.entry hbare).symm⟩

/-- The places in the arrival buffer of the flits that enter up to cycle c. -/
def Tile.entersBy (t : Tile) (c : Nat) : List Nat := (t.arrivals.zipIdx.filter fun p => decide (p.1.entry ≤ c)).map (·.2)

theorem enterUpTo_eq (s : State) (x : Site) (c : Nat) : enterUpTo s x c = ((s.tile x).entersBy c).foldl (enterFlit x) s := rfl

theorem entry_le_of_entersBy {t : Tile} {c i : Nat} (h : i ∈ t.entersBy c) {a : Arrival} (ha : t.arrivals[i]? = some a) : a.entry ≤ c := by
  rw [Tile.entersBy] at h
  obtain ⟨p, hp, rfl⟩ := List.mem_map.mp h
  obtain ⟨hmem, hle⟩ := List.mem_filter.mp hp
  rw [List.mem_zipIdx_iff_getElem?.mp hmem, Option.some_inj] at ha
  rw [← ha]
  exact of_decide_eq_true hle

/-- Places of flits that enter up to cycle c are checked one after the other. -/
theorem entered_foldl {x : Site} {c : Nat} {s u : State} (h : Entered x c s u) {is : List Nat}
    (his : ∀ i ∈ is, ∀ a, (s.tile x).arrivals[i]? = some a → a.entry ≤ c) : Entered x c s (is.foldl (enterFlit x) u) := by
  refine List.foldlRecOn is (enterFlit x) h fun v hv i hi => hv.trans (entered_enterFlit hv.faults fun a ha => ?_)
  obtain ⟨b, hb, hentry⟩ := entry_of_bare hv.flits ha
  exact hentry ▸ his i hi b hb

theorem entered_enterUpTo {s : State} (h : FaultsJob s) (x : Site) (c : Nat) : Entered x c s (enterUpTo s x c) := by
  rw [enterUpTo_eq]
  exact entered_foldl (.refl h) fun i hi a ha => entry_le_of_entersBy hi ha

end Sys2Proof.Machine
end

section
/-! PROOFS. The exchange port's writes and reads in their cycles (R254, R255, R258). -/

namespace Sys2Proof.Machine

/-! ### A granule written -/

section Put
variable (c : Nat) (t : Tile) (a : Nat) (d : List Byte)

theorem portPut_mem : (portPut c t (a, d)).mem = (t.writeMem c a d).mem := by
  rw [portPut]
  dsimp only
  rw [noteWrites_frame]

theorem portPut_flits : (portPut c t (a, d)).arrivals.map Arrival.bare = t.arrivals.map Arrival.bare := by
  rw [← (settled_writeMem t c a d).flits, portPut]
  dsimp only
  rw [noteWrites_frame]

/-- ARRIVED is set for the granule (R254). -/
theorem portPut_arrived : SMap.get false (portPut c t (a, d)).granArrived (granOf a) = true := by
  rw [portPut]
  dsimp only
  rw [SMap.get_set_self]

variable (v : State) (x : Site)

theorem putTile_portPut_mem : ((v.putTile x (portPut c t (a, d))).tile x).mem = (t.writeMem c a d).mem := by
  rw [putTile_tile]
  dsimp only
  rw [portPut_mem]

/-- A granule that the port has written is in tile memory (R254). -/
theorem putTile_portPut_inside (ha : a + d.length ≤ tileTop) {i : Nat} (hi : i < d.length) :
    ((v.putTile x (portPut c t (a, d))).tile x).byteAt (a + i) = d[i] :=
  (tileMemSame_of_mem (putTile_portPut_mem c t a d v x) _).trans (writeMem_byteAt_inside t c ha hi)

theorem putTile_portPut_outside (ha : a + d.length ≤ tileTop) {k : Nat} (hk : k < 2 ^ 21) (hout : k < a ∨ a + d.length ≤ k) :
    ((v.putTile x (portPut c t (a, d))).tile x).byteAt k = (t.toWrite c).byteAt k :=
  (tileMemSame_of_mem (putTile_portPut_mem c t a d v x) _).trans (writeMem_byteAt_outside t c ha hk hout)

theorem putTile_portPut_arrived : SMap.get false ((v.putTile x (portPut c t (a, d))).tile x).granArrived (granOf a) = true := by
  rw [putTile_tile]
  dsimp only
  rw [portPut_arrived]

end Put

/-! ### What a flit with one granule brings -/

theorem kept_one {a : Arrival} {ok : Bool} {addr : Nat} {d : List Byte} (hd : a.flit.data = [d]) (ht : a.targets = some [(ok, addr)]) :
    a.kept = if ok then [(addr, d)] else [] := by
  rw [Arrival.kept, hd, ht]
  cases ok <;> rfl

theorem grans_one {a : Arrival} {addr : Nat} {d : List Byte} (hd : a.flit.data = [d]) (ht : a.targets = some [(true, addr)]) :
    a.grans = [granOf addr] := by
  rw [Arrival.grans, kept_one hd ht]
  rfl

/-- Where no granule is to be written, no port is waited for. -/
theorem writeFree_nil (t : Tile) (c : Nat) : t.writeFree [] c = c := firstCycle_now rfl

/-! ### The state that the port leaves -/

section Port
variable {s : State} {x : Site} {c : Nat}

theorem FaultsJob.ofRuns (h : meshRuns s = true) : FaultsJob s := by
  simp only [meshRuns, Bool.or_eq_true, beq_iff_eq] at h
  rcases h with h | h
  · exact .inl h
  · exact .inr (.inl h)

/-- Where no flit that enters up to cycle c faults the job, only tile x and the clock have changed, and the job runs on. -/
theorem enterUpTo_calm (h : meshRuns s = true) (hc : (enterUpTo s x c).dev ≠ .faulted) :
    OnlyTile x s (enterUpTo s x c) ∧ recordsIn (enterUpTo s x c) c = true := by
  have honly := (entered_enterUpTo (.ofRuns h) x c).calm hc
  refine ⟨honly, ?_⟩
  have hruns : meshRuns (enterUpTo s x c) = true := by
    rw [honly.1]
    exact h
  rw [recordsIn, hruns, Bool.true_or]

theorem enterUpTo_toCycle (h : FaultsJob s) : (toCycle (enterUpTo s x c) c).cycle = max s.cycle c := by
  have hv := entered_enterUpTo h x c
  have hle := hv.le_cycle
  have hlt := hv.cycle_le
  have hcycle : (toCycle (enterUpTo s x c) c).cycle = max (enterUpTo s x c).cycle c := toCycle_cycle _ c
  omega

/-- The flits in the buffer once those up to cycle c have entered are those that were there. -/
theorem enterUpTo_upTo_flits (h : FaultsJob s) :
    (((enterUpTo s x c).tile x).upTo c).arrivals.map Arrival.bare = (s.tile x).arrivals.map Arrival.bare :=
  (settled_upTo _ c).flits.trans (entered_enterUpTo h x c).flits

/-- A tile with one flit fewer than have entered, put back in cycle c. -/
theorem putTile_flits {T U : Tile} {a0 : Arrival} {rest0 : List Arrival} (h0 : (s.tile x).arrivals = a0 :: rest0)
    (hT : T.arrivals.map Arrival.bare = (s.tile x).arrivals.map Arrival.bare)
    (hU : U.arrivals.map Arrival.bare = T.arrivals.tail.map Arrival.bare) (v : State) :
    ((v.putTile x U).tile x).arrivals.length = rest0.length := by
  have hlenT := congrArg List.length hT
  have hlenU := congrArg List.length hU
  rw [List.length_map, List.length_map, h0, List.length_cons] at hlenT
  rw [List.length_map, List.length_map, List.length_tail, hlenT] at hlenU
  rw [putTile_tile]
  exact hlenU

end Port

end Sys2Proof.Machine
end

section
/-! PROOFS. EXCHANGE_ARRIVAL (R234, R254, R255): a granule inside its window is written, one outside it faults the job. -/

namespace Sys2Proof.Machine

/-- The tile in cycle c, once the flits that enter up to it have been checked, without the flit that entered first. -/
def portTile (s : State) (x : Site) (c : Nat) : Tile :=
  let t := ((enterUpTo s x c).tile x).upTo c
  { t with arrivals := t.arrivals.tail }

theorem portTile_flits (s : State) (x : Site) (c : Nat) : (portTile s x c).arrivals = (((enterUpTo s x c).tile x).upTo c).arrivals.tail := by
  rw [portTile]

/-- The state once granules of the flit that entered first are written in cycle c. -/
def portState (s : State) (x : Site) (c : Nat) (gs : List (Nat × List Byte)) : State :=
  (toCycle (enterUpTo s x c) c).putTile x (gs.foldl (portPut c) (portTile s x c))

section Command
variable {s : State} {x : Site} {a0 a : Arrival} {rest0 rest : List Arrival} {c : Nat}

theorem exec_exchangeArrival (hm : meshRuns s = true) (hp : (s.tile x).pwr = .active) (h0 : (s.tile x).arrivals = a0 :: rest0)
    (hf : a0.flit.addf = 0)
    (ha : (((s.tile x).upTo (max s.cycle a0.entry)).checkArrivals (max s.cycle a0.entry)).arrivals = a :: rest)
    (hc : (((s.tile x).upTo (max s.cycle a0.entry)).checkArrivals (max s.cycle a0.entry)).foreseen.writeFree a.grans
      (max s.cycle a0.entry) = c)
    (hr : recordsIn (enterUpTo s x c) c = true) : exec (.exchangeArrival x) s = .next (portState s x c a.kept) := by
  have hmax : Nat.max s.cycle a0.entry = max s.cycle a0.entry := rfl
  change execExchangeArrival x s = _
  rw [execExchangeArrival]
  dsimp only
  rw [h0]
  dsimp only
  rw [hmax, ha, List.headD_cons, if_pos hf, hc, hp, hf, hm, hr]
  rfl

/-- A granule inside its window is written in its cycle (R254, R255). -/
theorem portState_put {addr : Nat} {d : List Byte} (hm : meshRuns s = true) (hc : (enterUpTo s x c).dev ≠ .faulted)
    (h0 : (s.tile x).arrivals = a0 :: rest0) (hd : d.length = 32) (ha : addr + 32 ≤ tileTop) :
    TileOrFault x ((portPut c (portTile s x c) (addr, d)).upset = false) s (portState s x c [(addr, d)]) ∧
      (portState s x c [(addr, d)]).cycle = max s.cycle c ∧ ((portState s x c [(addr, d)]).tile x).arrivals.length = rest0.length ∧
      (∀ i (h : i < d.length), ((portState s x c [(addr, d)]).tile x).byteAt (addr + i) = d[i]) ∧
      (∀ b, b < 2 ^ 21 → (b < addr ∨ addr + 32 ≤ b) →
        ((portState s x c [(addr, d)]).tile x).byteAt b = ((portTile s x c).toWrite c).byteAt b) ∧
      SMap.get false ((portState s x c [(addr, d)]).tile x).granArrived (granOf addr) = true := by
  have honly : OnlyTile x s (toCycle (enterUpTo s x c) c) := (enterUpTo_calm hm hc).1.trans (.toCycle x _ c)
  have hstate : portState s x c [(addr, d)] =
    (toCycle (enterUpTo s x c) c).putTile x (portPut c (portTile s x c) (addr, d)) := rfl
  rw [hstate]
  refine ⟨putTile_tileOrFault honly id, ?_, ?_, fun i hi => ?_, fun b hb hout => ?_, ?_⟩
  · rw [putTile_cycle, enterUpTo_toCycle (.ofRuns hm)]
  · exact putTile_flits h0 (enterUpTo_upTo_flits (.ofRuns hm)) ((portPut_flits c _ addr d).trans (by rw [portTile_flits])) _
  · exact putTile_portPut_inside c _ addr d _ x (hd ▸ ha) hi
  · exact putTile_portPut_outside c _ addr d _ x (hd ▸ ha) hb (hd ▸ hout)
  · exact putTile_portPut_arrived c _ addr d _ x

end Command

end Sys2Proof.Machine
end

section
/-! PROOFS. A granule outside its window is dropped and counted, and the job faults (R234, R243). -/

namespace Sys2Proof.Machine

/-! ### The job's fault -/

/-- A fault of the same reason and site as the one recorded adds nothing. -/
theorem raiseFault_again {s : State} {f : FaultRec} (h : s.dev = .faulted) (hf : s.rgs.fault = some f) (detail : Nat) :
    raiseFault s f.reason detail f.site = s := by
  simp [raiseFault, h, hf]

/-- A job that has faulted stays so, with the fault recorded or one that goes before it. -/
theorem raiseFault_faulted {s : State} {f : FaultRec} (h : s.dev = .faulted) (hf : s.rgs.fault = some f) (reason detail site : Nat) :
    (raiseFault s reason detail site).dev = .faulted ∧
      ∃ g, (raiseFault s reason detail site).rgs.fault = some g ∧ g.reason ≤ f.reason := by
  simp only [raiseFault, h, hf]
  split
  · exact ⟨rfl, _, rfl, by dsimp only; omega⟩
  · exact ⟨h, f, hf, le_rfl⟩

theorem mayFault_faulted {s : State} {f : FaultRec} (h : s.dev = .faulted) (hf : s.rgs.fault = some f) :
    (mayFault s).dev = .faulted ∧ (∃ g, (mayFault s).rgs.fault = some g ∧ g.reason ≤ f.reason) ∧ (mayFault s).rgs.job = s.rgs.job := by
  unfold mayFault
  dsimp only
  split
  · exact ⟨h, ⟨f, hf, le_rfl⟩, rfl⟩
  · obtain ⟨hdev, hfault⟩ := raiseFault_faulted (s := drew s 1) h hf (1 + (freeWord s).toNat / 2 % 26) ((freeWord s).toNat / 64 % 2 ^ 16) noSite
    exact ⟨hdev, hfault, raiseFault_job _ _ _ _⟩

/-- A tile put back outside debug mode under a job that has faulted: a clash of banks may bring a fault that goes before the recorded one. -/
theorem putTile_faulted {s : State} {f : FaultRec} (h : s.dev = .faulted) (hf : s.rgs.fault = some f) (hd : debugJob s = false)
    (x : Site) (t : Tile) : (s.putTile x t).dev = .faulted ∧
      ∃ g, (s.putTile x t).rgs.fault = some g ∧ g.reason ≤ f.reason ∧ (t.upset = false → g = f) := by
  have hput : (putUpset s x t).dev = .faulted ∧ (∃ g, (putUpset s x t).rgs.fault = some g ∧ g.reason ≤ f.reason ∧
      (t.upset = false → g = f)) ∧ debugJob (putUpset s x t) = false := by
    unfold putUpset
    split
    · next hu =>
      obtain ⟨hdev, ⟨g, hg, hle⟩, hjob⟩ :=
        mayFault_faulted (s := (s.setTile x t).onTile x fun t => { t with upset := false }) h hf
      refine ⟨hdev, ⟨g, hg, hle, fun hc => absurd hc (by rw [hu]; decide)⟩, ?_⟩
      rw [debugJob, reportUpset, hjob]
      exact hd
    · exact ⟨h, ⟨f, hf, le_rfl, fun _ => rfl⟩, hd⟩
  obtain ⟨hdev, hfault, hdebug⟩ := hput
  rw [putTile_eq]
  split
  · exact ⟨hdev, hfault⟩
  · rw [reportHazards_noDebug hdebug]
    exact ⟨hdev, hfault⟩

/-! ### The violations of the flits that enter up to a cycle -/

/-- In cycle e the job has faulted for a violation at tile x, which is recorded there. -/
structure Violated (x : Site) (e : Nat) (s : State) : Prop where
  dev : s.dev = .faulted
  cycle : s.cycle = e
  fault : ∃ f, s.rgs.fault = some f ∧ f.reason = 3 ∧ f.site = x ∧ f.at_ = e
  recorded : bit (s.tile x).wfault 31 = true

theorem Violated.job {x : Site} {e : Nat} {s : State} (h : Violated x e s) : FaultsJob s := .inr (.inr h.dev)

/-- What is due in the cycle of the fault still happens (R244). -/
theorem Violated.records {x : Site} {e : Nat} {s : State} (h : Violated x e s) : recordsIn s e = true := by
  obtain ⟨f, hfault, -, -, hat⟩ := h.fault
  simp [recordsIn, h.dev, hfault, hat]

/-- The first violation faults the job. -/
theorem windowViolation_violated {s : State} (h : s.dev = .run ∨ s.dev = .drain) (x : Site) (addr win src : Nat) :
    Violated x s.cycle (windowViolation s x addr win src) := by
  have hrec : bit ((windowViolation s x addr win src).tile x).wfault 31 = true := by
    rw [windowViolation_tile]
    exact noteViolation_recorded _ _ _ _
  rw [windowViolation_eq] at hrec ⊢
  refine ⟨(raiseFault_ofJob (s := s.setTile x _) (.inr h) 3 0 x).1, by rw [raiseFault_cycle, setTile_cycle], ?_, hrec⟩
  rcases h with h | h <;> simp [raiseFault, h]

/-- A further one adds to the count alone. -/
theorem Violated.windowViolation {x : Site} {e : Nat} {s : State} (h : Violated x e s) (addr win src : Nat) :
    Violated x e (windowViolation s x addr win src) := by
  obtain ⟨f, hf, hreason, hsite, hat⟩ := h.fault
  have hsame : Machine.windowViolation s x addr win src = s.setTile x ((s.tile x).noteViolation addr win src) := by
    have hagain := raiseFault_again (s := s.setTile x ((s.tile x).noteViolation addr win src)) h.dev hf 0
    rw [hreason, hsite] at hagain
    rw [windowViolation_eq, hagain]
  rw [hsame]
  refine ⟨h.dev, h.cycle, ⟨f, hf, hreason, hsite, hat⟩, ?_⟩
  rw [setTile_tile]
  exact noteViolation_recorded _ _ _ _

theorem Violated.dropViolations {x : Site} {e : Nat} {s : State} (h : Violated x e s) (a : Arrival) : Violated x e (dropViolations s x a) := by
  unfold Machine.dropViolations
  refine foldl_keeps (Violated x e) _ (fun u p hu => ?_) _ _ h
  split
  · exact hu
  · exact hu.windowViolation _ _ _

theorem entered_records (t : Tile) (i e : Nat) : (t.entered i e).wfault = t.wfault ∧ (t.entered i e).wdrop = t.wdrop := by
  have hcheck := (effectsOnly_settleEffects t e).trans (effectsOnly_checkArrivals _ e)
  rw [Tile.entered]
  dsimp only
  rw [hcheck.frame]
  exact ⟨rfl, rfl⟩

theorem Violated.enterFlit {x : Site} {e : Nat} {s : State} (h : Violated x e s) {i : Nat}
    (hi : ∀ a, (s.tile x).arrivals[i]? = some a → a.entry ≤ e) : Violated x e (enterFlit x s i) := by
  rcases enterFlit_cases x s i with he | ⟨a, b, ha, he⟩
  · rw [he]
    exact h
  rw [he]
  have hcycle : (toCycle s a.entry).cycle = max s.cycle a.entry := toCycle_cycle s a.entry
  have hle := hi a ha
  have hnow := h.cycle
  refine Violated.dropViolations ⟨?_, ?_, ?_, ?_⟩ b
  · rw [setTile_dev, toCycle_dev, h.dev]
  · rw [setTile_cycle, hcycle]
    omega
  · rw [setTile_rgs, toCycle_rgs]
    exact h.fault
  · rw [setTile_tile, (entered_records _ i a.entry).1, h.recorded]

/-! ### The first flit -/

section First
variable {s : State} {x : Site} {e r : Nat} {a0 g : Arrival} {rest0 : List Arrival}

/-- The flit that entered first is checked first. -/
theorem entersBy_cons {t : Tile} (h0 : t.arrivals = a0 :: rest0) (he : a0.entry ≤ e) :
    t.entersBy e = 0 :: ((rest0.zipIdx 1).filter fun p => decide (p.1.entry ≤ e)).map (·.2) := by
  rw [Tile.entersBy, h0, List.zipIdx_cons, List.filter_cons_of_pos (by simpa using he)]
  rfl

theorem enterFlit_first (hdev : s.dev = .run ∨ s.dev = .drain) (h0 : (s.tile x).arrivals = a0 :: rest0) (hn : a0.noted = false)
    (hg : (((s.tile x).settleEffects a0.entry).checkArrivals a0.entry).arrivals.head? = some g) (ht : g.targets = some [(false, r)]) :
    enterFlit x s 0 = windowViolation ((toCycle s a0.entry).setTile x ((s.tile x).entered 0 a0.entry)) x r g.flit.win 0 := by
  have hruns : recordsIn s (max s.cycle a0.entry) = true := by
    rcases hdev with h | h <;> simp [recordsIn, meshRuns, h]
  have hfirst : (s.tile x).arrivals[0]? = some a0 := by rw [h0, List.getElem?_cons_zero]
  rw [enterFlit_eq hfirst hn hruns (List.head?_eq_getElem? ▸ hg), dropViolations, ht]
  rfl

/-- A violation of the flit that entered first, and those of the flits that have entered with it, fault the job in cycle e; where it is the
only flit, one is counted. -/
theorem enterUpTo_violated (hdev : s.dev = .run ∨ s.dev = .drain) (h0 : (s.tile x).arrivals = a0 :: rest0) (hn : a0.noted = false)
    (hg : (((s.tile x).settleEffects a0.entry).checkArrivals a0.entry).arrivals.head? = some g) (ht : g.targets = some [(false, r)]) :
    Violated x (max s.cycle a0.entry) (enterUpTo s x (max s.cycle a0.entry)) ∧
      (rest0 = [] → ((enterUpTo s x (max s.cycle a0.entry)).tile x).wdrop =
        BitVec.ofNat 32 (min ((s.tile x).wdrop.toNat + 1) 0xFFFFFFFF)) := by
  have hfirst := enterFlit_first hdev h0 hn hg ht
  have hcycle : ((toCycle s a0.entry).setTile x ((s.tile x).entered 0 a0.entry)).cycle = max s.cycle a0.entry := toCycle_cycle s a0.entry
  have hviolated : Violated x (max s.cycle a0.entry) (enterFlit x s 0) := by
    rw [hfirst, ← hcycle]
    exact windowViolation_violated (by rw [setTile_dev, toCycle_dev]; exact hdev) x r _ 0
  have hdue := entersBy_cons h0 (le_max_right s.cycle a0.entry)
  have hentry {i : Nat} (hi : i ∈ (s.tile x).entersBy (max s.cycle a0.entry)) : ∀ a, (s.tile x).arrivals[i]? = some a →
      a.entry ≤ max s.cycle a0.entry := fun a ha => entry_le_of_entersBy hi ha
  rw [hdue] at hentry
  rw [enterUpTo_eq, hdue, List.foldl_cons]
  constructor
  · have hone : Entered x (max s.cycle a0.entry) s (enterFlit x s 0) :=
      entered_enterFlit (hdev.imp_right .inl) (hentry List.mem_cons_self)
    refine (List.foldlRecOn (motive := fun u => Violated x (max s.cycle a0.entry) u ∧ Entered x (max s.cycle a0.entry) s u) _ _
      ⟨hviolated, hone⟩ fun u hu i hi => ?_).1
    obtain ⟨hv, hent⟩ := hu
    have hbound : ∀ a, (u.tile x).arrivals[i]? = some a → a.entry ≤ max s.cycle a0.entry := fun a ha => by
      obtain ⟨b, hb, hsame⟩ := entry_of_bare hent.flits ha
      exact hsame ▸ hentry (List.mem_cons_of_mem _ hi) b hb
    exact ⟨hv.enterFlit hbound, hent.trans (entered_enterFlit hv.job hbound)⟩
  · rintro rfl
    rw [hfirst, List.zipIdx_nil, List.filter_nil, List.map_nil, List.foldl_nil, windowViolation_tile, setTile_tile,
      Tile.noteViolation, (entered_records _ 0 a0.entry).2]

/-- A tile without its first flit, put back in cycle e under a job that has faulted for a violation at it (R234). -/
theorem Violated.putTile {v : State} {T U : Tile} (hv : Violated x e v) (hd : debugJob v = false) (hT : Settled (v.tile x) T)
    (hU : U = { T with arrivals := T.arrivals.tail }) :
    ((toCycle v e).putTile x U).dev = .faulted ∧ ((toCycle v e).putTile x U).cycle = e ∧
      (∃ f, ((toCycle v e).putTile x U).rgs.fault = some f ∧ f.reason ≤ 3 ∧ (T.upset = false → f.reason = 3 ∧ f.site = x)) ∧
      bit (((toCycle v e).putTile x U).tile x).wfault 31 = true ∧ (((toCycle v e).putTile x U).tile x).wdrop = (v.tile x).wdrop ∧
      TileMemSame T (((toCycle v e).putTile x U).tile x) := by
  obtain ⟨f, hf, hreason, hsite, -⟩ := hv.fault
  obtain ⟨hdev, g, hg, hle, hsame⟩ := putTile_faulted (s := toCycle v e) (f := f) (by rw [toCycle_dev, hv.dev])
    (by rw [toCycle_rgs, hf]) (by rw [debugJob, toCycle_rgs]; exact hd) x U
  have hcycle : (toCycle v e).cycle = max v.cycle e := toCycle_cycle v e
  refine ⟨hdev, ?_, ⟨g, hg, hreason ▸ hle, fun hu => ?_⟩, ?_, ?_, ?_⟩
  · rw [putTile_cycle, hcycle, hv.cycle, max_self]
  · rw [hsame (by rw [hU]; exact hu)]
    exact ⟨hreason, hsite⟩
  · rw [putTile_tile, hU, hT.due]
    exact hv.recorded
  · rw [putTile_tile, hU, hT.due]
  · refine tileMemSame_of_mem ?_
    rw [putTile_tile, hU]

/-- A granule outside its window changes no byte of memory; its flit leaves the buffer (R234). -/
theorem portState_drop {T : Tile} (hjob : FaultsJob s) (hd : debugJob s = false) (h0 : (s.tile x).arrivals = a0 :: rest0)
    (hv : Violated x e (enterUpTo s x e)) (hT : T = ((enterUpTo s x e).tile x).upTo e) :
    ((portState s x e []).dev = .faulted ∧ (portState s x e []).cycle = e ∧
      (∃ f, (portState s x e []).rgs.fault = some f ∧ f.reason ≤ 3 ∧ (T.upset = false → f.reason = 3 ∧ f.site = x)) ∧
      ((portState s x e []).tile x).arrivals.length = rest0.length ∧ bit ((portState s x e []).tile x).wfault 31 = true) ∧
    ((portState s x e []).tile x).wdrop = ((enterUpTo s x e).tile x).wdrop ∧
    TileMemSame T ((portState s x e []).tile x) ∧ (∀ y, y ≠ x → (portState s x e []).tile y = s.tile y) ∧
      (portState s x e []).gddr = s.gddr := by
  have hent := entered_enterUpTo hjob x e
  have hdebug : debugJob (enterUpTo s x e) = false := by rw [debugJob, hent.job]; exact hd
  have hstate : portState s x e [] = (toCycle (enterUpTo s x e) e).putTile x (portTile s x e) := by rw [portState, List.foldl_nil]
  obtain ⟨hfaulted, hcycle, hfault, hwfault, hwdrop, hmem⟩ :=
    hv.putTile hdebug (hT ▸ settled_upTo _ e) (by rw [hT, portTile] : portTile s x e = { T with arrivals := T.arrivals.tail })
  rw [hstate]
  refine ⟨⟨hfaulted, hcycle, hfault, ?_, hwfault⟩, hwdrop, hmem, fun y hy => ?_, ?_⟩
  · exact putTile_flits h0 (enterUpTo_upTo_flits hjob) (by rw [portTile_flits]) _
  · rw [putTile_tile_ne _ _ hy, toCycle_tile, hent.others y hy]
  · rw [reportsOnly_putTile, toCycle_gddr, hent.frame]

end First

end Sys2Proof.Machine
end

section
/-! PROOFS. ADDF_READ and ADDF_WRITE (R254, R258). -/

namespace Sys2Proof.Machine

/-! ### The flit that reads first -/

/-- The earlier of two reads, the first of them where they meet. -/
def earlierRead (s : State) (t : Tile) (b : Option (Nat × Arrival × Nat)) (p : Arrival × Nat) : Option (Nat × Arrival × Nat) :=
  match b with
  | some o => if readCycle s t p.1 < o.2.2 then some (p.2, p.1, readCycle s t p.1) else some o
  | none => some (p.2, p.1, readCycle s t p.1)

theorem earlierRead_spec (s : State) (t : Tile) : ∀ (ps : List (Arrival × Nat)) (b : Option (Nat × Arrival × Nat)),
    (∀ o, b = some o → o.2.2 = readCycle s t o.2.1) → ∀ i a c, ps.foldl (earlierRead s t) b = some (i, a, c) →
      c = readCycle s t a ∧ (∀ o, b = some o → c ≤ o.2.2) ∧ ∀ p ∈ ps, c ≤ readCycle s t p.1
  | [], b, hb, i, a, c, h => by
    rw [List.foldl_nil] at h
    exact ⟨hb _ h, fun o ho => by rw [h, Option.some_inj] at ho; rw [← ho], fun p hp => absurd hp List.not_mem_nil⟩
  | p :: ps, b, hb, i, a, c, h => by
    rw [List.foldl_cons] at h
    have hstep : (∀ o, earlierRead s t b p = some o → o.2.2 = readCycle s t o.2.1) ∧
        ∃ o, earlierRead s t b p = some o ∧ o.2.2 ≤ readCycle s t p.1 ∧ ∀ o', b = some o' → o.2.2 ≤ o'.2.2 := by
      cases b with
      | none => exact ⟨fun o ho => by cases ho; rfl, _, rfl, le_rfl, fun _ ho' => nomatch ho'⟩
      | some o0 =>
        have h0 := hb o0 rfl
        unfold earlierRead
        dsimp only
        split
        · next hlt => exact ⟨fun o ho => by cases ho; rfl, _, rfl, le_rfl, fun o' ho' => by cases ho'; exact hlt.le⟩
        · next hlt => exact ⟨fun o ho => by cases ho; exact h0, _, rfl, not_lt.mp hlt, fun o' ho' => by cases ho'; exact le_rfl⟩
    obtain ⟨hcycle, o, ho, hp, hbest⟩ := hstep
    obtain ⟨hc, hle, hrest⟩ := earlierRead_spec s t ps _ hcycle i a c h
    refine ⟨hc, fun o' ho' => (hle o ho).trans (hbest o' ho'), fun p' hp' => ?_⟩
    rcases List.mem_cons.mp hp' with rfl | hin
    · exact (hle o ho).trans hp
    · exact hrest p' hin

/-- The flit chosen reads in its cycle, and no flit that no earlier sum holds up can read before it (R258). -/
theorem nextRead_first {s : State} {t : Tile} {i c : Nat} {b : Arrival} (h : nextRead s t = some (i, b, c)) :
    c = readCycle s t b ∧ ∀ p ∈ t.arrivals.zipIdx, p.1.flit.addf ≠ 0 → p.1.sums = none →
      readBlocked (t.arrivals.take p.2) p.1 = false → c ≤ readCycle s t p.1 := by
  obtain ⟨hc, -, hmin⟩ := earlierRead_spec s t _ none (fun _ ho => nomatch ho) i b c h
  refine ⟨hc, fun p hp hadd hsums hfree => hmin p (List.mem_filter.mpr ⟨hp, ?_⟩)⟩
  rw [hsums, hfree]
  simpa using hadd

/-! ### ADDF_READ -/

/-- A tile whose flit i has read its granule in cycle c, with the sums formed. -/
def Tile.sumRead (t : Tile) (i c addr : Nat) (gs : List Nat) (sums : List (List Byte)) (ev : List Nat) : Tile :=
  Tile.noteReads { t.usePort { cycle := c, write := false, rank := 0, addr := addr, len := 32 } with
    arrivals := t.arrivals.zipIdx.map fun (b, j) => if j = i then { b with sums := some (c, sums, ev) } else b } gs

section Read
variable (t : Tile) (i c addr : Nat) (gs : List Nat) (sums : List (List Byte)) (ev : List Nat)

theorem noteReads_frame : t.noteReads gs = { t with found := (t.noteReads gs).found } := by
  unfold Tile.noteReads
  split <;> rfl

theorem sumRead_upset : (t.sumRead i c addr gs sums ev).upset = t.upset := by
  rw [Tile.sumRead, noteReads_frame]
  rfl

theorem sumRead_mem : (t.sumRead i c addr gs sums ev).mem = t.mem := by
  rw [Tile.sumRead, noteReads_frame]
  rfl

theorem sumRead_arrival {a : Arrival} (h : t.arrivals[i]? = some a) :
    (t.sumRead i c addr gs sums ev).arrivals[i]? = some { a with sums := some (c, sums, ev) } := by
  rw [Tile.sumRead, noteReads_frame]
  dsimp only
  rw [List.getElem?_map, List.getElem?_zipIdx, h]
  simp

end Read

section Commands
variable {s : State} {x : Site} {c : Nat}

theorem exec_addfRead {i addr : Nat} {a b : Arrival} {d : List Byte} (hm : meshRuns s = true) (hp : (s.tile x).pwr = .active)
    (hn : nextRead s (((s.tile x).upTo s.cycle).checkArrivals ((s.tile x).arrivals.foldl (fun m g => max m g.entry) s.cycle)) =
      some (i, b, c))
    (hr : recordsIn (enterUpTo s x c) c = true) (ha : (((enterUpTo s x c).tile x).upTo c).arrivals[i]? = some a)
    (hd : a.flit.data = [d]) (ht : a.targets = some [(true, addr)]) :
    exec (.addfRead x) s = .next ((toCycle (enterUpTo s x c) c).putTile x ((((enterUpTo s x c).tile x).upTo c).sumRead i c addr a.grans
      [(addfGran a.flit.addf (((((enterUpTo s x c).tile x).upTo c).asRead c).readMem addr 32) d).1]
      (addfEvents a.flit.addf (addfGran a.flit.addf (((((enterUpTo s x c).tile x).upTo c).asRead c).readMem addr 32) d).2))) := by
  have hlast : (s.tile x).arrivals.foldl (fun m a => Nat.max m a.entry) s.cycle =
      (s.tile x).arrivals.foldl (fun m g => max m g.entry) s.cycle := rfl
  change execAddfRead x s = _
  rw [execAddfRead]
  dsimp only
  rw [hlast, hn, hp]
  dsimp only
  rw [hm, hr, List.getD_eq_getElem?_getD, ha, Option.getD_some, kept_one hd ht]
  generalize ((enterUpTo s x c).tile x).upTo c = T
  simp only [if_true, List.map_cons, List.map_nil, List.foldl_cons, List.foldl_nil, List.flatMap_cons, List.flatMap_nil, List.append_nil]
  rfl

/-- The sums' flit stays in the buffer; memory is as it was (R258). -/
theorem addfRead_leaves {i addr : Nat} {a : Arrival} {gs : List Nat} {sums : List (List Byte)} {ev : List Nat} {T : Tile} (v : State)
    (ha : T.arrivals[i]? = some a) : TileMemSame T ((v.putTile x (T.sumRead i c addr gs sums ev)).tile x) ∧
      ((v.putTile x (T.sumRead i c addr gs sums ev)).tile x).arrivals[i]? = some { a with sums := some (c, sums, ev) } := by
  refine ⟨tileMemSame_of_mem ?_, ?_⟩
  · rw [putTile_tile]
    dsimp only
    rw [sumRead_mem]
  · rw [putTile_tile]
    dsimp only
    rw [sumRead_arrival T i c addr gs sums ev ha]

/-! ### ADDF_WRITE -/

/-- The state once the sum of the flit that entered first is written in cycle c, and what was formed is counted. -/
def sumState (s : State) (x : Site) (c addr : Nat) (sum : List Byte) (ev : List Nat) : State :=
  (toCycle (enterUpTo s x c) c).putTile x ((portPut c (portTile s x c) (addr, sum)).countEvents c ev)

theorem exec_addfWrite {a0 : Arrival} {rest0 : List Arrival} {rd addr : Nat} {d sum : List Byte} {ev : List Nat} (hm : meshRuns s = true)
    (hp : (s.tile x).pwr = .active) (h0 : (s.tile x).arrivals = a0 :: rest0) (hs : a0.sums = some (rd, [sum], ev))
    (hd : a0.flit.data = [d]) (ht : a0.targets = some [(true, addr)])
    (hc : ((s.tile x).upTo (max s.cycle (rd + 2))).foreseen.writeFree [granOf addr] (max s.cycle (rd + 2)) = c)
    (hr : recordsIn (enterUpTo s x c) c = true) :
    exec (.addfWrite x) s = .next (sumState s x c addr sum ev) := by
  have hmax : Nat.max s.cycle (rd + 2) = max s.cycle (rd + 2) := rfl
  change execAddfWrite x s = _
  rw [execAddfWrite]
  dsimp only
  rw [h0]
  dsimp only
  rw [hs]
  dsimp only
  rw [hm, hp, hmax, grans_one hd ht, hc, hr, kept_one hd ht, sumState, portTile]
  generalize ((enterUpTo s x c).tile x).upTo c = T
  rfl

/-- Census events change nothing that is to be reported. -/
theorem countEvents_upset (t : Tile) (n : Nat) (ev : List Nat) : (t.countEvents n ev).upset = t.upset := rfl

theorem countEvents_arrivals (t : Tile) (n : Nat) (ev : List Nat) : (t.countEvents n ev).arrivals = t.arrivals := rfl

theorem putTile_countEvents_mem (v : State) (t : Tile) (n : Nat) (ev : List Nat) :
    ((v.putTile x (t.countEvents n ev)).tile x).mem = ((v.putTile x t).tile x).mem := by
  rw [putTile_tile, putTile_tile]
  rfl

/-- The sum is written as a granule of the port (R254, R258). -/
theorem sumState_put {a0 : Arrival} {rest0 : List Arrival} {addr : Nat} {sum : List Byte} (ev : List Nat) (hm : meshRuns s = true)
    (hc : (enterUpTo s x c).dev ≠ .faulted) (h0 : (s.tile x).arrivals = a0 :: rest0) (ha : addr + sum.length ≤ tileTop) :
    (sumState s x c addr sum ev).cycle = max s.cycle c ∧ ((sumState s x c addr sum ev).tile x).arrivals.length = rest0.length ∧
      TileOrFault x ((portPut c (portTile s x c) (addr, sum)).upset = false) s (sumState s x c addr sum ev) ∧
      ∀ i (h : i < sum.length), ((sumState s x c addr sum ev).tile x).byteAt (addr + i) = sum[i] := by
  have honly : OnlyTile x s (toCycle (enterUpTo s x c) c) := (enterUpTo_calm hm hc).1.trans (.toCycle x _ c)
  rw [sumState]
  refine ⟨?_, ?_, putTile_tileOrFault honly fun hu => ?_, fun i hi => ?_⟩
  · rw [putTile_cycle, enterUpTo_toCycle (.ofRuns hm)]
  · exact putTile_flits h0 (enterUpTo_upTo_flits (.ofRuns hm)) (by rw [countEvents_arrivals, portPut_flits, portTile_flits]) _
  · rw [countEvents_upset, hu]
  · refine (tileMemSame_of_mem (putTile_countEvents_mem _ _ c ev) _).trans ?_
    exact putTile_portPut_inside c (portTile s x c) addr sum _ x ha hi

end Commands

/-- Settles O22: the flits that have entered leave only tile x and the clock changed where none faults the job (`enterUpTo_calm`); then
`portState_put` says what the port writes, `portState_drop` what a dropped granule leaves, `nextRead_first` which ADDF flit reads. -/
theorem arrivalsWritten : Obligations.ArrivalsWritten := by
  unfold Obligations.ArrivalsWritten
  intro s x a0 rest0 hdev hp hdebug h0
  have hm : meshRuns s = true := by rcases hdev with h | h <;> simp [meshRuns, h]
  have hjob : FaultsJob s := .ofRuns hm
  refine ⟨?_, ?_, ?_⟩
  · intro hf a rest d e R hR hd
    refine ⟨?_, ?_⟩
    · intro addr hlen ht htop c v T U hv
      have hexec : exec (.exchangeArrival x) s = .next (portState s x c a.kept) :=
        exec_exchangeArrival hm hp h0 hf hR (by rw [grans_one hd ht]) (enterUpTo_calm hm hv).2
      rw [kept_one hd ht, if_pos rfl] at hexec
      obtain ⟨hframe, hcycle, hrest⟩ := portState_put hm hv h0 hlen htop
      have hc : max s.cycle c = c := max_eq_right ((le_max_left _ _).trans (le_firstCycle _ e))
      exact ⟨_, hexec, hframe, hcycle.trans hc, hrest⟩
    · intro g r hg hgt ht hn T
      obtain ⟨hviolated, hcount⟩ := enterUpTo_violated hdev h0 hn hg hgt
      have hexec : exec (.exchangeArrival x) s = .next (portState s x e a.kept) :=
        exec_exchangeArrival hm hp h0 hf hR (by rw [Arrival.grans, kept_one hd ht]; exact writeFree_nil _ e) hviolated.records
      rw [kept_one hd ht] at hexec
      obtain ⟨hframe, hwdrop, hrest⟩ := portState_drop (T := T) hjob hdebug h0 hviolated rfl
      obtain ⟨hfaulted, hcycle, hfault, hlen, hwfault⟩ := hframe
      exact ⟨_, hexec, hfaulted, hcycle, hfault, hlen, hwfault, fun hone => hwdrop.trans (hcount hone), hrest⟩
  · intro i a b c d addr R hn v T hv ha hd ht r
    obtain ⟨hfirst, hmin⟩ := nextRead_first hn
    obtain ⟨honly, hrec⟩ := enterUpTo_calm hm hv
    obtain ⟨hmem, harr⟩ := addfRead_leaves (x := x) (toCycle (enterUpTo s x c) c) ha
    refine ⟨hfirst, hmin, _, exec_addfRead hm hp hn hrec ha hd ht, putTile_tileOrFault (honly.trans (.toCycle x _ c)) fun hu => ?_, ?_,
      hmem, harr⟩
    · exact (sumRead_upset T _ _ _ _ _ _).trans hu
    · rw [putTile_cycle, enterUpTo_toCycle hjob]
  · intro rd sum ev d addr hd ht hs hlen htop e c v T hv
    have hle : e ≤ c := le_firstCycle _ e
    have hexec : exec (.addfWrite x) s = .next (sumState s x c addr sum ev) :=
      exec_addfWrite hm hp h0 hs hd ht rfl (enterUpTo_calm hm hv).2
    obtain ⟨hcycle, hlength, hframe, hbytes⟩ := sumState_put ev hm hv h0 (hlen ▸ htop)
    have hc : max s.cycle c = c := max_eq_right ((le_max_left _ _).trans hle)
    exact ⟨_, hexec, hcycle.trans hc, (le_max_right _ _).trans hle, hlength, hframe, hbytes⟩

end Sys2Proof.Machine
end

section
/-! PROOFS. ROUTER_GRANT: the flit that an output's arbitration picks leaves its router (R251, R256), for the next one's input or for the
tile's port (R252, R254), where a fenced tile discards it (R264, R266); with it O21. -/

namespace Sys2Proof.Machine

/-! ### Routers -/

@[simp] theorem setRouter_router (s : State) (n : Site) (r : Router) : (s.setRouter n r).router n = r := SMap.get_set_self _ _ _ _

theorem setRouter_router_ne (s : State) {n m : Site} (r : Router) (h : m ≠ n) : (s.setRouter n r).router m = s.router m :=
  SMap.get_set_ne _ _ _ h

theorem setRouter_tiles (s : State) (n : Site) (r : Router) : (s.setRouter n r).tiles = s.tiles := rfl

theorem router_congr {s t : State} (h : t.routers = s.routers) (n : Site) : t.router n = s.router n := by
  rw [State.router, h, State.router]

/-- Taking away a flit that a router holds leaves fewer of them. -/
theorem drop_shorter {r : Router} {d : Cand} (h : { input := d.1, flit := d.2 } ∈ r.held) :
    (r.drop d).held.length < r.held.length := by
  have hlen : (r.drop d).held.length = r.held.length - 1 := List.length_eraseP_of_mem h (by simp)
  have hpos := List.length_pos_of_mem h
  omega

/-- Taking heads away brings no flit in. -/
theorem foldl_drop_length_le (ds : List Cand) (r : Router) : (ds.foldl Router.drop r).held.length ≤ r.held.length :=
  foldl_keeps (fun q : Router => q.held.length ≤ r.held.length) Router.drop (fun _ _ hq => List.length_eraseP_le.trans hq) ds r le_rfl

/-! ### What a tile injects (R180, R247, R250) -/

/-- From s to t, only tiles, routers and what reports may touch have changed. -/
def InjectsOnly (s t : State) : Prop :=
  t = { s with tiles := t.tiles, routers := t.routers, free := t.free, regs := t.regs, host := t.host, dev := t.dev, rgs := t.rgs }

theorem InjectsOnly.trans {s t u : State} (h : InjectsOnly s t) (g : InjectsOnly t u) : InjectsOnly s u := by
  unfold InjectsOnly at *
  rw [g, h]

theorem ReportsOnly.injectsOnly {s t : State} (h : ReportsOnly s t) : InjectsOnly s t := by
  unfold ReportsOnly at h
  unfold InjectsOnly
  rw [h]

theorem injectsOnly_injectFlit (node : Site) (s : State) (f : Flit) : InjectsOnly s (injectFlit node s f) := by
  unfold injectFlit
  dsimp only
  split
  · exact (reportsOnly_mayFault s).injectsOnly.trans rfl
  · rfl

theorem injectsOnly_injectUpTo (s : State) (node : Site) (c : Nat) : InjectsOnly s (injectUpTo s node c) := by
  unfold injectUpTo
  dsimp only
  split
  · rfl
  · exact foldl_keeps (InjectsOnly s) _ (fun u f hu => hu.trans (injectsOnly_injectFlit node u f)) _ _
      (reportsOnly_putTile s node _).injectsOnly

/-- A tile with no exchange send in progress injects nothing. -/
theorem injectUpTo_idle {s : State} {node : Site} (h : (s.tile node).xsends = []) (c : Nat) : injectUpTo s node c = s := by
  simp [injectUpTo, h]

/-! ### What arbitration picks (R251) -/

theorem roundRobin_mem {n ptr : Nat} {rank : Cand → Nat} {cs : List Cand} {d : Cand} (h : roundRobin n ptr rank cs = some d) : d ∈ cs := by
  obtain ⟨_, _, hfind⟩ := List.exists_of_findSome?_eq_some h
  exact List.mem_of_find?_eq_some hfind

/-- A candidate is a flit that the router holds. -/
theorem wanting_held {s : State} {node plane : Nat} {out : Side} {d : Cand} (h : d ∈ wanting s node plane out) :
    { input := d.1, flit := d.2 } ∈ (s.router node).held := by
  simp only [wanting, List.mem_flatMap, List.mem_filterMap] at h
  obtain ⟨i, -, p, -, v, -, hhead⟩ := h
  split at hhead
  next f rest hbuffer =>
    have hf : f ∈ (s.router node).buffer i p v := by rw [hbuffer]; exact List.mem_cons_self
    obtain ⟨⟨input, flit⟩, hheld, rfl⟩ := List.mem_map.mp hf
    obtain ⟨hin, hsel⟩ := List.mem_filter.mp hheld
    simp only [Bool.and_eq_true, beq_iff_eq] at hsel
    obtain ⟨⟨rfl, -⟩, -⟩ := hsel
    split at hhead
    · cases hhead
      exact hin
    · cases hhead
  next => cases hhead

/-- Arbitration picks a flit that the router holds, and moves its own pointers alone. -/
theorem arbitrate_held {s : State} {node plane c : Nat} {out : Side} {d : Cand} {r : Router} (h : arbitrate s node plane c out = some (d, r)) :
    { input := d.1, flit := d.2 } ∈ r.held ∧ r.held = (s.router node).held := by
  have hready {p q : Cand → Bool} (hd : d ∈ ((wanting s node plane out).filter p).filter q) :
      { input := d.1, flit := d.2 } ∈ (s.router node).held :=
    wanting_held (List.mem_of_mem_filter (List.mem_of_mem_filter hd))
  unfold arbitrate at h
  dsimp only at h
  split at h
  next e hslot =>
    cases h
    split at hslot
    · exact ⟨hready (roundRobin_mem hslot), rfl⟩
    · cases hslot
  next =>
    split at h
    next e hpri =>
      cases h
      exact ⟨hready (roundRobin_mem hpri), rfl⟩
    next => cases h

/-! ### The flit that leaves, and its router (R251, R256, R257) -/

/-- The other candidates with the granted flit's merge tag: they leave with it. -/
def mergePartners (u : State) (node c : Nat) (out : Side) (d : Cand) : List Cand :=
  (wanting u node d.2.plane out).filter fun e => e.1 != d.1 && e.2.vc == d.2.vc && decide (e.2.ready ≤ c) && sameTag d.2 e.2

/-- The flit that leaves: the granted one, with its partners' granules added. -/
def grantedFlit (u : State) (node c : Nat) (out : Side) (d : Cand) : Flit :=
  (mergePartners u node c out d).foldl (fun f e => addFlits f e.2) d.2

/-- The router once the granted flit and its partners have left. -/
def grantedRouter (u : State) (node plane c : Nat) (out : Side) (d : Cand) (r : Router) : Router :=
  (mergePartners u node c out d).foldl Router.drop ({ r with last := SMap.put r.last (outKey plane out) c }.drop d)

/-- The state in which the flit has left its router, the merged ones counted. -/
def granted (u : State) (node plane c : Nat) (out : Side) (d : Cand) (r : Router) : State :=
  satAdd (u.setRouter node (grantedRouter u node plane c out d r)) rXNW_MERGE 0 32 (mergePartners u node c out d).length

section Granted
variable {s u : State} {node plane c : Nat} {out : Side} {d : Cand} {r : Router}

theorem exec_routerGrant (hm : meshMoves s = true) (hc : grantCycle (injectUpTo s node (s.cycle + 1)) node plane out = some c)
    (hu : injectUpTo (toCycle s c) node c = u) (ha : arbitrate u node plane c out = some (d, r)) :
    exec (.routerGrant node plane out) s = .next (forwardFlit (granted u node plane c out d r) node c out (grantedFlit u node c out d)) := by
  subst hu
  change execRouterGrant node plane out s = _
  rw [execRouterGrant]
  simp only [hm, hc, ha]
  rfl

/-- Addition changes data alone. -/
theorem grantedFlit_header : grantedFlit u node c out d = { d.2 with data := (grantedFlit u node c out d).data } :=
  foldl_keeps (fun f : Flit => f = { d.2 with data := f.data }) _ (fun f e hf => by rw [addFlits, hf]) _ _ rfl

/-- A flit without ADDF has no partners, and leaves as it came. -/
theorem grantedFlit_plain (h : d.2.addf = 0) : grantedFlit u node c out d = d.2 := by
  have hnone : mergePartners u node c out d = [] := by simp [mergePartners, sameTag, h]
  rw [grantedFlit, hnone, List.foldl_nil]

theorem grantedRouter_shorter (ha : arbitrate u node plane c out = some (d, r)) :
    (grantedRouter u node plane c out d r).held.length < (u.router node).held.length := by
  obtain ⟨hin, hheld⟩ := arbitrate_held ha
  rw [← hheld]
  exact (foldl_drop_length_le _ _).trans_lt (drop_shorter (r := { r with last := SMap.put r.last (outKey plane out) c }) hin)

theorem granted_tiles : (granted u node plane c out d r).tiles = u.tiles := by
  rw [granted, satAdd, setFld, setReg_tiles, setRouter_tiles]

theorem granted_routers : (granted u node plane c out d r).routers =
    (u.setRouter node (grantedRouter u node plane c out d r)).routers := by
  rw [granted, satAdd, setFld, setReg_routers]

theorem granted_router : (granted u node plane c out d r).router node = grantedRouter u node plane c out d r := by
  rw [router_congr granted_routers, setRouter_router]

theorem granted_router_ne {n : Site} (h : n ≠ node) : (granted u node plane c out d r).router n = u.router n := by
  rw [router_congr granted_routers, setRouter_router_ne _ _ h]

theorem granted_tile (x : Site) : (granted u node plane c out d r).tile x = u.tile x := tile_congr granted_tiles x

/-- Of the register words only the count of merged flits has changed. -/
theorem granted_regFld {off : Nat} (lo len : Nat) (h : off ≠ rXNW_MERGE) :
    regFld (granted u node plane c out d r) off lo len = regFld u off lo len := regFld_setReg_ne _ _ _ _ h

theorem granted_seamDelay : seamDelay (granted u node plane c out d r) = seamDelay u := by
  rw [seamDelay, granted_regFld _ _ (by decide), seamDelay]

end Granted

/-! ### Where the flit goes (R252, R254, R264) -/

/-- From s to t, only tiles, routers, register words and interrupts have changed. -/
def MovesOnly (s t : State) : Prop := t = { s with tiles := t.tiles, routers := t.routers, regs := t.regs, host := t.host }

/-- A flit as the next router holds it: ready two cycles after its grant, and on a seam bridge the bridge's delay later (R252). -/
def onward (s : State) (node c : Nat) (out : Side) (f : Flit) : Held :=
  { input := (neighbour node out).2.1, flit := { f with ready := c + 2 + (if (neighbour node out).2.2 then seamDelay s else 0) } }

section Forward
variable {s : State} {node c : Nat} {f : Flit}

theorem forwardFlit_fenced (h : (s.tile node).pwr = .fenced) : Discards 1 s (forwardFlit s node c .loc f) := by
  rw [forwardFlit, if_pos h]
  exact fencedFlit_discards s node _ _ _

theorem forwardFlit_enters (h : (s.tile node).pwr ≠ .fenced) : forwardFlit s node c .loc f = s.onTile node fun t =>
    { t with arrivals := t.arrivals ++ [{ flit := f, entry := c + 2, targets := none, noted := false, sums := none }] } := if_neg h

theorem forwardFlit_onward {out : Side} (h : out ≠ .loc) : forwardFlit s node c out f =
    s.setRouter (neighbour node out).1 { s.router (neighbour node out).1 with
      held := (s.router (neighbour node out).1).held ++ [onward s node c out f] } := by
  cases out with
  | loc => exact absurd rfl h
  | _ => rfl

/-- What a local output grants reaches no router. -/
theorem forwardFlit_loc_routers : (forwardFlit s node c .loc f).routers = s.routers := by
  by_cases h : (s.tile node).pwr = .fenced
  · rw [(forwardFlit_fenced h).frame]
  · rw [forwardFlit_enters h, State.onTile, setTile_routers]

theorem movesOnly_forwardFlit (out : Side) : MovesOnly s (forwardFlit s node c out f) := by
  by_cases hout : out = .loc
  · subst hout
    by_cases h : (s.tile node).pwr = .fenced
    · unfold MovesOnly
      rw [(forwardFlit_fenced h).frame]
    · rw [forwardFlit_enters h]
      rfl
  · rw [forwardFlit_onward hout]
    rfl

end Forward

section GrantedForward
variable {u : State} {node plane c : Nat} {out : Side} {d : Cand} {r : Router} {f : Flit}

theorem movesOnly_granted : MovesOnly u (forwardFlit (granted u node plane c out d r) node c out f) := by
  have h := movesOnly_forwardFlit (s := granted u node plane c out d r) (node := node) (c := c) (f := f) out
  unfold MovesOnly at h ⊢
  rw [h]
  rfl

theorem onward_granted : onward (granted u node plane c out d r) node c out f = onward u node c out f := by
  rw [onward, granted_seamDelay, onward]

theorem granted_shorter (ha : arbitrate u node plane c .loc = some (d, r)) :
    ((forwardFlit (granted u node plane c .loc d r) node c .loc f).router node).held.length < (u.router node).held.length := by
  rw [router_congr forwardFlit_loc_routers, granted_router]
  exact grantedRouter_shorter ha

theorem granted_enters (h : (u.tile node).pwr ≠ .fenced) :
    (forwardFlit (granted u node plane c .loc d r) node c .loc f).tile node = { u.tile node with
      arrivals := (u.tile node).arrivals ++ [{ flit := f, entry := c + 2, targets := none, noted := false, sums := none }] } := by
  rw [← granted_tile] at h
  rw [forwardFlit_enters h, onTile_tile, granted_tile]

theorem granted_discarded (h : (u.tile node).pwr = .fenced) :
    (forwardFlit (granted u node plane c .loc d r) node c .loc f).tile node = u.tile node ∧
      regFld (forwardFlit (granted u node plane c .loc d r) node c .loc f) rXNW_FDROP 0 32 =
        min (regFld u rXNW_FDROP 0 32 + 1) (2 ^ 32 - 1) := by
  rw [← granted_tile] at h
  have hdropped : Discards 1 _ (forwardFlit (granted u node plane c .loc d r) node c .loc f) := forwardFlit_fenced h
  constructor
  · rw [hdropped.tile, granted_tile]
  · rw [hdropped.count, granted_regFld _ _ (by decide)]

theorem granted_onward (h : out ≠ .loc) :
    (forwardFlit (granted u node plane c out d r) node c out f).tiles = u.tiles ∧
      ((forwardFlit (granted u node plane c out d r) node c out f).router (neighbour node out).1).held =
        ((granted u node plane c out d r).router (neighbour node out).1).held ++ [onward u node c out f] := by
  rw [forwardFlit_onward h, onward_granted, setRouter_router, setRouter_tiles, granted_tiles]
  exact ⟨rfl, rfl⟩

end GrantedForward

/-- Settles O21: `exec_routerGrant` names the state that the flit leaves and the flit; then `granted_enters`, `granted_discarded` and
`granted_onward` say where it goes. -/
theorem routerGrants : Obligations.RouterGrants := by
  unfold Obligations.RouterGrants
  intro s node plane c out d r hm hc u ha
  have hu : injectUpTo (toCycle s c) node c = u := rfl
  have hinjected : InjectsOnly (toCycle s c) u := injectsOnly_injectUpTo _ node c
  clear_value u
  obtain ⟨hcycle, hgddr, hctls, hlend⟩ : u.cycle = max s.cycle c ∧ u.gddr = s.gddr ∧ u.ctls = s.ctls ∧ u.lend = s.lend := by
    rw [hinjected]
    exact ⟨toCycle_cycle s c, toCycle_gddr s c, toCycle_ctls s c, toCycle_lend s c⟩
  have hheader := grantedFlit_header (u := u) (node := node) (c := c) (out := out) (d := d)
  have hmoves : MovesOnly u (forwardFlit (granted u node plane c out d r) node c out (grantedFlit u node c out d)) := movesOnly_granted
  refine ⟨_, grantedFlit u node c out d, exec_routerGrant hm hc hu ha, ?_, ?_, ?_, ?_, ?_, ?_, fun h => ?_, ?_, ?_, ?_, ?_, ?_, ?_,
    grantedFlit_plain, ?_, ?_⟩
  · rw [hmoves, hcycle]
  · rw [hmoves, hgddr]
  · rw [hmoves, hctls]
  · rw [hmoves, hlend]
  · rw [hmoves]
  · rw [hmoves]
  · rw [← hu]
    exact injectUpTo_idle (by rw [toCycle_tile, h]) c
  iterate 6 rw [hheader]
  · rintro rfl
    exact ⟨granted_shorter ha, granted_enters, granted_discarded⟩
  · intro hout n
    obtain ⟨htiles, hheld⟩ := granted_onward (u := u) (node := node) (plane := plane) (c := c) (d := d) (r := r)
      (f := grantedFlit u node c out d) hout
    refine ⟨htiles, ?_, fun hn => ?_⟩
    · rw [hheld]
      exact List.mem_append_right _ (List.mem_singleton_self _)
    · rw [hheld, granted_router_ne hn]
      rfl

end Sys2Proof.Machine
end
